-- ==== Sys2Proof/Word.lean ====
section
/-! DEFINITION. The word types of the module and the keyed table that holds sparse state. -/

namespace Sys2Proof

abbrev Byte := BitVec 8
abbrev Half := BitVec 16
abbrev Word := BitVec 32
abbrev Long := BitVec 64
/-- One tile instruction word (R164). -/
abbrev Quad := BitVec 128

/-- Sparse state by number: pairs of a key and a value, keys strictly rising. A key that is absent
stands for the value its accessor names (the reset value of that element). -/
abbrev Tab (α : Type) := List (Nat × α)

end Sys2Proof
end

