-- ==== Sys2Proof/Syntax.lean ====
section
/-! DEFINITION. The commands of the module, one constructor per row of the table of operations and
events, and the operand structures they carry. -/

namespace Sys2Proof

/-- A dispatch by a tile's sequencer: the tile, whether the word fetched at its PC has an uncorrectable error, and the lines of the
accumulator store (true) and the operand store (false) in which an uncorrectable error has been found since (R202). -/
structure Dispatch where
  tile : Nat
  ecc  : Bool
  lost : List (Bool × Nat) := []
  deriving DecidableEq, Repr

/-- The header of a mailbox command (Table 17-7): pair, UNITS_M1 + 1, CMD_SEQ, CORRELATION, and the
offset of the first RSVD byte or bit that is not 0. -/
structure Hdr where
  pair   : Nat
  units  : Nat
  seq    : Nat
  corr   : Nat
  rsvdAt : Option Nat
  deriving DecidableEq, Repr

/-- A reference (Table 17-8). `block` is what the RC reads of the message (KIND 0) or of host memory
(KIND 1), and `readable` whether that read succeeds; a KIND 2 block is read from module memory. -/
structure Ref where
  kind     : Nat
  key      : Nat
  addr     : Nat
  len      : Nat
  block    : List Byte
  readable : Bool
  deriving DecidableEq, Repr

/-- Where a DMA ring or queue lies (R323, R329): kind 0 fabric, 1 host A, 2 host B. -/
structure RingLoc where
  kind : Nat
  addr : Nat
  key  : Nat
  size : Nat
  deriving DecidableEq, Repr

/-- Arguments of DMA_CHANNEL_CREATE (Table 11-8); 0xFF is "any" for the channel and "none" for the
function (0 A, 1 B); hostPorts bit 0 A, bit 1 B. -/
structure ChanArgs where
  chan : Nat
  job : Nat
  queue : Nat
  ring : RingLoc
  share : Nat
  fn : Nat
  hostPorts : Nat
  deriving DecidableEq, Repr

/-- Ethernet port configuration (Table 18-6). -/
structure EthCfg where
  enable  : Nat
  ip      : Nat
  pfx     : Nat
  gateway : Nat
  vlan    : Nat
  jumbo   : Nat
  deriving DecidableEq, Repr

/-- Arguments of REGION_CREATE: Table 14-2 without REGION and KEY. -/
structure RegionArgs where
  space : Nat
  base  : Nat
  len   : Nat
  job   : Nat
  perm  : Nat
  opn   : Nat
  repl  : Nat
  deriving DecidableEq, Repr

/-- One replica of a range (R424). -/
structure Replica where
  module : Nat
  base : Nat
  key : Nat
  deriving DecidableEq, Repr

/-- One range of a replica map (R424). -/
structure ReplicaRange where
  home  : Nat
  space : Nat
  base  : Nat
  len   : Nat
  replicas : List Replica
  deriving DecidableEq, Repr

/-- One port's entry of the cabling plan (Table 13-7): role 0 UNUSED, 1 NORMAL, 2 BYPASS. -/
structure PlanEntry where
  port : Nat
  role : Nat
  serial : Nat
  module : Nat
  peerPort : Nat
  backsUp : Nat
  deriving DecidableEq, Repr

/-- A cabling plan (Table 13-7). -/
structure Plan where
  version : Nat
  self : Nat
  entries : List PlanEntry
  deriving DecidableEq, Repr

/-- A routing table (Table 13-4). -/
structure RouteTable where
  job : Nat
  epoch : Nat
  lens : List Nat
  wraps : List Nat
  selfAt : List Nat
  plus : List Nat
  minus : List Nat
  members : List Nat
  deriving DecidableEq, Repr

/-- An on-commit command of a collective (R445): stack, queue and the 64 command bytes. -/
structure OnCommit where
  stack : Nat
  queue : Nat
  cmd : List Byte
  deriving DecidableEq, Repr

/-- Arguments of COLL_CREATE (Table 15-10). Buffers are fabric addresses on this module, `none` where
not given; ring is (address, key); tile and token 0xFF none. -/
structure CollArgs where
  id : Nat
  job : Nat
  op : Nat
  algorithm : Nat
  dimMask : Nat
  root : Nat
  count : Nat
  fmt : Nat
  bufIn : Nat
  out0 : Nat
  out1 : Nat
  work0 : Option Nat
  work1 : Option Nat
  carry0 : Option Nat
  carry1 : Option Nat
  commitMode : Nat
  stepTimeout : Nat
  policy : Nat
  fallback : Nat
  genFirst : Nat
  ring : Option (Nat × Nat)
  tile : Nat
  token : Nat
  cmds : List OnCommit
  deriving DecidableEq, Repr

/-- Arguments of PIPE_CREATE (R457): dir 0 SEND, 1 RECV. -/
structure PipeArgs where
  id : Nat
  job : Nat
  peer : Nat
  dir : Nat
  anchor : Nat
  slots : Nat
  slotBytes : Nat
  samples : Nat
  buffer : Nat
  ring : Option (Nat × Nat)
  tile : Nat
  token : Nat
  deriving DecidableEq, Repr

/-- One pair of a spare fill (R463): source address and key, local stack address and key, length, and
the source's queue window with its key (a fabric address). -/
structure FillPair where
  src : Nat
  srcKey : Nat
  dst : Nat
  dstKey : Nat
  len : Nat
  window : Nat
  windowKey : Nat
  deriving DecidableEq, Repr

/-- Arguments of SERVE_MODEL_LOAD (R470, Table 16-1). -/
structure ModelArgs where
  job : Nat
  weights : List Nat
  pools : List Nat
  logits : Nat
  batchAddr : Nat
  bytesFixed : Nat
  kvBytes : Nat
  stepsPerPass : Nat
  vocab : Nat
  maxContext : Nat
  prefillShare : Nat
  logitFmt : Nat
  deriving DecidableEq, Repr

/-- A byte-pair table (R479): entries and the merge list in rank order (left, right, result). -/
structure BpTable where
  entries : List (List Byte)
  merges : List (Nat × Nat × Nat)
  raw : List Byte
  deriving DecidableEq, Repr

/-- Contract fields (Table 16-8). RATE_SEQ is a binary32 encoding. -/
structure ContractArgs where
  id : Nat
  key : List Byte
  tokeniser : Nat
  seqReserved : Nat
  ctxLimit : Nat
  rateSeq : BitVec 32
  p50 : Nat
  p99 : Nat
  p999 : Nat
  floorStep : Nat
  window : Nat
  stretchTokens : Nat
  stretchTime : Nat
  deriving DecidableEq, Repr

/-- A setup block as the RC reads it (Table 17-6); `rsvdZero` says bytes 35-59 are 0 and `readable`
that the host's memory answered. -/
structure SetupBlock where
  cmdRing : Nat
  rspRing : Nat
  evtRing : Nat
  indexAddr : Nat
  cmdLog2 : Nat
  rspLog2 : Nat
  evtLog2 : Nat
  rsvdZero : Bool
  readable : Bool
  deriving DecidableEq, Repr

/-- A tensor-network packet (Table 13-2) with its payload and whether its trailing CRC is good. -/
structure Pkt where
  type : Nat
  flags : Nat
  dest : Nat
  src : Nat
  flowSeq : Nat
  gen : Nat
  job : Nat
  tag : Nat
  vc : Nat
  hopLimit : Nat
  mcDim : Nat
  mcPlus : Nat
  mcMinus : Nat
  key : Nat
  typeArg : Nat
  payload : List Byte
  crcOk : Bool
  rsvdZero : Bool
  deriving DecidableEq, Repr

/-- A die-to-die flit (Table 10-2) or a hop flit (Table 13-1) as it reaches its receiver. kind: 0 data, 1 idle, 2 link control;
PAYLOAD_LEN is the length of `payload`, and `firstStart` FIRST_START. `lost` says that its CRC is bad, `errBits` name the bits of
the 2,048 that came wrong (R302), and `symbols` the symbols in error of each codeword that carries it (R346). The fields are those
that were sent. -/
structure Flit where
  lseq : Nat
  ackSeq : Nat
  kind : Nat
  vc : Nat
  nak : Bool
  trunc : Bool
  crVc : Nat
  crTotal : Nat
  txVc : Nat
  txTotal : Nat
  firstStart : Nat
  payload : List Byte
  lost : Bool
  errBits : List Nat
  symbols : List (List Nat)
  deriving DecidableEq, Repr

/-- A loop reading of a microring (R354, R356): its offset in units of 0.1 GHz, its drop-port power in units of 0.01 dBm, and
whether light comes in. -/
structure LoopReading where
  offset : Int
  power : Int
  light : Bool
  deriving DecidableEq, Repr

/-- A LANE_MOVE message (R361): the spare that takes the data slot, none where it is retired, and the state that its old grid
slot takes: 4 retired at warning, 5 at the floor, 6 by failure (Table 12-7). -/
structure LaneMove where
  spare : Option Nat
  cause : Nat
  deriving DecidableEq, Repr

/-- One sweep of the test attenuation as its receiver measured it (R350): for grid slot w of fibre pair f, at key 18 f + w, the bit
error ratio at each step from 0 to 6.0 dB, in millionths. -/
structure Sweep where
  slots : List (Nat × List Nat)
  deriving DecidableEq, Repr

/-- What a moved quad received in its identity exchange (R368): the far module's serial and port. -/
structure QuadPeer where
  quad : Nat
  serial : Nat
  port : Nat
  deriving DecidableEq, Repr

/-- A symbol in error of a line as it is read: line offset A (bits [36:6] give the line), symbol 0-71
(64-71 the check bytes) and the non-zero difference (R211, R212). -/
structure Flip where
  line : Nat
  symbol : Nat
  diff : Byte
  deriving DecidableEq, Repr

/-- How a host read of the DMA engine completes (R332, R548): `mask` are the lines whose completion carried poisoned data. -/
inductive HostRead where
  | none
  | data (bytes : List Byte)
  | poisoned (bytes : List Byte) (mask : Nat)
  deriving DecidableEq, Repr

/-- A bus error of a DMA burst or descriptor fetch (R332, Table 11-7): kind 1 fabric, 2 PCIe, 3 POISON;
fabric status, or for a PCIe read 1 where it timed out and 0 where it completed with Unsupported Request or Completer
Abort. `burst` is the byte of its descriptor at which the burst starts. -/
structure BusErr where
  kind : Nat
  status : Nat
  burst : Nat
  deriving DecidableEq, Repr

/-- A guest message (Table 10-7). -/
structure GuestReq where
  opcode : Nat
  tag : Nat
  region : Nat
  len : Nat
  key : Nat
  status : Nat
  offset : Nat
  rsvdZero : Bool
  data : List Byte
  deriving DecidableEq, Repr

/-- A TSP message (Table 16-3) as received on E0 (0) or E1 (1) from a client address and UDP port.
`bytes` is every byte from byte 0 to the end of the payload, and `mac` the 16-byte TAG. -/
structure Tsp where
  port : Nat
  addr : Nat
  udp : Nat
  bytes : List Byte
  mac : List Byte
  deriving DecidableEq, Repr

/-- A remote-mailbox datagram (Table 17-18) as received. `units` holds the message units. -/
structure Dgram where
  port : Nat
  addr : Nat
  udp : Nat
  bytes : List Byte
  mac : List Byte
  deriving DecidableEq, Repr

/-- An Ethernet frame as received: destination kind (0 own address, 1 broadcast, 2 other), VLAN, what it
carries (0 ARP, 1 ICMP echo, 2 UDP, 3 other), UDP destination port, length and faults. -/
structure EthFrame where
  dst : Nat
  vlan : Nat
  proto : Nat
  udpPort : Nat
  toIp : Nat
  len : Nat
  fcsOk : Bool
  fragment : Bool
  options : Bool
  deriving DecidableEq, Repr

/-- The results of the Tally's power-up checks (R625, R627, R628). -/
structure TallyChecks where
  firmware : Bool
  adc : Bool
  nvm : Bool
  oscillator : Bool
  ram : Bool
  mesh : Bool
  deriving DecidableEq, Repr

/-- What a housekeeping round delivers (R578, R579): the readings present, by channel, and the power
stage's mean input power in W over the round and the fold-back's active microseconds in it. -/
structure Round where
  readings : List (Nat × Int)
  power : Nat
  foldback : Nat
  deriving DecidableEq, Repr

/-- A command: one row of the table of operations and events. The docstrings of the meanings
(Machine/) cite the rules; the operands of a row are what comes from outside the module. -/
inductive Instr where
  | tileLoad (t : Dispatch)
  | tileStore (t : Dispatch)
  | tileFeed (t : Dispatch)
  | tileHold (t : Dispatch)
  | tileMma (t : Dispatch)
  | tileConv (t : Dispatch)
  | tileEw (t : Dispatch)
  | glazeDefine (t : Dispatch)
  | glazeApply (t : Dispatch)
  | tileSend (t : Dispatch)
  | tileRecv (t : Dispatch)
  | tileWait (t : Dispatch)
  | tileSignal (t : Dispatch)
  | tileFence (t : Dispatch)
  | tileMark (t : Dispatch)
  | tileReplay (t : Dispatch)
  | tileLoop (t : Dispatch)
  | endProgram (t : Dispatch)
  | tileDone (tile : Nat)
  | instructionComplete (tile : Nat) (idx : Nat)
  | waitTimeoutExpire (tile : Nat)
  | arrayStep (tile : Nat)
  | sysVersion (h : Hdr) (minMajor : Nat) (minMinor : Nat) (maxMajor : Nat) (maxMinor : Nat)
  | sysSessionChallenge (h : Hdr)
  | sysSessionOpen (h : Hdr) (cred : Nat) (role : Nat) (nonce : List Byte) (proof : List Byte)
  | sysSessionClose (h : Hdr)
  | sysIdentify (h : Hdr)
  | sysReadiness (h : Hdr)
  | sysPairRelease (h : Hdr)
  | sysStageWrite (h : Hdr) (region : Nat) (key : Nat) (offset : Nat) (data : List Byte)
  | sysEventLogRead (h : Hdr) (first : Nat) (count : Nat)
  | sysCredCreate (h : Hdr) (cred : Nat) (role : Nat) (key : List Byte) (jobs : List Nat) (access : Nat)
  | sysCredRevoke (h : Hdr) (cred : Nat)
  | sysCredList (h : Hdr) (first : Nat) (count : Nat)
  | sysOwnerClaim (h : Hdr) (key : List Byte) (access : Nat)
  | sysFunctionRestart (h : Hdr) (index : Nat)
  | pwrConfigSet (h : Hdr) (vcore : Nat) (cap : Nat)
  | pwrRailsRestore (h : Hdr)
  | sysFwLoad (h : Hdr) (image : Ref)
  | sysFwActivate (h : Hdr) (bank : Nat) (restartNow : Nat) (window : Nat)
  | sysRcRestart (h : Hdr)
  | sysFwCommit (h : Hdr)
  | sysFwStatus (h : Hdr)
  | sysRemoteSet (h : Hdr) (enE0 : Nat) (enE1 : Nat) (port : Nat)
  | hostPortStatus (h : Hdr) (port : Nat)
  | hostChannelRebind (h : Hdr) (chan : Nat) (fn : Nat) (ring : RingLoc)
  | hostCqRebind (h : Hdr) (queue : Nat) (ring : RingLoc)
  | ethConfigSet (h : Hdr) (port : Nat) (cfg : EthCfg)
  | ethPortStatus (h : Hdr) (port : Nat)
  | stackScrubSet (h : Hdr) (stack : Nat) (hours : Nat)
  | stackDarn (h : Hdr) (stack : Nat) (chan : Nat) (lane : Nat)
  | stackLogRead (h : Hdr) (stack : Nat) (first : Nat) (count : Nat)
  | stackStatus (h : Hdr) (stack : Nat)
  | paletteQueueCreate (h : Hdr) (stack : Nat) (job : Nat) (regions : List Nat) (ring : Option (Nat × Nat))
  | paletteQueueDestroy (h : Hdr) (stack : Nat) (queue : Nat)
  | paletteQueueStatus (h : Hdr) (stack : Nat) (queue : Nat)
  | paletteStatus (h : Hdr) (stack : Nat)
  | dmaCqCreate (h : Hdr) (queue : Nat) (job : Nat) (ring : RingLoc)
  | dmaCqDestroy (h : Hdr) (queue : Nat)
  | dmaChannelCreate (h : Hdr) (a : ChanArgs)
  | dmaChannelDestroy (h : Hdr) (chan : Nat)
  | dmaChannelShareSet (h : Hdr) (chan : Nat) (share : Nat)
  | dmaChannelKick (h : Hdr) (chan : Nat) (pi : Nat)
  | dmaChannelStatus (h : Hdr) (chan : Nat)
  | regionCreate (h : Hdr) (a : RegionArgs)
  | regionDestroy (h : Hdr) (region : Nat)
  | regionFlagsSet (h : Hdr) (region : Nat) (opn : Nat) (repl : Nat)
  | regionStatus (h : Hdr) (region : Nat)
  | replicaMapSet (h : Hdr) (job : Nat) (block : Ref) (ranges : List ReplicaRange)
  | replicaMapClear (h : Hdr) (job : Nat)
  | fabricTimeoutSet (h : Hdr) (job : Nat) (timeout : Nat)
  | fabricStatus (h : Hdr)
  | jobTeardown (h : Hdr) (job : Nat)
  | jobTeardownComplete (job : Nat)
  | tileLoadProgram (h : Hdr) (tile : Nat) (prog : Ref) (bases : Ref)
  | tileStart (h : Hdr) (tile : Nat) (pc : Nat)
  | tileStop (h : Hdr) (tile : Nat)
  | tileFaultRead (h : Hdr) (tile : Nat)
  | tileStatus (h : Hdr) (tile : Nat)
  | tileLoadMulti (h : Hdr) (tiles : List Nat) (prog : Ref) (bases : Ref)
  | tileStartMulti (h : Hdr) (tiles : List Nat) (pc : Nat)
  | tileSeedRng (h : Hdr) (tile : Nat) (seed : Long)
  | tileReset (h : Hdr) (tile : Nat)
  | planLoad (h : Hdr) (block : Ref) (plan : Plan)
  | planAmend (h : Hdr) (block : Ref) (entries : List PlanEntry) (table : Option RouteTable)
  | planStatus (h : Hdr)
  | portRejudge (h : Hdr) (port : Nat)
  | routeTableSet (h : Hdr) (block : Ref) (table : RouteTable)
  | routeTableClear (h : Hdr) (job : Nat)
  | routeTableRead (h : Hdr) (job : Nat)
  | routerPortCounters (h : Hdr) (port : Nat)
  | routerSnapshot (h : Hdr) (index : Nat)
  | routerSnapshotPeriod (h : Hdr) (ms : Nat)
  | d2dLinkStatus (h : Hdr) (link : Nat)
  | d2dLaneDarn (h : Hdr) (link : Nat) (dir : Nat) (lane : Nat)
  | guestRegionGrant (h : Hdr) (region : Nat) (access : Nat)
  | guestRegionRevoke (h : Hdr) (region : Nat)
  | guestGaugeSet (h : Hdr) (rate : Nat) (threshold : Nat)
  | guestEnable (h : Hdr)
  | guestStatus (h : Hdr)
  | opticPortStatus (h : Hdr) (port : Nat)
  | opticSlotStatus (h : Hdr) (port : Nat) (dir : Nat)
  | opticSteer (h : Hdr) (pair : Nat) (places : List Nat)
  | opticCalSet (h : Hdr) (port : Nat) (interval : Nat)
  | opticSwatchRun (h : Hdr) (port : Nat)
  | opticSlotRetire (h : Hdr) (port : Nat) (dir : Nat) (slot : Nat)
  | collCreate (h : Hdr) (a : CollArgs)
  | collDestroy (h : Hdr) (id : Nat)
  | collStart (h : Hdr) (id : Nat) (gen : Nat)
  | collStatus (h : Hdr) (id : Nat)
  | collResume (h : Hdr) (id : Nat) (job : Nat)
  | collPolicySet (h : Hdr) (id : Nat) (policy : Nat) (timeout : Nat) (share : Nat)
  | collAbort (h : Hdr) (id : Nat) (job : Nat)
  | collExpel (h : Hdr) (job : Nat) (module : Nat)
  | jobExpelBudgetSet (h : Hdr) (job : Nat) (budget : Nat) (refill : Nat)
  | pipeCreate (h : Hdr) (a : PipeArgs)
  | pipeDestroy (h : Hdr) (id : Nat)
  | pipeStatus (h : Hdr) (id : Nat)
  | spareFill (h : Hdr) (job : Nat) (source : Nat) (block : Ref) (pairs : List FillPair)
  | sparePromote (h : Hdr) (job : Nat)
  | spareStatus (h : Hdr) (job : Nat)
  | spareFillPairCheck (job : Nat) (src : List Byte)
  | jobCreate (h : Hdr) (job : Nat) (tiles : List Nat)
  | jobStatus (h : Hdr) (job : Nat)
  | jobDestroy (h : Hdr) (job : Nat)
  | serveModelLoad (h : Hdr) (a : ModelArgs)
  | serveModelUnload (h : Hdr)
  | serveTokeniserLoad (h : Hdr) (slot : Nat) (block : Ref) (table : BpTable)
  | servePoolShrink (h : Hdr) (limits : List Nat)
  | serveContractCreate (h : Hdr) (a : ContractArgs)
  | serveContractKeySet (h : Hdr) (id : Nat) (key : List Byte)
  | serveContractClose (h : Hdr) (id : Nat)
  | serveContractStatus (h : Hdr) (id : Nat)
  | serveWindowRead (h : Hdr) (id : Nat) (seq : Nat)
  | serveFloorQuery (h : Hdr) (b : Nat) (step : Nat) (ctx : Nat)
  | serveRequest (h : Hdr) (id : Nat) (stream : Nat) (payload : List Byte)
  | serveCancel (h : Hdr) (id : Nat) (stream : Nat)
  | serveStatus (h : Hdr)
  | telemRead (h : Hdr) (kind : Nat) (index : Nat)
  | telemSensors (h : Hdr)
  | telemPower (h : Hdr)
  | secAttest (h : Hdr) (nonce : List Byte)
  | secReportRead (h : Hdr) (id : Nat) (offset : Nat) (len : Nat)
  | secConfigRead (h : Hdr) (offset : Nat) (len : Nat)
  | secCertRead (h : Hdr) (kind : Nat) (offset : Nat) (len : Nat)
  | secAlarmStatus (h : Hdr)
  | secAlarmConfig (h : Hdr) (level : Nat) (limit : Nat)
  | secUnlock (h : Hdr)
  | secAlarmRaise (h : Hdr) (level : Nat) (confirm : Nat)
  | secAlarmLogRead (h : Hdr) (first : Nat) (count : Nat)
  | tallyStatus (h : Hdr)
  | tallyCertRead (h : Hdr) (offset : Nat) (len : Nat)
  | tallyRead (h : Hdr) (kind : Nat) (arg : Nat) (nonce : List Byte)
  | tallyReadingFetch (h : Hdr) (id : Nat) (offset : Nat) (len : Nat)
  | doorbellSetup (fn : Nat) (n : Nat) (addr : Nat) (blk : SetupBlock)
  | cmdPiDoorbell (fn : Nat) (n : Nat) (v : Nat)
  | rspCiWrite (fn : Nat) (n : Nat) (v : Nat)
  | evtCiWrite (fn : Nat) (n : Nat) (v : Nat)
  | descPiDoorbell (fn : Nat) (chan : Nat) (v : Nat)
  | cqHeadWrite (fn : Nat) (chan : Nat) (v : Nat)
  | dmaAbort (fn : Nat) (chan : Nat)
  | resumeRetry (fn : Nat) (chan : Nat)
  | resumeSkip (fn : Nat) (chan : Nat)
  | statusW1cWrite (fn : Nat) (offset : Nat) (v : Nat) (meets : List Nat)
  | tickLoRead (fn : Nat)
  | registerWrite (fn : Nat) (offset : Nat) (width : Nat) (v : Nat)
  | msixUnmask (fn : Nat) (vector : Nat)
  | paletteCmdStore (p : Pkt)
  | paletteHeadStore (p : Pkt)
  | paletteEw (stack : Nat) (queue : Nat)
  | paletteAccum (stack : Nat) (queue : Nat)
  | paletteSgd (stack : Nat) (queue : Nat)
  | paletteAdam (stack : Nat) (queue : Nat)
  | paletteGather (stack : Nat) (queue : Nat)
  | paletteScatter (stack : Nat) (queue : Nat)
  | paletteKvAppend (stack : Nat) (queue : Nat)
  | paletteKvCompact (stack : Nat) (queue : Nat)
  | paletteDigest (stack : Nat) (queue : Nat)
  | paletteCommandComplete (stack : Nat) (idx : Nat)
  | dmaCopy (chan : Nat) (fetched : List Byte)
  | dmaFill (chan : Nat) (fetched : List Byte)
  | dmaNop (chan : Nat) (fetched : List Byte)
  | dmaBurstIssue (chan : Nat) (host : HostRead)
  | dmaDescriptorComplete (chan : Nat)
  | dmaBusError (chan : Nat) (e : BusErr)
  | descriptorFetchFail (chan : Nat) (e : BusErr)
  | dmaRecordDeferred (queue : Nat)
  | fabricRead (p : Pkt) (flips : List Flip)
  | fabricWrite (p : Pkt)
  | fabricAtomic (p : Pkt)
  | syncRead (p : Pkt) (flips : List Flip)
  | syncAdd (p : Pkt)
  | generationStartWrite (p : Pkt)
  | pipeSendStart (p : Pkt)
  | pipeReleaseWrite (p : Pkt)
  | iterationDone (p : Pkt)
  | readResp (p : Pkt)
  | atomicResp (p : Pkt)
  | errorResp (p : Pkt)
  | flowAck (p : Pkt)
  | flowNak (p : Pkt)
  | fabricTimeoutExpire (tag : Nat)
  | tagLingerEnd (tag : Nat)
  | flowRecordEvict (src : Nat) (cls : Nat)
  | regionZeroingComplete (region : Nat)
  | packetRoute (src : Option Nat) (p : Pkt)
  | hopFlitReceive (port : Nat) (f : Flit)
  | hopReplayTimeout (port : Nat)
  | d2dFlitReceive (link : Nat) (dir : Nat) (f : Flit)
  | d2dAckTimeout (link : Nat) (dir : Nat)
  | laneLockLoss (link : Nat) (dir : Nat) (lane : Nat)
  | clockLaneStop (link : Nat) (dir : Nat) (pair : Nat) (lane : Nat)
  | laneDarn (link : Nat) (dir : Nat) (lane : Nat) (spare : Nat)
  | laneDarnAck (link : Nat) (dir : Nat)
  | linkTrainingComplete (link : Nat) (failed : List Nat)
  | readyMarkSend (link : Nat) (dir : Nat)
  | readyMark (link : Nat) (dir : Nat) (lseq : Nat) (freeSlots : List Nat)
  | guestRead (g : GuestReq)
  | guestWrite (g : GuestReq)
  | guestTokenAdmit (tag : Nat)
  | guestResponse (g : GuestReq)
  | gaugeRefill (kind : Nat) (idx : Nat)
  | ringLoopUpdate (port : Nat) (dir : Nat) (slot : Nat) (reading : LoopReading) (heater : Nat) (outOfRange : Bool)
  | laserMonitorRead (port : Nat) (slot : Nat) (power : Int) (earlier : List Int)
  | laserChangeover (port : Nat) (slot : Nat) (verified : List Nat)
  | laneMove (port : Nat) (slot : Nat) (move : LaneMove)
  | slotFailReport (port : Nat) (slot : Nat)
  | calIntervalExpire (port : Nat) (dir : Nat) (verified : Bool) (margin : Nat)
  | swatchComplete (port : Nat) (tx : List Sweep) (rx : List Sweep)
  | noLightTimeout (port : Nat)
  | lightReturn (port : Nat)
  | lightLoss (port : Nat)
  | lightLossTimeout (port : Nat)
  | steerExecute (pair : Nat)
  | identityExchange (port : Nat) (serial : Nat) (module : Nat) (peerPort : Nat) (major : Nat) (minor : Nat) (quads : List QuadPeer)
  | contribPacket (p : Pkt)
  | collGatherPacket (p : Pkt)
  | exchangePacket (p : Pkt)
  | bcastPacket (p : Pkt)
  | votePacket (p : Pkt)
  | pipeData (p : Pkt)
  | pipeCredit (p : Pkt)
  | frogPacket (p : Pkt)
  | stepTimeoutExpire (id : Nat)
  | voteGraceExpire (id : Nat)
  | frogResend (id : Nat) (nbr : Nat)
  | phaseBoundaryRelease (id : Nat)
  | onCommitRetry (id : Nat)
  | expelRefill (job : Nat)
  | tspRequest (m : Tsp)
  | tspCancel (m : Tsp)
  | streamAck (m : Tsp)
  | tspResend (m : Tsp)
  | requestPartsTimeout (contract : Nat) (stream : Nat)
  | streamRetentionExpire (contract : Nat) (stream : Nat)
  | interTokenDeadline (slot : Nat)
  | serveWindowEnd (contract : Nat)
  | stretchTimeExpire (contract : Nat)
  | contractKeyGraceEnd (contract : Nat)
  | recordResendCheck (contract : Nat) (seq : Nat)
  | tallyRecordFrame (frame : List Byte)
  | tallyEnrolment (frame : List Byte)
  | tallyReadout (kind : Nat) (arg : Nat) (nonce : List Byte)
  | tallySample (mV : Nat) (mA : Nat) (mReturn : Nat)
  | energyPulseEnd
  | tallyCommit
  | tallyTempRead (temp : Int)
  | tallyPowerUp (checks : TallyChecks)
  | tallyInputLost
  | tallyMeshBreach
  | coldStart (lidBroken : Bool)
  | housekeepingRoundEnd (r : Round)
  | fastLimiterSample (current : Nat) (power : Nat) (core : Nat)
  | inputOutOfRange
  | thermalTrip (sensor : Nat)
  | standbyPowerLost
  | seatAssert
  | seatRelease
  | lidTamper
  | gessoRailsOff
  | railOutOfRange (rail : Nat)
  | clockGlitch
  | alarmInAssert
  | alarmSourceClear (source : Nat)
  | rcWatchdogExpire
  | rcBootComplete
  | fwCommitWindowExpire
  | functionReset (fn : Nat) (cause : Nat)
  | pcieLinkTrained (fn : Nat) (width : Nat) (rate : Nat)
  | pcieTrainingTimeout (fn : Nat)
  | unsupportedRequestTlp (fn : Nat)
  | ethFrameReceive (port : Nat) (f : EthFrame)
  | ethPcsChange (port : Nat) (aligned : Bool)
  | remoteHello (g : Dgram)
  | remoteOpen (g : Dgram)
  | remoteCommand (g : Dgram)
  | remoteEventAck (g : Dgram)
  | remoteClose (g : Dgram)
  | remoteEventResend (pair : Nat) (seq : Nat)
  | remoteSessionIdle (pair : Nat)
  | remoteGapExpire (pair : Nat) (seq : Nat)
  | challengeExpire (pair : Nat)
  | patrolRead (stack : Nat) (chan : Nat) (flips : List Flip)
  | darnCopyComplete (stack : Nat) (chan : Nat)
  | stackInitComplete (stack : Nat) (failed : List (Nat × Nat))
  | smbusWrite (data : List Byte)
  | smbusRead (count : Nat)
  | perstDeassertion (fn : Nat)
  | k8OpticsFault (port : Nat)
  | canvasInitComplete (canvas : Nat) (selfTest : Bool)
  | periodicSnapshot
  | bootRomImageStart
  deriving DecidableEq, Repr

end Sys2Proof
end

