-- ==== Sys2Proof/Config.lean ====
section
/-! DEFINITION. What an implementation fixes (fused values, cited cryptography) and the free values:
opaque constants, so that no proof can rest on a value of theirs. -/

namespace Sys2Proof.Config

/-- Free value: the n-th value the spec leaves open (log 2); the step applies it to a counter. -/
opaque freeValue : Nat → Nat
/-- RC random source (R410, R519): the n-th 256-bit draw (log 2). -/
opaque random : Nat → BitVec 256

/-- Module serial, fused at manufacture (Table 17-1). -/
opaque serial : BitVec 64
/-- Running RC firmware version of the factory image (Table 17-1, FW_VERSION). -/
opaque factoryVersion : BitVec 32
/-- FW_DIGEST and SECURITY_VERSION of the factory image (R593, R596). -/
opaque factoryDigest : List Byte
opaque factorySecurity : BitVec 8
/-- Fused unicast MAC addresses of E0 (0) and E1 (1) (Table 18-5). -/
opaque macAddress : Nat → BitVec 48
/-- Root digest fused in the Easel and held by the Tally (R593, R618): 64 bytes. -/
opaque rootDigest : List Byte
/-- Laranarel's root public key, whose SHA3-512 digest is `rootDigest` (R598, R618). -/
opaque rootKey : List Byte
/-- The identity-key and record-signing-key certificates, KEY_KIND 0 and 1 (R598): 7,235 bytes each. -/
opaque certificate : Nat → List Byte
/-- The Tally's metrology-key certificate (R630). -/
opaque tallyCertificate : List Byte
/-- TALLY_SERIAL, SEAL_NUMBER and FW_CHECKSUM of the fitted Tally (R626, R629). -/
opaque tallySerial : BitVec 64
opaque tallySealNumber : BitVec 32
opaque tallyFwChecksum : List Byte

/-- Launch power P0 of the laser of a fibre pair and grid slot, in units of 0.01 dBm, recorded at manufacture (R347). -/
opaque laserP0 : Nat → Nat → Int

/-- ML-DSA-87 (FIPS 204): key, message, signature. The standard is cited and not restated (log 3). -/
opaque mldsaVerify : List Byte → List Byte → List Byte → Bool
/-- ML-DSA-87 signature by the key of that number (0 identity, 1 record-signing, 2 metrology). -/
opaque mldsaSign : Nat → List Byte → List Byte

/-- Which of the values within the accuracy of Table 6-10 an element operation gives at an operand (log 6). -/
opaque accuracyChoice : Nat → BitVec 32 → Nat
/-- The sampler's p_i = 2^((l_i - l_max) * log2 e / T) in binary32 (R490; log 6). -/
opaque samplerProb : BitVec 32 → BitVec 32 → BitVec 32 → BitVec 32

end Sys2Proof.Config
end

