-- ==== Sys2Proof/Machine/Bits.lean ====
section
/-! DEFINITION. Bit fields, byte order and the operations on keyed tables. -/

namespace Sys2Proof.Machine

/-- Bits [hi:lo] of a number (R12). -/
def bits (x hi lo : Nat) : Nat := (x >>> lo) % 2 ^ (hi + 1 - lo)

def bit (x i : Nat) : Bool := x.testBit i

/-- A Bool as 0 or 1. -/
def b2n (b : Bool) : Nat := if b then 1 else 0

/-- The n bytes of a value, little-endian (R13). -/
def leBytes : Nat → Nat → List Byte
  | 0, _ => []
  | n + 1, x => BitVec.ofNat 8 x :: leBytes n (x / 256)

/-- The value of bytes, little-endian (R13). -/
def ofLE : List Byte → Nat
  | [] => 0
  | b :: t => b.toNat + 256 * ofLE t

/-- The n bytes from offset o; missing bytes read as 0. -/
def bytesAt (l : List Byte) (o n : Nat) : List Byte :=
  let d := (l.drop o).take n
  d ++ List.replicate (n - d.length) 0

/-- The little-endian field of n bytes at offset o. -/
def fieldAt (l : List Byte) (o n : Nat) : Nat := ofLE (bytesAt l o n)

/-- x in two's complement of w bits. -/
def twos (w : Nat) (x : Int) : Nat := (x % (2 ^ w : Int)).toNat

/-- The signed value of a w-bit number. -/
def signed (w x : Nat) : Int := if x < 2 ^ (w - 1) then x else (x : Int) - 2 ^ w

def ceilDiv (a b : Nat) : Nat := (a + b - 1) / b

def roundUp (a b : Nat) : Nat := ceilDiv a b * b

/-- Number of bits of n: 0 for 0. -/
def bitLen (n : Nat) : Nat := if n = 0 then 0 else Nat.log2 n + 1

def popCount (n w : Nat) : Nat := ((List.range w).filter (fun i => n.testBit i)).length

/-- The numbers below w whose bit is set in n. -/
def bitList (n w : Nat) : List Nat := (List.range w).filter (fun i => n.testBit i)

def ofBitList (l : List Nat) : Nat := l.foldl (fun a i => a ||| 2 ^ i) 0

/-- Insert into a strictly rising list of numbers. -/
def insNat (k : Nat) : List Nat → List Nat
  | [] => [k]
  | j :: t => if k < j then k :: j :: t else if k = j then j :: t else j :: insNat k t

end Sys2Proof.Machine

namespace Sys2Proof.Tab

def get? {α : Type} (k : Nat) : Tab α → Option α
  | [] => none
  | (j, a) :: t => if k = j then some a else get? k t

def getD {α : Type} (t : Tab α) (k : Nat) (d : α) : α := (get? k t).getD d

def has {α : Type} (t : Tab α) (k : Nat) : Bool := (get? k t).isSome

def set {α : Type} (k : Nat) (v : α) : Tab α → Tab α
  | [] => [(k, v)]
  | (j, a) :: t => if k < j then (k, v) :: (j, a) :: t else if k = j then (k, v) :: t else (j, a) :: set k v t

def del {α : Type} (k : Nat) (t : Tab α) : Tab α := t.filter (fun p => p.1 != k)

/-- Apply f to the element of number k, whose value is d while absent. -/
def upd {α : Type} (k : Nat) (d : α) (f : α → α) (t : Tab α) : Tab α := set k (f (getD t k d)) t

/-- Apply f to every listed element. -/
def mapVals {α : Type} (f : Nat → α → α) (t : Tab α) : Tab α := t.map (fun p => (p.1, f p.1 p.2))

def keys {α : Type} (t : Tab α) : List Nat := t.map (·.1)

def vals {α : Type} (t : Tab α) : List α := t.map (·.2)

/-- The lowest number from lo to lo + n - 1 that is not listed. -/
def firstFree {α : Type} (t : Tab α) (lo n : Nat) : Option Nat :=
  ((List.range n).map (· + lo)).find? (fun k => !has t k)

end Sys2Proof.Tab

namespace Sys2Proof.Machine

/-- Replace element i of a list. -/
def setAt {α : Type} (l : List α) (i : Nat) (v : α) : List α := l.set i v

/-- Keep the last n elements. -/
def lastN {α : Type} (n : Nat) (l : List α) : List α := l.drop (l.length - n)

/-- One bit of a CRC-32C over the Castagnoli polynomial, reflected (log 26). -/
def crcBit (c : Nat) : Nat := if c % 2 = 1 then (c / 2) ^^^ 0x82F63B78 else c / 2

/-- CRC-32C (Table 0-3). -/
def crc32c (l : List Byte) : Nat :=
  (l.foldl (fun c b => crcBit (crcBit (crcBit (crcBit (crcBit (crcBit (crcBit (crcBit (c ^^^ b.toNat))))))))) 0xFFFFFFFF) ^^^ 0xFFFFFFFF

end Sys2Proof.Machine
end

