-- ==== Sys2Proof/Machine/SysState.lean ====
section
/-! DEFINITION. State of the resident controller, the mailboxes, the host and Ethernet ports, readiness,
power and security (chapters 17 to 21 and 23). Every field's default is its value at reset. -/

namespace Sys2Proof.Machine

/-- One readiness entry (Table 17-2, R563): the state and reason its function has, the REASON of the
alarm that seals it (0 none), CHANGE_COUNT, and what waits for the end of a restart (R573). -/
structure Entry where
  st : Nat := 0
  reason : Nat := 0
  sealed : Nat := 0
  count : Nat := 0
  restarting : Bool := false
  deferred : Option (Nat × Nat) := none
  deriving DecidableEq, Repr

/-- One PCIe function: Table 17-1's registers, MSI-X (R549), the link (R545) and the counts of R560. -/
structure Fn where
  perst : Bool := true
  linkUp : Bool := false
  width : Nat := 0
  rate : Nat := 0
  trainStart : Nat := 0
  intStatus : Nat := 0
  intCount : Nat := 0
  intMask : Nat := 7
  dmaStatus : Nat := 0
  dmaCount : Nat := 0
  dmaMask : Nat := 0xFFFF
  mbxStatus : Tab Nat := []
  mbxCount : Tab Nat := []
  mbxMask : Tab Nat := []
  tickHi : Nat := 0
  tickLoData : Nat := 0
  vecMask : Nat := 2 ^ 33 - 1
  fnMask : Bool := false
  vecPending : Nat := 0
  sent : Tab Nat := []
  mps : Nat := 128
  mrrs : Nat := 512
  correctable : Nat := 0
  replays : Nat := 0
  urSent : Nat := 0
  cplTimeouts : Nat := 0
  poisonedCpl : Nat := 0
  linkDowns : Nat := 0
  resets : Nat := 0
  deriving DecidableEq, Repr

/-- The states of a mailbox pair (R509). -/
inductive PairState where
  | unbound
  | bound
  | negotiated
  | opened
  deriving DecidableEq, Repr

/-- A session (R519): its credential, role and jobs, and the reports and readings kept for it
(R599, R630). -/
structure Session where
  id : Nat
  cred : Nat
  role : Nat
  jobs : List Nat
  reports : List (Nat × List Byte) := []
  readings : List (Nat × List Byte) := []
  deriving DecidableEq, Repr

/-- A response (`event` false) or event message (Table 17-7); `body` is its results or payload. -/
structure Msg where
  event : Bool
  code : Nat
  seq : Nat
  corr : Nat
  status : Nat
  detail : Nat
  tick : Nat
  body : List Byte
  phase : Nat := 0
  deriving DecidableEq, Repr

/-- The remote side of a pair of 224-255 (R537 to R541): `early` holds the CMD_SEQ of a command ahead of a gap and the
tick it is dropped at. -/
structure Remote where
  port : Nat
  addr : Nat
  udp : Nat
  key : List Byte
  rxHigh : Nat := 0
  rxSeen : List Nat := []
  txSeq : Nat := 0
  early : List (Nat × Nat) := []
  ready : List Nat := []
  sent : List (Nat × Msg) := []
  unacked : List (Nat × Nat × Msg) := []
  lastRx : Nat := 0
  deriving DecidableEq, Repr

/-- A mailbox pair: rings, indices, session and what has been written to its rings (R509 to R517, R527,
R536). `rspMsgs` and `evtMsgs` hold the messages by the ring unit of their header; `readings` are those taken after gesso,
with no session (R630). -/
structure Pair where
  st : PairState := .unbound
  fn : Nat := 0
  cmdRing : Nat := 0
  rspRing : Nat := 0
  evtRing : Nat := 0
  indexAddr : Nat := 0
  cmdN : Nat := 64
  rspN : Nat := 64
  evtN : Nat := 64
  cmdPi : Nat := 0
  cmdCi : Nat := 0
  rspPi : Nat := 0
  rspCi : Nat := 0
  evtPi : Nat := 0
  evtCi : Nat := 0
  expSeq : Nat := 0
  challenge : Option (Nat × Nat) := none
  session : Option Session := none
  ended : Bool := false
  started : Nat := 0
  rspMsgs : Tab Msg := []
  evtMsgs : Tab Msg := []
  held : List Msg := []
  evtSeq : Nat := 0
  lost : Nat := 0
  lostFirst : Nat := 0
  setupResult : Nat := 0
  badIndex : Nat := 0
  remote : Option Remote := none
  readings : List (Nat × List Byte) := []
  deriving DecidableEq, Repr

/-- A credential (Table 17-9). -/
structure Cred where
  role : Nat
  key : List Byte
  jobs : List Nat
  access : Nat
  deriving DecidableEq, Repr

/-- What a started command waits for before its response is written. -/
inductive WaitFor where
  | job (job : Nat) (destroy : Bool)
  | entry (index : Nat)
  | rails
  | swatch (port : Nat)
  | darn (stack chan : Nat)
  | steer (id : Nat)
  | slotRetire (fibre dir slot : Nat)
  | pool
  | paletteQueue (stack queue : Nat)
  | region (region : Nat)
  | regionMake (a : RegionArgs)
  | channel (chan : Nat)
  | rebind (chan fn : Nat) (ring : RingLoc)
  | guestRevoke (region : Nat)
  | coll (id : Nat)
  | collJob (job : Nat)
  | fill (job : Nat)
  | contract (id : Nat)
  | unload
  | stage (tag : Nat)
  | plan
  | tile (tile : Nat)
  deriving DecidableEq, Repr

/-- A command that executes: its pair (none once the response is to be discarded) and what it waits for. -/
structure Wait where
  pair : Option Nat
  op : Nat
  seq : Nat
  corr : Nat
  what : WaitFor
  deriving DecidableEq, Repr

/-- One event of the event log (R535). -/
structure LogEvent where
  seq : Nat
  code : Nat
  tick : Nat
  body : List Byte
  deriving DecidableEq, Repr

/-- A firmware bank (R542): state 0 EMPTY, 1 VALID, 2 TRIAL, 3 ACTIVE; the factory image has no bytes in
the model. -/
structure Bank where
  st : Nat := 0
  factory : Bool := false
  image : List Byte := []
  deriving DecidableEq, Repr

/-- An Ethernet port (R555 to R560); `rxQ` holds the lengths of the received UDP frames that the RC has not taken in. -/
structure EthPort where
  cfg : EthCfg := ⟨1, 0, 24, 0, 0, 0⟩
  aligned : Bool := false
  fault : Bool := false
  rxQ : List Nat := []
  framesRx : Nat := 0
  framesTx : Nat := 0
  fcsErr : Nat := 0
  fecCorrected : Nat := 0
  fecUncorrectable : Nat := 0
  rxOverflow : Nat := 0
  discarded : Nat := 0
  arpReplies : Nat := 0
  echoReplies : Nat := 0
  echoWindow : Nat := 0
  echoInWindow : Nat := 0
  helloWindow : Nat := 0
  helloInWindow : Nat := 0
  out : List (Nat × Nat × List Byte) := []
  deriving DecidableEq, Repr

/-- A job of the module (R533, R430, R462): its tiles, teardown and the expulsion budget. -/
structure Job where
  tiles : List Nat
  ending : Bool := false
  budget : Nat := 1
  available : Nat := 1
  refill : Nat := 86400000000000
  refillDue : Nat := 0
  timeout : Nat := 20000
  expelled : List Nat := []
  deriving DecidableEq, Repr

/-- An alarm record (Table 21-5). -/
structure AlarmRec where
  seq : Nat
  source : Nat
  level : Nat
  detail : Nat
  tick : Nat
  epoch : Nat
  deriving DecidableEq, Repr

/-- The alarm element (R601 to R609): the standing sources with their levels, and whether A2 has locked the module and
no SEC_UNLOCK has cleared it. -/
structure Alarms where
  standing : Tab Nat := []
  a2 : Bool := false
  log : List AlarmRec := []
  seq : Nat := 0
  lastA1 : Option Nat := none
  sigFails : List Nat := []
  inLevel : Nat := 2
  sigLimit : Nat := 8
  gesso : Bool := false
  gessoDue : Option Nat := none
  lostRecords : Nat := 0
  deriving DecidableEq, Repr

/-- The resident controller: `run` 0 off, 1 boot ROM, 2 firmware starting, 3 running, 4 no bank boots,
5 the return state of R608. `started` says that an image has been started since standby power was applied. -/
structure Rc where
  run : Nat := 0
  startTick : Nat := 0
  started : Bool := false
  epoch : Nat := 0
  banks : List Bank := [⟨3, true, []⟩, {}]
  bootBank : Nat := 0
  runBank : Nat := 0
  fwVersion : Nat := 0
  fwDigest : List Byte := []
  rollback : Nat := 0
  commitWindow : Nat := 600
  commitDue : Option Nat := none
  heldSetups : List (Nat × Nat × Nat × SetupBlock) := []
  creds : Tab Cred := []
  credFails : Tab (Nat × Nat) := []
  nextSession : Nat := 1
  nextReport : Nat := 1
  nextReading : Nat := 1
  waits : List Wait := []
  log : List LogEvent := []
  logSeq : Nat := 0
  enE0 : Bool := true
  enE1 : Bool := true
  mgmtPort : Nat := 47111
  challenges : List (Nat × Nat × Nat × Nat × Nat) := []
  authFail : Nat := 0
  replayed : Nat := 0
  freeCtr : Nat := 0
  deriving DecidableEq, Repr

/-- Rails, housekeeping and the current-limit controller (chapter 20). `rails` bits 0-5: intermediate bus,
core, Easel, PHY, memory, optics (Table 20-7); `railsDue` says that step 4 of Table 19-3 waits for the firmware or SEAT_N. -/
structure Power where
  standby : Bool := false
  tickOn : Bool := false
  tick : Nat := 0
  inputOk : Bool := false
  rails : Nat := 0
  vcoreSet : Nat := 750
  vcoreNow : Nat := 0
  cap : Nat := 0
  step : Nat := 0
  quiet : Nat := 0
  downCause : Nat := 0
  roundSeq : Nat := 0
  roundStart : Nat := 0
  roundEnd : Nat := 0
  pIn : Nat := 0
  readings : Tab Int := []
  excess : Nat := 0
  clear : Nat := 0
  coolantLow : Bool := false
  tripped : List Nat := []
  inputFault : Bool := false
  seat : Bool := false
  foldback : Bool := false
  foldbackTicks : Nat := 0
  stepDowns : Nat := 0
  stepUps : Nat := 0
  clockLost : Bool := false
  railLost : List Nat := []
  alarmIn : Bool := false
  railsDue : Bool := false
  smbusOffset : Nat := 0
  smbusData : List Byte := []
  deriving DecidableEq, Repr

end Sys2Proof.Machine
end

