-- ==== Sys2Proof/Machine/Flags.lean ====
section
/-! DEFINITION. The interrupt status registers of a PCIe function: sets, clears, masks and the messages they
send (R65 to R69, R508, R549, Tables 17-5 and 18-3). -/

namespace Sys2Proof.Machine

/-- Add 1 to an 8-bit EVENT_COUNT (R16, R65). -/
def inc8 (n : Nat) : Nat := (n + 1) % 256

/-- A message on a vector: sent, or pending while the vector or the function is masked (R549). -/
def Fn.message (v : Nat) (f : Fn) : Fn :=
  if f.fnMask || bit f.vecMask v then { f with vecPending := f.vecPending ||| 2 ^ v }
  else { f with sent := Tab.upd v 0 (· + 1) f.sent }

/-- Messages of the pending vectors that are no longer masked (R549). -/
def Fn.flush (f : Fn) : Fn :=
  if f.fnMask then f
  else (bitList f.vecPending 33).foldl (fun f v =>
    if bit f.vecMask v then f
    else { f with vecPending := f.vecPending - 2 ^ v, sent := Tab.upd v 0 (· + 1) f.sent }) f

def Fn.mbxMaskOf (f : Fn) (k : Nat) : Nat := f.mbxMask.getD k 0xFFFF

/-- A hardware set of INT_STATUS bit b: 0 READINESS, 1 RC_RESTARTED, 2 ALARM. It counts even where the bit
is already 1 (R65). -/
def Fn.setInt (b : Nat) (f : Fn) : Fn :=
  let f := { f with intStatus := f.intStatus ||| 2 ^ b, intCount := inc8 f.intCount }
  if bit f.intMask b then f else f.message 0

/-- A hardware set of DMA_GROUP_STATUS bit g. -/
def Fn.setDma (g : Nat) (f : Fn) : Fn :=
  let f := { f with dmaStatus := f.dmaStatus ||| 2 ^ g, dmaCount := inc8 f.dmaCount }
  if bit f.dmaMask g then f else f.message (1 + g)

/-- A hardware set of the MBX_STATUS bit of pair n. -/
def Fn.setMbx (n : Nat) (f : Fn) : Fn :=
  let k := n / 16
  let f := { f with
    mbxStatus := Tab.upd k 0 (· ||| 2 ^ (n % 16)) f.mbxStatus, mbxCount := Tab.upd k 0 inc8 f.mbxCount }
  if bit (f.mbxMaskOf k) (n % 16) then f else f.message (17 + k)

/-- Clear the bits of v in x. -/
def clearBits (x v : Nat) : Nat := x - (x &&& v)

/-- The messages sent after a W1C write to DMA_GROUP_STATUS: one on the vector of each unmasked bit that
remains 1 (R69, Table 18-3). -/
def Fn.resendDma (f : Fn) : Fn :=
  (List.range 16).foldl (fun f g => if bit f.dmaStatus g && !bit f.dmaMask g then f.message (1 + g) else f) f

/-- A W1C write to INT_STATUS (R67, R69). -/
def Fn.w1cInt (v : Nat) (f : Fn) : Fn :=
  let f := { f with intStatus := clearBits f.intStatus (v % 8) }
  if clearBits f.intStatus f.intMask != 0 then f.message 0 else f

def Fn.w1cDma (v : Nat) (f : Fn) : Fn :=
  { f with dmaStatus := clearBits f.dmaStatus (v % 65536) }.resendDma

def Fn.w1cMbx (k v : Nat) (f : Fn) : Fn :=
  let f := { f with mbxStatus := Tab.upd k 0 (clearBits · (v % 65536)) f.mbxStatus }
  if clearBits (f.mbxStatus.getD k 0) (f.mbxMaskOf k) != 0 then f.message (17 + k) else f

end Sys2Proof.Machine
end

