-- ==== Sys2Proof/Machine/Keccak.lean ====
section
/-! DEFINITION. SHA3-512 (FIPS 202) and KMAC256 (SP 800-185), which the rules name by standard. -/

namespace Sys2Proof.Machine

def m64 : Nat := 2 ^ 64

def rotl64 (x r : Nat) : Nat := ((x <<< (r % 64)) ||| (x >>> (64 - r % 64))) % m64

/-- Lane (x, y) of a state of 25 lanes, lane x + 5y. -/
def lane (a : List Nat) (x y : Nat) : Nat := a.getD (x % 5 + 5 * (y % 5)) 0

def ofLanes (f : Nat → Nat → Nat) : List Nat := (List.range 25).map fun i => f (i % 5) (i / 5)

def keccakTheta (a : List Nat) : List Nat :=
  let c (x : Nat) := lane a x 0 ^^^ lane a x 1 ^^^ lane a x 2 ^^^ lane a x 3 ^^^ lane a x 4
  let d := (List.range 5).map fun x => c ((x + 4) % 5) ^^^ rotl64 (c ((x + 1) % 5)) 1
  ofLanes fun x y => lane a x y ^^^ d.getD x 0

/-- The lanes that rho visits after lane (1, 0), each by pi from the one before (FIPS 202, algorithm 2). -/
def rhoWalk : Nat → Nat → Nat → List Nat
  | 0, _, _ => []
  | k + 1, x, y => (x + 5 * y) :: rhoWalk k y ((2 * x + 3 * y) % 5)

/-- The rotation that rho gives lane x + 5y: the triangular number of its place in the walk; lane (0, 0) is not turned. -/
def rhoTurn (i : Nat) : Nat :=
  match (rhoWalk 24 1 0).idxOf? i with
  | some k => (k + 1) * (k + 2) / 2 % 64
  | none => 0

def keccakRhoPi (a : List Nat) : List Nat :=
  ofLanes fun x y =>
    -- pi sends lane (x', y') to (y', 2x' + 3y'); lane (x, y) comes from y' = x and x' = x + 3y
    let sx := (x + 3 * y) % 5
    rotl64 (lane a sx x) (rhoTurn (sx + 5 * x))

def keccakChi (a : List Nat) : List Nat :=
  ofLanes fun x y => lane a x y ^^^ ((lane a (x + 1) y ^^^ (m64 - 1)) &&& lane a (x + 2) y)

/-- The bits of the round constants: the low bits of a register of 8 bits that shifts left and folds the bit it pushes out back by
x^8 + x^6 + x^5 + x^4 + 1 (FIPS 202, algorithm 5). -/
def rcBits : Nat → Nat → List Nat
  | 0, _ => []
  | k + 1, r => r % 2 :: rcBits k (if 128 ≤ r then (2 * r) ^^^ 0x171 else 2 * r)

/-- The constant of each of the 24 rounds: seven bits, bit j at place 2^j - 1. -/
def rcOf : Nat → List Nat → List Nat
  | 0, _ => []
  | k + 1, l => ((l.take 7).zipIdx.map fun x => x.1 * 2 ^ (2 ^ x.2 - 1)).sum :: rcOf k (l.drop 7)

def keccakRc : List Nat := rcOf 24 (rcBits 168 1)

def keccakRound (a : List Nat) (rc : Nat) : List Nat :=
  match keccakChi (keccakRhoPi (keccakTheta a)) with
  | h :: t => (h ^^^ rc) :: t
  | [] => []

def keccakF (a : List Nat) : List Nat := keccakRc.foldl keccakRound a

def absorbBlock (a : List Nat) (blk : List Byte) : List Nat :=
  keccakF ((List.range 25).map fun i => a.getD i 0 ^^^ fieldAt blk (8 * i) 8)

/-- Cut into blocks of r bytes; the last may be short or empty. -/
def blocksOf : Nat → Nat → List Byte → List (List Byte)
  | 0, _, _ => []
  | f + 1, r, l => if l.length < r then [l] else l.take r :: blocksOf f r (l.drop r)

/-- Padding with the domain byte and the final bit. -/
def padBlock (r dom : Nat) (l : List Byte) : List Byte :=
  let z := l ++ [BitVec.ofNat 8 dom] ++ List.replicate (r - 1 - l.length) 0
  z.set (r - 1) (z.getD (r - 1) 0 ||| 0x80)

def sponge (r dom : Nat) (l : List Byte) : List Nat :=
  let bs := blocksOf (l.length / r + 1) r l
  (bs.zipIdx).foldl (fun a p => absorbBlock a (if p.2 + 1 = bs.length then padBlock r dom p.1 else p.1))
    (List.replicate 25 0)

/-- SHA3-512: 64 bytes (FIPS 202). -/
def sha3 (l : List Byte) : List Byte := ((sponge 72 0x06 l).take 8).flatMap (leBytes 8)

/-- Minimal big-endian bytes of n, at least one. -/
def beMin : Nat → Nat → List Byte
  | 0, n => [BitVec.ofNat 8 n]
  | f + 1, n => if n < 256 then [BitVec.ofNat 8 n] else beMin f (n / 256) ++ [BitVec.ofNat 8 n]

def leftEncode (n : Nat) : List Byte := let b := beMin 8 n; BitVec.ofNat 8 b.length :: b
def rightEncode (n : Nat) : List Byte := let b := beMin 8 n; b ++ [BitVec.ofNat 8 b.length]
def encodeString (l : List Byte) : List Byte := leftEncode (8 * l.length) ++ l

def bytepad (w : Nat) (l : List Byte) : List Byte :=
  let x := leftEncode w ++ l
  x ++ List.replicate (roundUp x.length w - x.length) 0

def asciiBytes (s : String) : List Byte := s.toList.map fun c => BitVec.ofNat 8 c.toNat

/-- KMAC256(K, X, L, S) with L in bits, at most 1,088 (SP 800-185). -/
def kmac256 (k x : List Byte) (bitsOut : Nat) (s : String) : List Byte :=
  let pre := bytepad 136 (encodeString (asciiBytes "KMAC") ++ encodeString (asciiBytes s))
  let a := sponge 136 0x04 (pre ++ bytepad 136 (encodeString k) ++ x ++ rightEncode bitsOut)
  ((a.take 17).flatMap (leBytes 8)).take (bitsOut / 8)

end Sys2Proof.Machine
end

