-- ==== Sys2Proof/Machine/Operands.lean ====
section
/-! DEFINITION. The byte layout of mailbox arguments, results and events (R513, R514, Tables 17-7 and 17-8). -/

namespace Sys2Proof.Machine

/-- One item: a number of 1, 2, 4 or 8 bytes, bytes with their own alignment, or a list:
a 2-byte count, then its entries, each aligned to 8 (R514 item 7); `inl` is a list within another item. -/
inductive Item where
  | n (size v : Nat)
  | raw (align : Nat) (l : List Byte)
  | list (entries : List (List Byte))
  | inl (entries : List (List Byte))
  deriving DecidableEq, Repr

def zeros (n : Nat) : List Byte := List.replicate n 0

/-- Zero bytes up to the next multiple of a. -/
def padTo (a : Nat) (l : List Byte) : List Byte := l ++ List.replicate (roundUp l.length a - l.length) 0

/-- A list with its 2-byte count (R514 item 7). -/
def listBlock (es : List (List Byte)) (b : List Byte) : List Byte :=
  es.foldl (fun b e => padTo 8 b ++ e) (padTo 2 b ++ leBytes 2 es.length)

/-- A KIND 0 reference (Table 17-8). -/
def refBytes (addr len : Nat) : List Byte := leBytes 8 0 ++ leBytes 8 addr ++ leBytes 8 len

/-- Items laid out in order, each at the next multiple of its size (R514 items 1 and 2), from byte `base` of the
message. A list of more than 4 entries and an item of more than 256 bytes are a reference to a block behind the
items (item 7). -/
def encodeAt (base : Nat) (l : List Item) : List Byte :=
  let st := l.foldl (fun (st : List Byte × List (Nat × List Byte)) i =>
    let far := fun (blk : List Byte) =>
      let b := padTo 8 st.1
      (b ++ zeros 24, st.2 ++ [(b.length, blk)])
    match i with
    | .n s v => (padTo s st.1 ++ leBytes s v, st.2)
    | .raw a d => if 256 < d.length then far d else (padTo a st.1 ++ d, st.2)
    | .list es => if 4 < es.length then far (listBlock es []) else (listBlock es st.1, st.2)
    | .inl es => (listBlock es st.1, st.2)) ([], [])
  st.2.foldl (fun b (r : Nat × List Byte) =>
    let b := padTo 8 b
    b.take r.1 ++ refBytes (base + b.length) r.2.length ++ b.drop (r.1 + 24) ++ r.2) st.1

/-- Results, which begin at byte 32. -/
def encode (l : List Item) : List Byte := encodeAt 32 l

/-- The payload of an event, which begins at byte 16. -/
def encodeEv (l : List Item) : List Byte := encodeAt 16 l

/-- A bitmap of n bits (R514 item 5). -/
def bitmap (n : Nat) (l : List Nat) : Item :=
  .raw 8 (leBytes (ceilDiv n 8) (ofBitList (l.filter (· < n))))

/-- An argument of a command: its size and alignment, and the status its value earns (0 none). -/
structure Arg where
  size : Nat
  align : Nat
  bad : Nat := 0
  deriving DecidableEq, Repr

def sFieldRange : Nat := 0x0102
def sRefInvalid : Nat := 0x0105

/-- A number of s bytes. -/
def Arg.num (s : Nat) (ok : Bool) : Arg := ⟨s, s, if ok then 0 else sFieldRange⟩

/-- Bytes of a fixed length, aligned to 8: keys, digests, bitmaps. -/
def Arg.blk (s : Nat) (ok : Bool) : Arg := ⟨s, 8, if ok then 0 else sFieldRange⟩

/-- A reference (Table 17-8); `ok` says its block could be read. -/
def Arg.ref (ok : Bool) : Arg := ⟨24, 8, if ok then 0 else sRefInvalid⟩

/-- Offsets of the arguments from byte 16. -/
def argOffsets (l : List Arg) : List (Nat × Arg) :=
  (l.foldl (fun (st : Nat × List (Nat × Arg)) a =>
    let o := roundUp st.1 a.align
    (o + a.size, st.2 ++ [(o, a)])) (16, [])).2

/-- Bytes of the message up to the end of its arguments. -/
def argEnd (l : List Arg) : Nat :=
  match (argOffsets l).getLast? with
  | some (o, a) => o + a.size
  | none => 16

/-- The first offending item (R523 item 7): status and DETAIL. A RSVD byte that is not 0 counts at its own
offset. -/
def argFail (l : List Arg) (rsvd : Option Nat) : Option (Nat × Nat) :=
  let bad := (argOffsets l).find? (fun p => p.2.bad != 0)
  match bad, rsvd with
  | none, none => none
  | none, some r => some (0x0103, r)
  | some (o, a), none => some (a.bad, o)
  | some (o, a), some r => if r < o then some (0x0103, r) else some (a.bad, o)

/-- Units of a message of n bytes. -/
def unitsOf (n : Nat) : Nat := max 1 (ceilDiv n 64)

/-- Units of a response or event. -/
def Msg.units (m : Msg) : Nat := unitsOf ((if m.event then 16 else 32) + m.body.length)

/-- The bytes of a message (Table 17-7). -/
def Msg.bytes (m : Msg) : List Byte :=
  padTo 64 (leBytes 2 m.code ++ leBytes 1 (m.units - 1) ++ leBytes 1 m.phase ++ leBytes 4 m.seq
    ++ (if m.event then leBytes 8 m.tick
        else leBytes 8 m.corr ++ leBytes 2 m.status ++ leBytes 2 m.detail ++ leBytes 4 0 ++ leBytes 8 m.tick)
    ++ m.body)

/-- A remote datagram (Table 17-18, R537), its TAG under the session key where it carries one. -/
def dgramBytes (type session seq ack : Nat) (units : List Byte) (key : Option (List Byte)) : List Byte :=
  let b := leBytes 1 0x10 ++ leBytes 1 type ++ leBytes 2 0 ++ leBytes 4 session ++ leBytes 4 seq ++ leBytes 4 ack
    ++ leBytes 2 (units.length / 64) ++ zeros 6 ++ units
  match key with
  | some k => b ++ kmac256 k b 128 "OLR"
  | none => b

end Sys2Proof.Machine
end

