-- ==== Sys2Proof/Machine/CollState.lean ====
section
/-! DEFINITION. State of the collective engine, the pipeline channels and the spare fill (chapter 15). Every
field's default is its value at reset or at creation. -/

namespace Sys2Proof.Machine

/-- The states of a collective (Table 15-3), and FAILED of R454. -/
inductive CollSt where
  | idle
  | running
  | voting
  | aborted
  | failed
  deriving DecidableEq, Repr

def CollSt.code : CollSt → Nat
  | .idle => 0
  | .running => 1
  | .voting => 2
  | .aborted => 3
  | .failed => 4

/-- The eight counters of R467. -/
structure CollCnt where
  timeouts : Nat := 0
  late : Nat := 0
  duplicates : Nat := 0
  carried : Nat := 0
  dropped : Nat := 0
  badStart : Nat := 0
  frogs : Nat := 0
  commits : Nat := 0
  deriving DecidableEq, Repr

/-- A masked dimension of a collective as the routing table gave it: dimension, length, this member's coordinate,
whether it is a ring (R432, R433). -/
structure CDim where
  dim : Nat
  len : Nat
  me : Nat
  ring : Bool
  deriving DecidableEq, Repr

/-- A collective (R432 to R467). `dims`, `members` (module of each member index) and `self` (its own index) are read
from the routing table at a start or a resume (R434). `step` counts the steps of the generation and `begun` says that
the present one has begun; `parts` are the packets of contributions not complete, `done` the contributions received, in
order of arrival, as (step, member), and `released` those a policy let go (R288). `early` are the packets of the next
generation, `outq` the packets that wait for a tag. `votes` are the members whose votes it holds, `votedAt` when it last
sent a VOTE, `owed` the generation, attempt and bitmap of those that are due, oldest first. `hold` is the end of the wait at a phase boundary (R439). `frogged` and `cause`
(CAUSE, ORIGIN) belong to the present attempt, `forwarded` to the committed generation. `committing` says that the
generation is committed and its commit still at work (R445), `copyDue` that the shadow is still to be copied (R444), and
`lastAttempt` is the attempt of the last committed generation. `lastIn` are the last 64 members to complete
a barrier (R461). -/
structure Coll where
  a : CollArgs
  session : Nat
  start : Nat
  dims : List CDim := []
  members : List Nat := []
  self : Nat := 0
  st : CollSt := .idle
  gen : Nat
  attempt : Nat := 0
  step : Nat := 0
  begun : Bool := false
  parts : List Pkt := []
  done : List (Nat × Nat) := []
  released : List (Nat × Nat) := []
  stepDue : Option Nat := none
  expired : List Nat := []
  early : List Pkt := []
  outq : List Pkt := []
  votes : List Nat := []
  votedAt : Option Nat := none
  owed : List (Nat × Nat × List Nat) := []
  hold : Option Nat := none
  frogged : Bool := false
  cause : Nat × Nat := (0, 0)
  grace : Option Nat := none
  forwarded : Bool := false
  policy : Nat
  policyNext : Nat
  stepTimeout : Nat
  timeoutNext : Nat
  share : Nat := 24
  shareNext : Nat := 24
  lastIn : List Nat := []
  suspects : List Nat := []
  suspectAge : Nat := 64
  committing : Bool := false
  copyDue : Bool := false
  lastAttempt : Nat := 0
  onCommit : List OnCommit := []
  commitDue : Nat := 0
  genLate : Nat := 0
  genCarried : Nat := 0
  carryIn : Bool := false
  genDropped : Nat := 0
  records : Nat := 0
  cnt : CollCnt := {}
  deriving DecidableEq, Repr

/-- A pipeline channel (R457 to R460), micro-batches as (generation, number). At a sender `busy` are those whose slot the
receiver has not freed, `waiting` the sends that wait for their slot, `sending` those under way and `sent` those
complete. At a receiver `parts` are the packets of micro-batches not complete and `full` those received and not
released. `stopped` says that the generation was rolled back and not resumed. -/
structure Pipe where
  a : PipeArgs
  session : Nat
  start : Nat
  release : Nat
  gen : Nat
  attempt : Nat := 0
  stopped : Bool := false
  busy : List (Nat × Nat) := []
  waiting : List (Nat × Nat) := []
  sending : List (Nat × Nat) := []
  sent : List (Nat × Nat) := []
  parts : List Pkt := []
  full : List (Nat × Nat) := []
  outq : List Pkt := []
  records : Nat := 0
  cnt : CollCnt := {}
  deriving DecidableEq, Repr

/-- A spare fill of a job (R463, R464): outcome 0 FILL_OK, 1 FILL_MISMATCH, 2 FILL_SOURCE_LOST, 0xFF none. `pos` is the
byte of the pair from which the next read starts, `reads` the reads of the pair not answered; `digest` says that the
digests are asked for. -/
structure Spare where
  source : Nat := 0
  pairs : List FillPair := []
  done : Nat := 0
  retried : Bool := false
  running : Bool := false
  pos : Nat := 0
  reads : Nat := 0
  digest : Bool := false
  outcome : Nat := 0xFF
  promotable : Bool := false
  promoted : Bool := false
  deriving DecidableEq, Repr

structure Colls where
  colls : Tab Coll := []
  pipes : Tab Pipe := []
  spares : Tab Spare := []
  deriving DecidableEq, Repr

end Sys2Proof.Machine
end

