-- ==== Sys2Proof/Machine/DmaState.lean ====
section
/-! DEFINITION. State of the DMA engine (chapter 11). Every field's default is its value at reset. -/

namespace Sys2Proof.Machine

/-- Where a burst in flight stands: its fabric read is out; its host read is out; its data waits for a tag; its write is
out. -/
inductive BurstAt where
  | reading
  | hostRead
  | ready (data : List Byte) (mask : Nat)
  | writing
  deriving DecidableEq, Repr

/-- A burst in flight: the byte of its descriptor at which it starts, its length, where it stands, the bus error it met (ERR_KIND,
fabric status, DIRECTION and address), and the tag that it holds (R322). One of no bytes is the read of R328 from the port written. -/
structure BurstRun where
  pos : Nat
  len : Nat
  at_ : BurstAt
  err : Option (Nat × Nat × Nat × Nat) := none
  tag : Option Nat := none
  deriving DecidableEq, Repr

/-- A descriptor that the channel has begun: ring index, its 64 bytes as fetched, the byte at which the next burst
starts, bytes of the leading bursts that completed, the completed bursts behind them (start, length), the bursts in
flight, whether poison was carried, the status that ends it early, the tick of its completion, whether its record has found the queue
full, whether the read of R328 is done, whether its BUS_ERROR record is written, and whether its slot is released. -/
structure DescRun where
  idx : Nat
  raw : List Byte
  next : Nat := 0
  doneTo : Nat := 0
  done : List (Nat × Nat) := []
  flying : List BurstRun := []
  carried : Bool := false
  final : Option Nat := none
  stamp : Option Nat := none
  stalled : Bool := false
  flushed : Bool := false
  recorded : Bool := false
  released : Bool := false
  deriving DecidableEq, Repr

/-- A descriptor fetched ahead (R325, R649): its fetch is out under a tag; it comes from a host with the command that begins it; it is
here; its fetch failed with an ERR_KIND and a fabric status. -/
inductive Fetched where
  | out (tag : Nat)
  | host
  | got (raw : List Byte)
  | bad (kind status : Nat)
  deriving DecidableEq, Repr

/-- The states of a channel (Table 11-5). -/
inductive ChanSt where
  | disabled
  | idle
  | running
  | halted
  | stopped
  deriving DecidableEq, Repr

def ChanSt.code : ChanSt → Nat
  | .disabled => 0
  | .idle => 1
  | .running => 2
  | .halted => 3
  | .stopped => 4

/-- One DMA channel: what its creation named, its window registers (Table 11-4), the descriptors begun and its counters (Table 11-8). Indices count without wrapping; a register shows them modulo 2^32.
`ahead` are the descriptors fetched from index `next` on; `failed` says a bus error stops the issue of bursts, `fetchFailed` that it is a
descriptor fetch; `closing` and `rebind`
what follows once the records are written; `dead` that the window answers nothing (R550). -/
structure DmaChan where
  job : Nat
  session : Nat
  queue : Nat
  ring : RingLoc
  share : Nat
  newShare : Nat
  fn : Nat
  ports : Nat
  st : ChanSt := .idle
  pi : Nat := 0
  ci : Nat := 0
  next : Nat := 0
  status : Nat := 0
  count : Nat := 0
  errAddr : Nat := 0
  errInfo : Nat := 0
  errDesc : Nat := 0
  ahead : List Fetched := []
  begun : List DescRun := []
  failed : Bool := false
  fetchFailed : Bool := false
  noRecords : Bool := false
  closing : Bool := false
  rebind : Option (Nat × RingLoc) := none
  dead : Bool := false
  lostRecs : Nat := 0
  gauge : Nat := 16
  nDone : Nat := 0
  bytesMoved : Nat := 0
  busErrors : Nat := 0
  poisonLines : Nat := 0
  badIndex : Nat := 0
  badControl : Nat := 0
  cqStalls : Nat := 0
  deriving DecidableEq, Repr

/-- A completion queue (R319, R329, R330). -/
structure DmaCq where
  job : Nat
  loc : RingLoc
  records : Nat := 0
  head : Nat := 0
  deriving DecidableEq, Repr

end Sys2Proof.Machine
end

