-- ==== Sys2Proof/Machine/Memory.lean ====
section
/-! DEFINITION. The byte memory of the module: hub SRAM, stack memory and the tile stores in one
canonical list of cells, with the poison marks of its 64-byte lines. Also the two hosts' memory, as the
module has written it. -/

namespace Sys2Proof.Machine

/-- Memory: the cells that differ from what an unlisted byte reads as (0, log 4), addresses strictly
rising; the numbers of the poisoned 64-byte lines (R215, R409), strictly rising; and the symbols of stored stack lines that are in
error (R211), as `errKey` numbers them, strictly rising. -/
structure Mem where
  cells  : List Host.Cell
  poison : List Nat
  errs   : List Nat
  deriving DecidableEq, Repr

/-- What an unlisted byte reads as (log 4). -/
def memDefault : Byte := 0

/-- Where each space begins in the one key space. Local fabric offsets take their own 48 bits
(space [47:44], offset [43:0], R408); tile stores and host memory lie above. -/
def hubBase : Nat := 1 <<< 44
def stackBase : Nat := 2 <<< 44
/-- Key of stack offset A of a stack (R208). -/
def stackKey (st a : Nat) : Nat := stackBase + st * 2 ^ 37 + a
def opBase (tile : Nat) : Nat := (1 <<< 50) + tile * (1 <<< 22)
def accBase (tile : Nat) : Nat := (1 <<< 51) + tile * (1 <<< 20)
def hostBase (port : Nat) : Nat := (1 <<< 66) + port * (1 <<< 65)

/-- Strictly rising keys, no cell equal to the default, strictly rising poison marks. -/
def risingCells : List Host.Cell → Bool
  | [] => true
  | [(_, b)] => b != memDefault
  | (j, b) :: (k, c) :: t => (b != memDefault) && decide (j < k) && risingCells ((k, c) :: t)

def risingNats : List Nat → Bool
  | [] => true
  | [_] => true
  | j :: k :: t => decide (j < k) && risingNats (k :: t)

def Mem.wf (m : Mem) : Bool := risingCells m.cells && (risingNats m.poison && risingNats m.errs)

def Mem.empty : Mem := ⟨[], [], []⟩

def lookCell (k : Nat) : List Host.Cell → Byte
  | [] => memDefault
  | (j, c) :: t => if k = j then c else if k < j then memDefault else lookCell k t

def putCell (k : Nat) (b : Byte) : List Host.Cell → List Host.Cell
  | [] => if b = memDefault then [] else [(k, b)]
  | (j, c) :: t =>
    if k < j then (if b = memDefault then (j, c) :: t else (k, b) :: (j, c) :: t)
    else if k = j then (if b = memDefault then t else (k, b) :: t)
    else (j, c) :: putCell k b t

/-- The read of one byte. -/
def Mem.read (m : Mem) (k : Nat) : Byte := lookCell k m.cells

/-- The write of one byte; the poison marks are unchanged. -/
def Mem.write (m : Mem) (k : Nat) (b : Byte) : Mem := { m with cells := putCell k b m.cells }

def Mem.readBytes (m : Mem) (k n : Nat) : List Byte := (List.range n).map (fun i => m.read (k + i))

def Mem.writeBytes (m : Mem) (k : Nat) : List Byte → Mem
  | [] => m
  | b :: t => (m.write k b).writeBytes (k + 1) t

def Mem.isPoisoned (m : Mem) (line : Nat) : Bool := m.poison.contains line

/-- The number of an error: a difference of 1 to 255 in symbol 0 to 71 of a line (R210, R211). -/
def errKey (line symbol diff : Nat) : Nat := (line * 72 + symbol) * 256 + diff

/-- The line of an error. -/
def errLine (n : Nat) : Nat := n / 18432

/-- The symbols in error of a line with their differences. -/
def Mem.errsAt (m : Mem) (line : Nat) : List (Nat × Nat) :=
  (m.errs.filter fun n => errLine n = line).map fun n => (n / 256 % 72, n % 256)

/-- A further difference in a stored symbol. -/
def Mem.strike (m : Mem) (line symbol diff : Nat) : Mem :=
  let old := ((m.errsAt line).find? (·.1 = symbol)).map (·.2) |>.getD 0
  let rest := m.errs.filter fun n => !(errLine n = line && n / 256 % 72 = symbol)
  { m with errs := if old ^^^ diff = 0 then rest else insNat (errKey line symbol (old ^^^ diff)) rest }

def Mem.setPoison (m : Mem) (line : Nat) : Mem :=
  { m with poison := insNat line m.poison, errs := m.errs.filter fun n => errLine n != line }

def Mem.clearPoison (m : Mem) (line : Nat) : Mem :=
  { m with poison := m.poison.filter (· != line), errs := m.errs.filter fun n => errLine n != line }

/-- Lines of the n bytes from key k. -/
def linesOf (k n : Nat) : List Nat :=
  if n = 0 then [] else (List.range ((k + n - 1) / 64 - k / 64 + 1)).map (· + k / 64)

/-- Zero the n bytes from key k and clear the poison and the errors of their lines. -/
def Mem.zeroRange (m : Mem) (k n : Nat) : Mem :=
  { cells := m.cells.filter (fun c => c.1 < k || k + n ≤ c.1)
    poison := m.poison.filter (fun l => l * 64 < k || k + n ≤ l * 64)
    errs := m.errs.filter (fun e => errLine e * 64 < k || k + n ≤ errLine e * 64) }

/-- A write of part of one line that starts at key k (R206, R217, R409): a whole line stores its bytes and
clears the poison; a part of a poisoned line is discarded. -/
def Mem.writeInLine (m : Mem) (k : Nat) (data : List Byte) : Mem :=
  if k % 64 = 0 && data.length = 64 then (m.clearPoison (k / 64)).writeBytes k data
  else if m.isPoisoned (k / 64) then m
  else m.writeBytes k data

/-- Cut bytes at line boundaries: (key, piece) pairs. `fuel` bounds the number of pieces. -/
def cutLines : Nat → Nat → List Byte → List (Nat × List Byte)
  | 0, _, _ => []
  | f + 1, k, data =>
    if data.isEmpty then []
    else
      let n := 64 - k % 64
      (k, data.take n) :: cutLines f (k + n) (data.drop n)

/-- A write of bytes applied line by line, each line one action (R416). -/
def Mem.writeLines (m : Mem) (k : Nat) (data : List Byte) : Mem :=
  (cutLines (data.length + 1) k data).foldl (fun m p => m.writeInLine p.1 p.2) m

/-- Whether any line of the n bytes from key k is poisoned. -/
def Mem.anyPoison (m : Mem) (k n : Nat) : Bool := (linesOf k n).any m.isPoisoned

/-- A copy of one whole line with its poison (R202, R331): poison travels with the line. -/
def Mem.copyLine (m : Mem) (src dst : Nat) : Mem :=
  if m.isPoisoned (src / 64) then m.setPoison (dst / 64)
  else (m.clearPoison (dst / 64)).writeBytes dst (m.readBytes src 64)

/-- One change of memory. Every effect a command has on memory is a list of these. `line` is a write that
lies in one line and follows `Mem.writeInLine`; `raw` writes bytes and leaves the marks; `strike` spoils a symbol of a stored line. -/
inductive MemOp where
  | raw (k : Nat) (data : List Byte)
  | line (k : Nat) (data : List Byte)
  | poison (line : Nat)
  | clear (line : Nat)
  | zero (k n : Nat)
  | copy (src dst : Nat)
  | strike (line symbol diff : Nat)
  deriving DecidableEq, Repr

def Mem.apply (m : Mem) : MemOp → Mem
  | .raw k data => m.writeBytes k data
  | .line k data => m.writeInLine k data
  | .poison l => m.setPoison l
  | .clear l => m.clearPoison l
  | .zero k n => m.zeroRange k n
  | .copy s d => m.copyLine s d
  | .strike l s d => m.strike l s d

def Mem.run (m : Mem) (ops : List MemOp) : Mem := ops.foldl Mem.apply m

/-- Memory under change: what it holds now, and the changes made since the command began. -/
structure Buf where
  mem : Mem
  ops : List MemOp := []

def Buf.op (b : Buf) (o : MemOp) : Buf := ⟨b.mem.apply o, b.ops ++ [o]⟩

def Buf.opsAll (b : Buf) (l : List MemOp) : Buf := l.foldl Buf.op b

/-- A write cut at line boundaries (R416). -/
def Buf.write (b : Buf) (k : Nat) (data : List Byte) : Buf :=
  b.opsAll ((cutLines (data.length + 1) k data).map fun p => .line p.1 p.2)

/-- A write of whole lines that carries poison: the lines of the n bytes become poisoned. -/
def Buf.poisonRange (b : Buf) (k n : Nat) : Buf := b.opsAll ((linesOf k n).map .poison)

end Sys2Proof.Machine
end

