-- ==== Sys2Proof/Machine/NetState.lean ====
section
/-! DEFINITION. State of the links, the guest site, the router, the cabling plan and the fabric (chapters 9,
10, 13 and 14). Every field's default is its value at reset. -/

namespace Sys2Proof.Machine

/-- A packet that waits at an output, or is being sent there: from which input port (32: the module's own units), and the flits of it
that have gone (R386). -/
structure Held where
  pkt : Pkt
  src : Nat := 32
  sent : Nat := 0
  deriving DecidableEq, Repr

/-- The sender of one link direction (R275 to R279, R299, R301, R379). `used` counts the credits taken per
VC, so that C_s = B_v - used; `unacked` is the replay buffer: LSEQ, VC and the packet that starts in the flit;
`held` are the packets that wait for a credit; `rot` counts the flits sent, by which CR_VC and TX_VC rotate; `turn` is the source
served last on a VC (R386); `ctl` the link-control flits that wait for a credit. TIMEOUTS and LATE are those of R74: `overdue` says
that a timeout has expired since the last progress, and `expired` when. -/
structure LinkTx where
  next : Nat := 0
  unacked : List (Nat × Nat × Option Pkt) := []
  used : Tab Nat := []
  crSeen : Tab Nat := []
  txTotal : Tab Nat := []
  run : Nat := 0
  replays : Nat := 0
  naksRx : Nat := 0
  lastAdv : Nat := 0
  held : List Held := []
  rot : Nat := 0
  turn : Tab Nat := []
  ctl : Nat := 0
  timeouts : Nat := 0
  late : Nat := 0
  overdue : Bool := false
  expired : Option Nat := none
  deriving DecidableEq, Repr

/-- The receiver of one link direction. `freed` are the running totals of slots freed per VC and `told` those last sent, so that
P_r = freed - told (R275); `counted` the flits of a VC accepted or counted lost; `gap` says a flit was discarded since the last good
one (R378); `nak` that the next outgoing flit carries NAK; `copies` are the discarded flits that are kept: LSEQ and the lanes that
carried a wrong bit (R302). -/
structure LinkRx where
  next : Nat := 0
  freed : Tab Nat := []
  told : Tab Nat := []
  counted : Tab Nat := []
  lost : Nat := 0
  dup : Nat := 0
  nak : Bool := false
  gap : Bool := false
  copies : List (Nat × List Nat) := []
  deriving DecidableEq, Repr

/-- The packet in progress on a VC of an input port: its bytes so far, and the slots that its flits hold (R378, R380). -/
structure Part where
  bytes : List Byte := []
  slots : Nat := 0
  deriving DecidableEq, Repr

/-- One direction of a die-to-die link (R296 to R306). `clk` maps a clock pair to the mask of its lanes lost
(1 A, 2 B). Darning lane k has number data lanes + k. `darns` maps a data lane to the darning lane that stands in;
`asked` holds the DARN messages on their way to the sender and `acked` those it has answered (data lane, darning lane);
`errTicks` when a lane's latest 16 errors were found. -/
structure D2dDir where
  tx : LinkTx := {}
  rx : LinkRx := {}
  retired : List Nat := []
  laneErr : Tab Nat := []
  errTicks : Tab (List Nat) := []
  failed : List Nat := []
  darns : Tab Nat := []
  usedDarn : List Nat := []
  asked : List (Nat × Nat) := []
  acked : List (Nat × Nat) := []
  clk : Tab Nat := []
  markSent : Bool := false
  markTaken : Bool := false
  deriving DecidableEq, Repr

/-- A die-to-die link (R307): st 1 TRAINING, 2 READY, 3 DEGRADED, 4 FAILED, 0 before its start. `audit` logs the credit
mismatches of R278: virtual channel, the receiver's free slots, the buffer size. -/
structure D2dLink where
  st : Nat := 0
  dir0 : D2dDir := {}
  dir1 : D2dDir := {}
  retrain : Bool := false
  trained : Bool := false
  audit : List (Nat × Nat × Nat) := []
  deriving DecidableEq, Repr

/-- The guest site and its firewall (R310 to R317). `recent` holds the ticks of the violations within 1 s, `out` the
messages sent to the guest. -/
structure Guest where
  linkUp : Bool := false
  enabled : Bool := true
  violations : Nat := 0
  recent : List Nat := []
  threshold : Nat := 64
  rate : Nat := 1024
  tokens : Nat := 32
  grants : Tab Nat := []
  waiting : List GuestReq := []
  easelTags : List Nat := []
  out : List GuestReq := []
  deriving DecidableEq, Repr

/-- What a peer sent at identity exchange (R399). -/
structure Ident where
  serial : Nat
  module : Nat
  port : Nat
  major : Nat
  minor : Nat
  deriving DecidableEq, Repr

/-- A tensor-network port of the router (R376 to R405). `outcome` as Table 13-11; `inq` are the
packets received and not yet routed with the buffer slots that they hold, `part` the packet in progress per VC, and `holes` the VCs on
which a flit was discarded and no packet has started since (R378); `dead` the REASON of a FAILED that lasts until
the next swatch test (0 none); `snap*` are the counters at the previous snapshot. -/
structure RPort where
  outcome : Nat := 0
  ident : Option Ident := none
  dead : Nat := 0
  minor : Nat := 0
  tx : LinkTx := {}
  rx : LinkRx := {}
  inq : List (Pkt × Nat) := []
  part : Tab Part := []
  holes : List Nat := []
  retrain : Bool := false
  trained : Bool := false
  markSent : Bool := false
  markTaken : Bool := false
  flitsTx : Nat := 0
  flitsRx : Nat := 0
  pktsTx : Nat := 0
  pktsRx : Nat := 0
  stall : Nat := 0
  stallFrom : Option Nat := none
  rr : Nat := 0
  drops : Tab Nat := []
  retrains : Nat := 0
  naksTx : Nat := 0
  naksRx : Nat := 0
  queueMax : Tab Nat := []
  snapStall : Nat := 0
  snapTx : Nat := 0
  snapRx : Nat := 0
  deriving DecidableEq, Repr

/-- The router (R387 to R407). `pend` maps a port to the replacement table installed at its MATCH (R403);
`broken` lists the broken directions already reported: job, dimension, 0 plus or 1 minus. -/
structure Router where
  tables : Tab RouteTable := []
  plan : Option Plan := none
  pend : Tab RouteTable := []
  ports : Tab RPort := []
  broken : List (Nat × Nat × Nat) := []
  degraded : Bool := false
  localDrops : Tab Nat := []
  snaps : List (List Byte) := []
  snapSeq : Nat := 0
  period : Nat := 0
  periodDue : Nat := 0
  deriving DecidableEq, Repr

/-- Who waits for a transaction. -/
inductive Req where
  | tile (tile id line : Nat)
  | dma (chan idx pos : Nat) (write : Bool)
  | dmaFetch (chan idx : Nat)
  | dmaRecord (queue : Nat)
  | coll (id gen attempt : Nat)
  | pipe (id micro : Nat)
  | frog (pipe : Bool) (id nbr : Nat)
  | palette (stack queue : Nat)
  | fill (job pos : Nat)
  | record
  | rc (use : Nat)
  deriving DecidableEq, Repr

/-- A transaction in flight (R281, R421, R424, R429). `copies` counts the copies sent (0 while it waits for
the flow window), `bad` those that ended by timeout or by a NAK other than HOP_DROP, `naks` those that a NAK answered, `home` the packet for the
home where the copies went to a replica, `want` the recipients whose acknowledgement is awaited, `fan` how many answers a copy
draws, `sent` the answers that all copies sent draw and `acks` those that have come. -/
structure Txn where
  who : Req
  pkt : Pkt
  home : Option Pkt := none
  copies : Nat := 0
  bad : Nat := 0
  naks : Nat := 0
  away : Nat := 0
  late : Bool := false
  due : Nat := 0
  sentAt : Nat := 0
  nakWait : Bool := false
  want : List Nat := []
  fan : Nat := 1
  sent : Nat := 0
  acks : Nat := 0
  deriving DecidableEq, Repr

/-- A lingering tag (R281): responses still out, when its allowance ends, its FLOW_SEQ and its job; `slot` is the flow whose window
slot its packet holds until it is acknowledged (R279), `want` the recipients of a multicast whose acknowledgement that takes, and `chan`
the DMA channel that holds the tag (R322). -/
structure Linger where
  out : Nat
  due : Nat
  seq : Nat
  job : Nat
  slot : Option Nat := none
  want : List Nat := []
  chan : Option Nat := none
  deriving DecidableEq, Repr

/-- A flow at its sender (R279): next FLOW_SEQ and U, the packets sent and not acknowledged; `orphans` are the jobs of those whose tags
have returned, so that nothing acknowledges them any more. -/
structure FlowOut where
  next : Nat := 0
  unacked : Nat := 0
  orphans : List Nat := []
  deriving DecidableEq, Repr

/-- What a home keeps of a request it admitted (R420). -/
inductive FlowRes where
  | pending
  | ack
  | read
  | value (v : Nat) (poison : Bool)
  | err (code : Nat)
  deriving DecidableEq, Repr

/-- A flow record (R280, R420): the highest number, the last 512 numbers with what was answered, and the tick of
last use. -/
structure FlowRec where
  top : Nat := 0
  seqs : List (Nat × FlowRes) := []
  last : Nat := 0
  deriving DecidableEq, Repr

/-- What a region is for: plain memory, a Palette window, a collective's start line, a pipe's start or
release line. -/
inductive RegUse where
  | plain
  | window (stack queue : Nat)
  | collStart (id : Nat)
  | pipeStart (id : Nat)
  | pipeRelease (id : Nat)
  deriving DecidableEq, Repr

/-- A region (Table 14-2, R411, R412); `id` tells it from every other that has had its number. -/
structure Region where
  space : Nat
  base : Nat
  len : Nat
  job : Nat
  perm : Nat
  opn : Nat
  repl : Nat
  key : Nat
  id : Nat := 0
  use : RegUse := .plain
  mismatch : Nat := 0
  zeroing : Bool := false
  deriving DecidableEq, Repr

/-- The fabric at this module as requester and as home (R408 to R431). `arrivals` are the packets the router
has delivered and no unit has taken: the home's ingress holds the memory requests among them, and `blocked` those that wait for a free slot. The
requesters' counters are numbered as Table 17-16 numbers them. Flows and flow
records are keyed by 4 * module + class (0 collective, 1 memory request, 2 response, 3 control). `dmaTurn` is the DMA channel whose burst
the Easel network served last (R321). -/
structure Fabric where
  txns : Tab Txn := []
  lingering : Tab Linger := []
  flows : Tab FlowOut := []
  recs : Tab FlowRec := []
  regions : Tab Region := []
  regionSeq : Nat := 0
  dmaTurn : Nat := 63
  arrivals : List Pkt := []
  fullTicks : Nat := 0
  fullFrom : Option Nat := none
  maps : Tab (List ReplicaRange) := []
  skip : Tab Nat := []
  mismatchSrc : Tab Nat := []
  blocked : List Pkt := []
  reqTimeouts : Tab Nat := []
  reqLate : Tab Nat := []
  reqDup : Tab Nat := []
  duplicates : Nat := 0
  combined : Nat := 0
  fallback : Nat := 0
  targetDead : Nat := 0
  deadSent : Tab Nat := []
  deriving DecidableEq, Repr

end Sys2Proof.Machine
end

