-- ==== Sys2Proof/Machine/OpticState.lean ====
section
/-! DEFINITION. State of the optical edge (chapter 12). Every field's default is its value at reset. -/

namespace Sys2Proof.Machine

/-- A grid slot of one fibre and direction (Table 12-7, R356 to R364). `st` as Table 12-7; `power` the last reading in
units of 0.01 dBm; `out` counts the successive loop readings more than 10 GHz off (R356); `reads` the monitor readings of
the last millisecond; `low` says the last one was at or below the floor; `warned` and `floored` latch the thresholds (R359);
`owner` says OWNER has retired its data slot (R362); `last` the data slot it last carried (255 none); `errs` the symbol errors
counted on it by tick (R362); `lit` says that its filter ring finds light (R371). -/
structure Grid where
  st : Nat := 7
  data : Nat := 255
  power : Int := 0
  margin : Nat := 0
  heater : Nat := 0
  offset : Int := 0
  out : Nat := 0
  reads : List Int := []
  low : Bool := false
  warned : Bool := false
  floored : Bool := false
  owner : Bool := false
  last : Nat := 255
  errs : List (Nat × Nat) := []
  lit : Bool := false
  deriving DecidableEq, Repr

/-- A data slot sent on its grid slot and on a spare at once: in a calibration (R357) or in a changeover (R360), with the spares
that have failed its verification. -/
structure SlotCopy where
  cal : Bool
  slot : Nat
  grid : Nat
  spare : Nat
  tried : List Nat
  deriving DecidableEq, Repr

/-- One direction of a fibre pair (R343, R357, R365): its grid slots, its lane map (data slot to grid slot, absent where
retired), and its calibration. `calNext` is the grid slot next in turn; `warn` the grid slots whose changeover waits, each with the
tick of its warning; `copy` the copy in progress; `waiting` the failures (data slot, state) that wait for its end; `reported` the
data slots a receiver has reported failed. -/
structure FibreDir where
  grid : Tab Grid := []
  map : Tab Nat := []
  interval : Nat := 1000000000
  calNext : Nat := 0
  calDue : Nat := 0
  warn : Tab Nat := []
  copy : Option SlotCopy := none
  waiting : List (Nat × Nat) := []
  reported : List Nat := []
  deriving DecidableEq, Repr

/-- A port's optics. The fibre pair of the same number carries its quads unless `place` says otherwise: quad to
fibre pair 0-31, or 32 parked. `settled` is when the lasers settle; `lossDue` the end of the wait for lost light (R371);
`lightAt` the tick at which the number of its lit grid slots last crossed 4; `awaiting` the moved quads whose identity has not
come, `quadPeer` the serial and port that each moved quad last received, and `mismatch` the quads held dark (R368). -/
structure OPort where
  tx : FibreDir := {}
  rx : FibreDir := {}
  place : Tab Nat := []
  noLight : Bool := false
  swatch : Bool := false
  settled : Nat := 0
  lossDue : Option Nat := none
  lightAt : Nat := 0
  awaiting : List Nat := []
  quadPeer : Tab (Nat × Nat) := []
  mismatch : List Nat := []
  fecCorrected : Nat := 0
  fecUncorrectable : Nat := 0
  moves : Nat := 0
  cals : Nat := 0
  deriving DecidableEq, Repr

/-- The optical edge: the ports; for each skein pair the steers that wait for their moment (R367), oldest first, each a number and
its placement, and the steer whose ports retrain; the number of the next steer; and for each skein the fibre pair whose port is next
in turn for its swatch test (R349). -/
structure Optics where
  ports : Tab OPort := []
  steer : Tab (List (Nat × List Nat)) := []
  steering : Tab Nat := []
  steerSeq : Nat := 0
  turn : Tab Nat := []
  deriving DecidableEq, Repr

end Sys2Proof.Machine
end

