-- ==== Sys2Proof/Machine/ServeState.lean ====
section
/-! DEFINITION. State of the serving engine (chapter 16). Every field's default is its value at reset or at
creation. -/

namespace Sys2Proof.Machine

/-- Where a stream's messages go: the session's pair, or an Ethernet port with address and UDP port. -/
inductive Client where
  | mailbox (pair session : Nat)
  | net (port addr udp : Nat)
  deriving DecidableEq, Repr

/-- The REQUEST fields of part 0 (Table 16-4). -/
structure ReqArgs where
  maxNew : Nat
  mode : Nat
  inputKind : Nat
  stops : List Nat
  temp : BitVec 32
  topP : BitVec 32
  topK : Nat
  seed : Nat
  textOut : Bool
  deriving DecidableEq, Repr

/-- A sequence from its complete request until its tokens are dropped (R476 to R491). `slot` none is the intake
queue; `told` says that ACCEPT with QUEUE_POS 0 has been sent. `out` are its sampled tokens from index 0, `sent` how many
are delivered, `acked` the index below which the client has them. `target` is the number of positions its prefill
covers, `pos` the positions written, `pages` its pages in order (stack, page). `lastTick` is its last delivery, `skipLat`
says that its next token takes no latency sample (R493), `deadline` is armed under R494 and `overdue` has expired.
`from_` is where its time in decode is counted from (SEQ_MS). `ending` is the reason it ends with once its tokens are
delivered, `done` the reason it ended with. `text` holds the bytes of an incomplete UTF-8 character (R480). -/
structure Sequence where
  contract : Nat
  stream : Nat
  client : Client
  r : ReqArgs
  prompt : List Nat
  seedUsed : Nat
  rng : Nat
  order : Nat
  slot : Option Nat := none
  reserved : Bool := false
  told : Bool := false
  admitTick : Nat := 0
  target : Nat := 0
  inDecode : Bool := false
  out : List Nat := []
  sent : Nat := 0
  acked : Nat := 0
  text : List Byte := []
  pos : Nat := 0
  pages : List (Nat × Nat) := []
  lastTick : Option Nat := none
  skipLat : Bool := false
  deadline : Option Nat := none
  overdue : Bool := false
  paused : Bool := false
  from_ : Option Nat := none
  ending : Option Nat := none
  done : Option Nat := none
  doneTick : Nat := 0
  lastStretch : Nat := 0
  deriving DecidableEq, Repr

/-- A request whose parts have not all come (R475). -/
structure Parts where
  contract : Nat
  stream : Nat
  client : Client
  first : Nat
  got : Tab (List Byte) := []
  last : Option Nat := none
  textOut : Bool := false
  deriving DecidableEq, Repr

/-- The present judging window of a contract (R493 to R495). `hist` counts latencies per bucket. -/
structure Window where
  seq : Nat := 0
  start : Nat := 0
  tokens : Nat := 0
  seqNs : Nat := 0
  hist : Tab Nat := []
  misses : Nat := 0
  cause : Nat := 0
  clMax : Nat := 0
  stalled : Bool := false
  deriving DecidableEq, Repr

/-- An open stretch (R499); `due` is the reason it must close for while the queue is full (R500). -/
structure Stretch where
  digest : List Byte
  due : Option Nat := none
  decode : Nat := 0
  prefill : Nat := 0
  first : Nat := 0
  last : Nat := 0
  ended : Nat := 0
  deriving DecidableEq, Repr

/-- An open contract (Table 16-8). `setAside` are its set-aside pages (R487). -/
structure Contract where
  a : ContractArgs
  session : Nat
  job : Nat
  key : List Byte
  oldKey : Option (List Byte × Nat) := none
  rxHigh : Option Nat := none
  rxSeen : List Nat := []
  txSeq : Nat := 0
  setAside : Nat := 0
  win : Window := {}
  records : List (Nat × List Byte) := []
  stretch : Option Stretch := none
  stretchSeq : Nat := 0
  closing : Bool := false
  authFail : Nat := 0
  malformed : Nat := 0
  replayed : Nat := 0
  deriving DecidableEq, Repr

/-- A delivery record that waits for the Tally (R500, R621): contract, STRETCH_SEQ, the frame, when it was
sent. -/
structure Queued where
  contract : Nat
  seq : Nat
  body : List Byte
  sentAt : Option Nat := none
  deriving DecidableEq, Repr

/-- An entry of the batch in flight (Table 16-2); `row` is its first row of the KV staging area. -/
structure Batch where
  contract : Nat
  stream : Nat
  chunk : Nat
  position : Nat
  row : Nat
  deriving DecidableEq, Repr

/-- A program as it was loaded on a model tile: words, their number and the base registers (R489). -/
structure Prog where
  imem : Tab Nat
  len : Nat
  bases : Tab (Nat × Nat)
  deriving DecidableEq, Repr

/-- The KV pool of a stack (R486 to R488): its region's offset on the stack, its pages, the engine's command queue, the
page limit and the pages in use. -/
structure Pool where
  base : Nat
  pages : Nat
  queue : Nat
  limit : Nat
  used : List Nat := []
  deriving DecidableEq, Repr

/-- The loaded model (R470, R471). `iter` is the number of the next iteration, `waiting` says that the one before it is in
flight and `stored` that its number has come to the done line. `appends` are the KV_APPEND commands that wait for a place in their stack's queue. -/
structure Model where
  a : ModelArgs
  session : Nat
  digest : List Byte
  progs : Tab Prog
  pools : Tab Pool
  iter : Nat := 0
  waiting : Bool := false
  stored : Bool := false
  batch : List Batch := []
  appends : List (Nat × List Byte) := []
  lastTime : Nat := 0
  startTick : Nat := 0
  deriving DecidableEq, Repr

/-- The serving engine. `moving` are the page moves under way (stack, source, destination) of R488. -/
structure Serve where
  model : Option Model := none
  tables : Tab BpTable := []
  contracts : Tab Contract := []
  seqs : List Sequence := []
  parts : List Parts := []
  maxResident : Nat := 0
  order : Nat := 0
  queue : List Queued := []
  port : Nat := 47110
  authFail : Nat := 0
  timeouts : Nat := 0
  late : Nat := 0
  duplicates : Nat := 0
  moving : List (Nat × Nat × Nat) := []
  deriving DecidableEq, Repr

end Sys2Proof.Machine
end

