-- ==== Sys2Proof/Machine/StackState.lean ====
section
/-! DEFINITION. State of a memory stack and of its Palette (chapters 7 and 8). Every field's default is its
value at reset. The lines themselves lie in `Mem`. -/

namespace Sys2Proof.Machine

/-- One channel of a stack (R233, R220 to R224). `carry` maps a data position DQp to the spare that carries it;
`failed` lists the positions declared failed and not darned; `usedUp` the spares in service, failed or
retired; `copy` is the darning copy under way (position, spare) and `copyAt` the line that it reads next (R223). -/
structure Chan where
  ce : Nat := 0
  due : Nat := 0
  dueRec : Nat := 0
  poisonWritten : Nat := 0
  poisonSeen : Nat := 0
  poisonMerge : Nat := 0
  pinRec : Tab Nat := []
  deadLanes : List Nat := []
  carry : Tab Nat := []
  failed : List Nat := []
  usedUp : List Nat := []
  copy : Option (Nat × Nat) := none
  copyAt : Nat := 0
  patrol : Nat := 0
  lost : Bool := false
  lastCe : Option Nat := none
  deriving DecidableEq, Repr

/-- A stack log record (Table 7-8). -/
structure StackRec where
  kind : Nat
  chan : Nat
  lane : Nat
  source : Nat
  symbols : Nat
  band : Nat
  tick : Nat
  offset : Nat
  seq : Nat
  deriving DecidableEq, Repr

/-- A command queue (R243 to R247). `regions` are the numbers and identities of the regions that it was created with (R273).
`waiting` holds the accepted commands not yet started. `closing` says the queue is being destroyed. -/
structure PalQueue where
  job : Nat
  regions : List (Nat × Nat)
  ring : Option (Nat × Nat)
  window : Nat
  session : Nat
  head : Nat := 0
  accepted : Nat := 0
  started : Nat := 0
  completed : Nat := 0
  records : Nat := 0
  waiting : List (List Byte) := []
  closing : Bool := false
  deriving DecidableEq, Repr

/-- A command that executes, with what its record will say (Table 8-6); `started` is false for a command that its
queue's end aborts before its start (R269). `bank` is the bank whose engine credit its line operations hold (R240), numbered
16 * channel + bank. -/
structure PalExec where
  started : Bool := true
  queue : Nat
  cmd : List Byte
  status : Nat
  done : Nat
  except : Nat
  firstBad : Nat
  bank : Option Nat := none
  deriving DecidableEq, Repr

/-- What a stack holds in a write stop or in training (R231, R562): a fabric request; a write of an engine of the Easel with its
poisoned lines, or zeros that it writes, from an offset; an admitted request of the guest, with its offset in stack space (R317). -/
inductive StackHeld where
  | req (p : Pkt)
  | store (a : Nat) (data : List Byte) (mask : Nat)
  | zero (a n : Nat)
  | guest (g : GuestReq) (off : Nat)
  deriving DecidableEq, Repr

/-- A memory stack with its Palette. `held` is what a write stop or training holds, in arrival order; `turn` is the queue whose command
the complex started last (R247). -/
structure Stack where
  chans : Tab Chan := []
  hours : Nat := 24
  band : Nat := 1
  firstReading : Bool := true
  below : Nat := 0
  reading : Int := 0
  palReading : Int := 0
  actLimit : Nat := 0
  cool : Nat := 0
  held : List StackHeld := []
  log : List StackRec := []
  logSeq : Nat := 0
  initDone : Bool := false
  queues : Tab PalQueue := []
  execs : List PalExec := []
  turn : Nat := 31
  cmdsDone : Nat := 0
  cmdsFailed : Nat := 0
  nonfinite : Nat := 0
  poisonOut : Nat := 0
  rejects : Nat := 0
  badHead : Nat := 0
  deriving DecidableEq, Repr

/-! Addresses (R208, R209). -/

/-- Whether a stack-space offset is mapped (R208). -/
def stackMapped (off : Nat) : Bool := bits off 43 40 = 0 && decide (bits off 36 21 < 38400)

def stackOf (off : Nat) : Nat := bits off 39 37

def stackA (off : Nat) : Nat := bits off 36 0

def channelOf (a : Nat) : Nat :=
  bits a 12 6 ^^^ bits a 19 13 ^^^ bits a 26 20 ^^^ bits a 33 27 ^^^ bits a 36 34

def bankOf (a : Nat) : Nat := bits a 20 17 ^^^ bits a 24 21

/-- The number of a line's bank within the stack. -/
def bankNo (a : Nat) : Nat := 16 * channelOf a + bankOf a

/-- Lines of a channel: 38,400 rows of 16 banks of 16 lines. -/
def chanLines : Nat := 9830400

/-- The stack offset of line number p of a channel, lines in ascending order of row, bank and column (R218). -/
def lineAddr (chan p : Nat) : Nat :=
  let col := p % 16
  let bank := p / 16 % 16
  let row := p / 256
  let bankSel := bank ^^^ (row % 16)
  let hi := (row <<< 21) + (bankSel <<< 17) + (col <<< 13)
  let sel := chan ^^^ bits hi 19 13 ^^^ bits hi 26 20 ^^^ bits hi 33 27 ^^^ bits hi 36 34
  hi + (sel <<< 6)

/-- The number in its channel of the line at stack offset a, the inverse of `lineAddr`. -/
def linePos (a : Nat) : Nat := bits a 36 21 * 256 + bankOf a * 16 + bits a 16 13

/-- The data position that a read of the line at offset a takes as erased (R221): none for a line that the darning copy has
passed, which is accessed through the spare (R223). -/
def Chan.erased (c : Chan) (a : Nat) : Option Nat :=
  if c.copy.isSome && decide (linePos a < c.copyAt) then none else c.failed.head?

def Stack.chan (s : Stack) (c : Nat) : Chan := s.chans.getD c {}

/-- The engine credits that a bank holds free, of its 4 (R240). -/
def Stack.credits (s : Stack) (bank : Nat) : Nat := 4 - (s.execs.filter fun e => e.bank = some bank).length

def Stack.updChan (s : Stack) (c : Nat) (f : Chan → Chan) : Stack := { s with chans := Tab.upd c {} f s.chans }

def inc32 (n : Nat) : Nat := (n + 1) % 2 ^ 32

/-- Append a log record; the log keeps the last 1,024 (R234). -/
def Stack.logRec (s : Stack) (kind chan lane source symbols tick offset : Nat) : Stack :=
  { s with
    log := lastN 1024 (s.log ++ [⟨kind, chan, lane, source, symbols, s.band, tick, offset, s.logSeq⟩])
    logSeq := s.logSeq + 1 }

def StackRec.bytes (r : StackRec) : List Byte :=
  leBytes 2 r.kind ++ leBytes 1 r.chan ++ leBytes 1 r.lane ++ leBytes 1 r.source ++ leBytes 1 r.symbols
    ++ leBytes 1 r.band ++ leBytes 1 0 ++ leBytes 8 r.tick ++ leBytes 8 r.offset ++ leBytes 4 r.seq ++ leBytes 4 0

/-- The lane that carries data position p: the spare it is darned onto, or DQp. -/
def Chan.laneOf (c : Chan) (p : Nat) : Nat := c.carry.getD p p

/-- Spares that carry a lane, or to which a lane is being copied (Table 7-9). -/
def Chan.sparesInUse (c : Chan) : Nat :=
  (c.carry.filter fun (x : Nat × Nat) => !c.deadLanes.contains x.2).length + (if c.copy.isSome then 1 else 0)

/-- The lowest-numbered free spare, SP0 to SP3 (16 to 19). -/
def Chan.freeSpare (c : Chan) : Option Nat := [16, 17, 18, 19].find? fun s => !c.usedUp.contains s

/-- What declaring a lane failed leads to. -/
inductive DarnOut where
  | copy (spare : Nat)
  | permanent
  | lost
  deriving DecidableEq, Repr

/-- Declare the lane of data position p failed while the stack is in use (R220, R223, R224). -/
def Stack.declareFailed (s : Stack) (ch p source tick : Nat) : Stack × DarnOut :=
  let c := s.chan ch
  let lane := c.laneOf p
  let s := s.logRec 0x04 ch lane source 0xFF tick 0
  let c1 := { c with failed := insNat p c.failed, deadLanes := insNat lane c.deadLanes }
  if c.failed.isEmpty then
    match c.freeSpare with
    | some sp =>
      (s.updChan ch fun _ => { c1 with copy := some (p, sp), copyAt := 0, usedUp := insNat sp c1.usedUp }, .copy sp)
    | none => ((s.updChan ch fun _ => c1).logRec 0x06 ch lane source 0xFF tick 0, .permanent)
  else ((s.updChan ch fun _ => { c1 with lost := true }).logRec 0x07 ch lane source 0xFF tick 0, .lost)

/-- The state and reason that the channels of an initialised stack give its entry (R224, R225). -/
def Stack.health (s : Stack) : Nat × Nat :=
  if s.chans.vals.any (·.lost) then (4, 0x12)
  else if s.chans.vals.any (fun c => !c.failed.isEmpty && c.copy.isNone) then (3, 0x0A)
  else (2, 0)

end Sys2Proof.Machine
end

