-- ==== Sys2Proof/Machine/TallyState.lean ====
section
/-! DEFINITION. State of the Tally (chapter 22). No other unit writes it. Every field's default is its value at
manufacture. -/

namespace Sys2Proof.Machine

/-- A counter with its committed value and the increment that is pending (R616). -/
structure TCount where
  committed : Nat := 0
  pending : Nat := 0
  deriving DecidableEq, Repr

/-- A contract the Tally has seen (R619, R620). -/
structure TContract where
  closed : Bool := false
  first : Nat := 0
  next : Nat := 0
  decode : TCount := {}
  prefill : TCount := {}
  deriving DecidableEq, Repr

/-- A log entry (R623). -/
structure TLog where
  seq : Nat
  kind : Nat
  tMs : Nat
  energy : Nat
  detail : Nat
  deriving DecidableEq, Repr

/-- The Tally. `frac` is the energy below 1 mJ in units of 10^-12 J; `usec` the microseconds of the present
millisecond; `ok` the consecutive readings within -8 to +68 °C; `apart` the microseconds of disagreement;
`meshOpen` says that the mesh was breached without power;
`loggedAt` the T_MS of the last log entry per refusal code; `boundSerial` 0 is unset; `reading` the last reading given
on the readout path. -/
structure Tally where
  powered : Bool := false
  frac : Nat := 0
  energy : TCount := {}
  pulses : TCount := {}
  pulseOn : Bool := false
  pulseAge : Nat := 0
  accepted : TCount := {}
  decode : TCount := {}
  prefill : TCount := {}
  refused : Tab TCount := []
  dropped : TCount := {}
  contracts : Tab TContract := []
  boundSerial : Nat := 0
  enrolled : Option (List Byte) := none
  keyEpoch : Nat := 0
  tMs : Nat := 0
  usec : Nat := 0
  powerOn : Nat := 0
  temp : Int := 250
  inhibit : Bool := false
  ok : Nat := 0
  held : List TLog := []
  log : List TLog := []
  logSeq : Nat := 0
  meshOpen : Bool := false
  sealAlarm : Bool := false
  selfTestFail : Bool := false
  apart : Nat := 0
  loggedAt : Tab Nat := []
  reading : List Byte := []
  deriving DecidableEq, Repr

end Sys2Proof.Machine
end

