-- ==== Sys2Proof/Machine/Float.lean ====
section
/-! DEFINITION. Exact values, rounding and the number formats of chapter 3. -/

namespace Sys2Proof.Machine

/-- An exact value: NaN, an infinity, or (-1)^neg * m * 2^e. -/
inductive Fp where
  | nan
  | inf (neg : Bool)
  | fin (neg : Bool) (m : Nat) (e : Int)
  deriving DecidableEq, Repr

def Fp.zero : Fp := .fin false 0 0

def Fp.isFin : Fp → Bool
  | .fin _ _ _ => true
  | _ => false

def Fp.isZero : Fp → Bool
  | .fin _ 0 _ => true
  | _ => false

def Fp.negB : Fp → Bool
  | .nan => false
  | .inf n => n
  | .fin n _ _ => n

/-- The signed mantissa of a finite value on the grid 2^q, q at most its exponent. -/
def onGrid (neg : Bool) (m : Nat) (e q : Int) : Int :=
  let v : Int := (m * 2 ^ (e - q).toNat : Nat)
  if neg then -v else v

/-- The exact sum (R81: an exact zero is +0 unless both operands are -0). -/
def Fp.add : Fp → Fp → Fp
  | .nan, _ => .nan
  | _, .nan => .nan
  | .inf a, .inf b => if a = b then .inf a else .nan
  | .inf a, .fin _ _ _ => .inf a
  | .fin _ _ _, .inf b => .inf b
  | .fin n1 m1 e1, .fin n2 m2 e2 =>
    let q := min e1 e2
    let i := onGrid n1 m1 e1 q + onGrid n2 m2 e2 q
    if i = 0 then .fin (n1 && n2) 0 0 else .fin (i < 0) i.natAbs q

def Fp.neg : Fp → Fp
  | .nan => .nan
  | .inf n => .inf (!n)
  | .fin n m e => .fin (!n) m e

def Fp.sub (a b : Fp) : Fp := a.add b.neg

/-- The exact product (R90, R92). -/
def Fp.mul : Fp → Fp → Fp
  | .nan, _ => .nan
  | _, .nan => .nan
  | .inf a, .inf b => .inf (a != b)
  | .inf a, .fin n m _ => if m = 0 then .nan else .inf (a != n)
  | .fin n m _, .inf b => if m = 0 then .nan else .inf (n != b)
  | .fin n1 m1 e1, .fin n2 m2 e2 => .fin (n1 != n2) (m1 * m2) (e1 + e2)

/-- The exact value times 2^k. -/
def Fp.scale (x : Fp) (k : Int) : Fp :=
  match x with
  | .fin n m e => .fin n m (e + k)
  | y => y

/-- Exact order of finite values and infinities; NaN is below nothing. -/
def Fp.lt (a b : Fp) : Bool :=
  match a, b with
  | .nan, _ => false
  | _, .nan => false
  | .inf x, .inf y => x && !y
  | .inf x, .fin _ _ _ => x
  | .fin _ _ _, .inf y => !y
  | .fin n1 m1 e1, .fin n2 m2 e2 =>
    let q := min e1 e2
    decide (onGrid n1 m1 e1 q < onGrid n2 m2 e2 q)

def Fp.abs : Fp → Fp
  | .nan => .nan
  | .inf _ => .inf false
  | .fin _ m e => .fin false m e

/-- The value of an integer. -/
def Fp.ofInt (i : Int) : Fp := .fin (i < 0) i.natAbs 0

/-- Special encodings of a scalar or element format (Table 3-3): IEEE infinities and NaNs, E4M3's single
NaN, or none. -/
inductive Specials where
  | ieee
  | e4m3
  | none
  deriving DecidableEq, Repr

/-- A floating-point encoding: exponent and fraction widths, bias, largest finite magnitude code. -/
structure FmtSpec where
  eb : Nat
  fb : Nat
  bias : Int
  maxCode : Nat
  sp : Specials
  deriving DecidableEq, Repr

def fBin32 : FmtSpec := ⟨8, 23, 127, 0x7F7FFFFF, .ieee⟩
def fBin16 : FmtSpec := ⟨5, 10, 15, 0x7BFF, .ieee⟩
def fBf16 : FmtSpec := ⟨8, 7, 127, 0x7F7F, .ieee⟩
def fE4m3 : FmtSpec := ⟨4, 3, 7, 0x7E, .e4m3⟩
def fE5m2 : FmtSpec := ⟨5, 2, 15, 0x7B, .ieee⟩
def fE3m2 : FmtSpec := ⟨3, 2, 3, 0x1F, .none⟩
def fE2m3 : FmtSpec := ⟨2, 3, 1, 0x1F, .none⟩
def fE2m1 : FmtSpec := ⟨2, 1, 1, 0x07, .none⟩

def FmtSpec.signBit (f : FmtSpec) : Nat := 2 ^ (f.eb + f.fb)

/-- The value of an encoding (R78, Table 3-3). -/
def FmtSpec.decode (f : FmtSpec) (c : Nat) : Fp :=
  let neg := c.testBit (f.eb + f.fb)
  let ex := (c >>> f.fb) % 2 ^ f.eb
  let fr := c % 2 ^ f.fb
  let top := 2 ^ f.eb - 1
  if f.sp = .ieee && ex = top then (if fr = 0 then .inf neg else .nan)
  else if f.sp = .e4m3 && ex = top && fr = 2 ^ f.fb - 1 then .nan
  else if ex = 0 then .fin neg fr (1 - f.bias - f.fb)
  else .fin neg (2 ^ f.fb + fr) (ex - f.bias - f.fb)

/-- The canonical NaN (R80); formats without NaN have none and give 0. -/
def FmtSpec.nanCode (f : FmtSpec) : Nat :=
  match f.sp with
  | .ieee => (2 ^ f.eb - 1) * 2 ^ f.fb + 2 ^ (f.fb - 1)
  | .e4m3 => 0x7F
  | .none => 0

def FmtSpec.infCode (f : FmtSpec) : Nat :=
  match f.sp with
  | .ieee => (2 ^ f.eb - 1) * 2 ^ f.fb
  | .e4m3 => 0x7F
  | .none => f.maxCode

/-- Round to nearest even, or stochastically with a 16-bit draw (R97, R102). -/
inductive Rnd where
  | rne
  | sr (draw : Nat)
  deriving DecidableEq, Repr

/-- Quotient of n by d rounded: to nearest even, or up when the draw lies below 65,536 times the
remainder's share (R102). -/
def divRound (r : Rnd) (n d : Nat) : Nat :=
  let k := n / d
  let m := n % d
  match r with
  | .rne => if d < 2 * m || (d = 2 * m && k % 2 = 1) then k + 1 else k
  | .sr draw => if draw < 65536 * m / d then k + 1 else k

/-- The magnitude code of m * 2^e (m > 0) rounded on the format's grid with the exponent range unbounded
above (R98); a code above `maxCode` is an overflow. -/
def FmtSpec.roundCode (f : FmtSpec) (r : Rnd) (m : Nat) (e : Int) : Nat :=
  let lead : Int := (Nat.log2 m : Int) + e
  let emin : Int := 1 - f.bias
  let q : Int := max lead emin - f.fb
  let k := if q ≤ e then m * 2 ^ (e - q).toNat else divRound r m (2 ^ (q - e).toNat)
  -- k lies on the grid 2^q; k = 2^(fb + 1) carries into the next exponent by itself
  if k < 2 ^ f.fb then k
  else ((q + f.fb + f.bias).toNat - 1) * 2 ^ f.fb + k

/-- RNE32 (R114): the value rounded to binary32, an infinity on overflow. -/
def rne32 : Fp → Fp
  | .nan => .nan
  | .inf n => .inf n
  | .fin n 0 _ => .fin n 0 0
  | .fin n m e =>
    let c := fBin32.roundCode .rne m e
    if fBin32.maxCode < c then .inf n else fBin32.decode (c + if n then fBin32.signBit else 0)

/-- The binary32 encoding of a value, rounding to nearest even. -/
def enc32 : Fp → Nat
  | .nan => 0x7FC00000
  | .inf n => 0x7F800000 + if n then 0x80000000 else 0
  | .fin n 0 _ => if n then 0x80000000 else 0
  | .fin n m e =>
    let c := fBin32.roundCode .rne m e
    (if fBin32.maxCode < c then 0x7F800000 else c) + if n then 0x80000000 else 0

def dec32 (c : Nat) : Fp := fBin32.decode (c % 2 ^ 32)

/-- What one conversion to a scalar format gives: the code, and whether a finite value overflowed. -/
structure Conv where
  code : Nat
  overflow : Bool
  deriving DecidableEq, Repr

/-- Conversion to a scalar target (R98, R99, Table 3-7); binary32 follows the SAT = 0 column always. -/
def FmtSpec.convert (f : FmtSpec) (sat : Bool) (r : Rnd) (x : Fp) : Conv :=
  let big (n : Bool) : Nat :=
    if sat && decide (f ≠ fBin32) then f.maxCode + (if n then f.signBit else 0)
    else match f.sp with
      | .e4m3 => 0x7F
      | _ => f.infCode + if n then f.signBit else 0
  match x with
  | .nan => ⟨f.nanCode, false⟩
  | .inf n => ⟨big n, false⟩
  | .fin n 0 _ => ⟨if n then f.signBit else 0, false⟩
  | .fin n m e =>
    let c := f.roundCode r m e
    if f.maxCode < c then ⟨big n, true⟩ else ⟨c + if n then f.signBit else 0, false⟩

/-- The formats of Table 3-1, with the twin pair of R110. -/
inductive Fmt where
  | b32
  | b16
  | bf16
  | e4m3
  | e5m2
  | mx8e4m3
  | mx8e5m2
  | mx6e3m2
  | mx6e2m3
  | mx4
  | mxint8
  | pair
  deriving DecidableEq, Repr

/-- The encoding of a scalar format's elements, or of an MX format's; MXINT8 and pairs have none. -/
def Fmt.spec : Fmt → FmtSpec
  | .b32 => fBin32
  | .b16 => fBin16
  | .bf16 => fBf16
  | .e4m3 => fE4m3
  | .e5m2 => fE5m2
  | .mx8e4m3 => fE4m3
  | .mx8e5m2 => fE5m2
  | .mx6e3m2 => fE3m2
  | .mx6e2m3 => fE2m3
  | .mx4 => fE2m1
  | .mxint8 => fE2m1
  | .pair => fBin32

def Fmt.isMx : Fmt → Bool
  | .mx8e4m3 | .mx8e5m2 | .mx6e3m2 | .mx6e2m3 | .mx4 | .mxint8 => true
  | _ => false

/-- Element width in bits (Table 3-1; a twin pair takes 64). -/
def Fmt.width : Fmt → Nat
  | .b32 => 32
  | .b16 | .bf16 => 16
  | .e4m3 | .e5m2 | .mx8e4m3 | .mx8e5m2 | .mxint8 => 8
  | .mx6e3m2 | .mx6e2m3 => 6
  | .mx4 => 4
  | .pair => 64

/-- The value of one element's bits, before any block scale (R78, R83, R85). -/
def Fmt.value (f : Fmt) (c : Nat) : Fp :=
  match f with
  | .mxint8 => (Fp.ofInt (signed 8 (c % 256))).scale (-6)
  | f => f.spec.decode (c % 2 ^ f.width)

/-- The value of an MX element under scale byte X (R83, R88). -/
def mxValue (f : Fmt) (x c : Nat) : Fp :=
  if x = 0xFF then .nan else (f.value c).scale ((x : Int) - 127)

/-- The bits of element i of a packed array that starts at bit 0 of the bytes (Table 3-5). -/
def elemBits (f : Fmt) (l : List Byte) (i : Nat) : Nat :=
  let b := i * f.width
  (fieldAt l (b / 8) ((b % 8 + f.width + 7) / 8) >>> (b % 8)) % 2 ^ f.width

/-- The element codes packed into bytes, element 0 in the lowest bits. -/
def packElems (f : Fmt) (cs : List Nat) : List Byte :=
  let v := (cs.zipIdx).foldl (fun a p => a + (p.1 % 2 ^ f.width) * 2 ^ (p.2 * f.width)) 0
  leBytes (ceilDiv (cs.length * f.width) 8) v

/-- One product as it enters an accumulation (R90, R91): exact in range, on the subnormal grid below
2^-126, an infinity above the largest finite value. -/
def product (a b : Fp) : Fp := rne32 (a.mul b)

/-- The two BF16 pieces of a binary32 operand (R94, R95). A finite operand that would round past BF16's largest value takes that
value for h, so that R95's bound holds (log 72). -/
def splitHi (x : Fp) : Fp :=
  if x.isFin then fBf16.decode (fBf16.convert true .rne x).code else x

def splitLo (x : Fp) : Fp :=
  match splitHi x with
  | .fin n m e =>
    if x.isFin then fBf16.decode (fBf16.convert false .rne (x.sub (.fin n m e))).code else .zero
  | _ => .zero

/-- The entry of one pass of the split (R94): h h, h l, l h. An infinite or NaN operand enters its product once, by R92 (R95). -/
def splitEntry (pass : Nat) (a b : Fp) : Fp :=
  if a.isFin && b.isFin then
    match pass with
    | 0 => product (splitHi a) (splitHi b)
    | 1 => product (splitHi a) (splitLo b)
    | _ => product (splitLo a) (splitHi b)
  else if pass = 0 then product a b else .zero

/-- ⌊log2⌋ of a non-zero magnitude. -/
def Fp.lead : Fp → Int
  | .fin _ m e => (Nat.log2 m : Int) + e
  | _ => 0

/-- m of R100. -/
def Fmt.mxTop : Fmt → Int
  | .mx8e4m3 => 8
  | .mx8e5m2 => 15
  | .mx6e3m2 => 4
  | .mx6e2m3 => 2
  | .mx4 => 2
  | _ => 0

/-- The scale byte of an MX block of values (R100): `none` when any value is NaN or an infinity. -/
def mxScale (f : Fmt) (xs : List Fp) : Option Nat :=
  let rs := xs.map rne32
  if rs.all Fp.isFin then
    let a := rs.foldl (fun acc x => if acc.lt x.abs then x.abs else acc) Fp.zero
    if a.isZero then some 0
    else
      let k := max (-127) (min 127 (a.lead - f.mxTop))
      some (k + 127).toNat
  else none

/-- Whether a block's largest magnitude is 0 (R100). -/
def mxZero (xs : List Fp) : Bool := (xs.map rne32).all Fp.isZero

/-- One element of an MX conversion under exponent k (R101): it saturates always. -/
def mxElem (f : Fmt) (k : Int) (r : Rnd) (x : Fp) : Conv :=
  match f, x with
  | .mxint8, .fin n m e =>
    let e6 := e - k + 6
    let v := if 0 ≤ e6 then m * 2 ^ e6.toNat else divRound r m (2 ^ (-e6).toNat)
    let w := min v 127
    ⟨twos 8 (if n then -(w : Int) else w), decide (127 < v)⟩
  | f, x => f.spec.convert true r (x.scale (-k))

/-- A signed zero element (R100): MXINT8 has no -0 (R81). -/
def mxZeroElem (f : Fmt) (x : Fp) : Nat :=
  match f with
  | .mxint8 => 0
  | f => if x.negB then f.spec.signBit else 0

/-! Twin pairs (chapter 4). -/

/-- A twin pair's encodings (R109, R110). -/
structure Pair32 where
  s : Nat
  e : Nat
  deriving DecidableEq, Repr

def Pair32.zero : Pair32 := ⟨0, 0⟩

def Pair32.ofBytes (l : List Byte) : Pair32 := ⟨fieldAt l 0 4, fieldAt l 4 4⟩

def Pair32.bytes (p : Pair32) : List Byte := leBytes 4 p.s ++ leBytes 4 p.e

/-- Whether a pair is one that R112 takes as NaN: finite s with an infinite or NaN e. -/
def Pair32.bad (p : Pair32) : Bool := (dec32 p.s).isFin && !(dec32 p.e).isFin

/-- The pair as a computing unit takes it (R112). -/
def Pair32.take (p : Pair32) : Fp × Fp :=
  let s := dec32 p.s
  if p.bad then (.nan, .zero)
  else if s.isFin then (s, dec32 p.e) else (s, .zero)

/-- A computed pair with whether R115's overflow arose. -/
structure PairOp where
  s : Fp
  e : Fp
  overflow : Bool
  deriving DecidableEq, Repr

def PairOp.code (p : PairOp) : Pair32 := ⟨enc32 p.s, enc32 p.e⟩

/-- The steps common to R114, R123 and R131: s1 and its error term e1 renormalised; `exact` gives the sign of
an overflow (R115). -/
def renorm (s1 e1 exact : Fp) : PairOp :=
  if s1.isFin && e1.isFin then
    let s := rne32 (s1.add e1)
    if s.isFin then ⟨s, (s1.add e1).sub s, false⟩ else ⟨.inf exact.negB, .zero, true⟩
  else ⟨.inf exact.negB, .zero, true⟩

/-- add_entry of R114, with R115 and R117; where s + p overflows, the infinity takes its sign (log 72). -/
def addEntry (s e p : Fp) : PairOp :=
  if s.isFin && p.isFin then
    let s1 := rne32 (s.add p)
    if s1.isFin then renorm s1 (rne32 (e.add ((s.add p).sub s1))) ((s.add p).add e)
    else ⟨s1, .zero, true⟩
  else ⟨rne32 (s.add p), .zero, false⟩

/-- merge of R123; where sa + sb overflows, the infinity takes its sign (log 72). -/
def mergePair (sa ea sb eb : Fp) : PairOp :=
  if sa.isFin && sb.isFin then
    let s1 := rne32 (sa.add sb)
    if s1.isFin then
      renorm s1 (rne32 ((rne32 (ea.add eb)).add ((sa.add sb).sub s1))) ((sa.add sb).add (ea.add eb))
    else ⟨s1, .zero, true⟩
  else ⟨rne32 (sa.add sb), .zero, false⟩

/-- mul_pair of R131, with R132. -/
def mulPair (s e x : Fp) : PairOp :=
  if s.isFin && x.isFin then
    let h := rne32 (s.mul x)
    if h.isFin then renorm h (rne32 (((s.mul x).sub h).add (rne32 (e.mul x)))) ((s.add e).mul x)
    else ⟨h, .zero, true⟩
  else ⟨rne32 (s.mul x), .zero, false⟩

/-- The exact value of a taken pair (R96). -/
def pairValue (p : Fp × Fp) : Fp := if p.1.isFin then p.1.add p.2 else p.1

/-! The stochastic-rounding generator (R103, R105). -/

def xorshift (v : Nat) : Nat :=
  let a := v ^^^ ((v <<< 13) % 2 ^ 32)
  let b := a ^^^ (a >>> 17)
  b ^^^ ((b <<< 5) % 2 ^ 32)

/-- The lane states that seed S gives (R105). -/
def seedLanes (s : Nat) : List Nat :=
  (List.range 128).map fun j =>
    let hi := (s >>> 32) % 2 ^ 32
    let r := j % 32
    let rot := ((hi <<< r) ||| (hi >>> (32 - r))) % 2 ^ 32
    let v := (s % 2 ^ 32) ^^^ rot ^^^ (((j + 1) * 0x9E3779B9) % 2 ^ 32)
    if v = 0 then 1 else v

end Sys2Proof.Machine
end

