-- ==== Sys2Proof/Machine/TileState.lean ====
section
/-! DEFINITION. State of a tile (chapters 5 and 6). Every field's default is its value at reset; the
generator lanes are seeded with the tile's number (`tileReset`). The operand and accumulator stores lie
in `Mem`. -/

namespace Sys2Proof.Machine

/-- One 64-byte entry of a feeder queue or hold buffer (R142, R146): the number of its FEED, its format code, its number in
the row of its FEED, and that FEED's scales for the row. -/
structure FeedEntry where
  feed : Nat
  fmt : Nat
  idx : Nat
  data : List Byte
  scales : List Nat
  deriving DecidableEq, Repr

/-- The feeder queue and hold buffer of one array row (R286): the entries held, those being fetched, and those moved into
the hold buffer. `committed` gives the format of each entry that a dispatched FEED has committed and no dispatched HOLD has
taken (R179), `holdN` the entries that the last dispatched HOLD leaves (R180). -/
structure RowState where
  queue : List FeedEntry := []
  fly : List FeedEntry := []
  hold : List FeedEntry := []
  committed : List Nat := []
  holdN : Nat := 0
  deriving DecidableEq, Repr

/-- The free slots E of a row's queue (R286). -/
def RowState.free (r : RowState) : Nat := 16 - (r.queue.length + r.fly.length)

/-- An entry of the stream buffer: the instruction it was fetched for and what its issue step brings, up to 128 bytes
(R140, R149). -/
structure StreamEntry where
  id : Nat
  data : List Byte
  deriving DecidableEq, Repr

/-- An entry of the scale queue: the scales of one block of 32, a byte per column, or one byte for a CONV (R148, R149, R182). -/
structure ScaleEntry where
  id : Nat
  data : List Nat
  deriving DecidableEq, Repr

/-- A glaze descriptor (Table 6-8); addresses and pitches in 32-byte units. -/
structure Glaze where
  op : Nat := 0
  opFmt : Nat := 0
  opAddr : Nat := 0
  opPitch : Nat := 0
  scaleEn : Nat := 0
  scaleAddr : Nat := 0
  outFmt : Nat := 0
  outAddr : Nat := 0
  outPitch : Nat := 0
  sat : Nat := 0
  rnd : Nat := 0
  outScale : Nat := 0
  deriving DecidableEq, Repr

/-- The fault record (Table 6-16). -/
structure FaultRec where
  code : Nat := 0
  pc : Nat := 0
  unit : Nat := 0
  replayId : Nat := 0
  second : Nat := 0
  tick : Nat := 0
  instr : Nat := 0
  detail : Nat := 0
  fabricStatus : Nat := 0
  loopLeft : List Nat := []
  rebase : List Nat := [0, 0, 0]
  deriving DecidableEq, Repr

/-- One level of the loop stack (R172): the body's first and last PC, passes not yet begun, the recorded
B1-B3 and the steps. -/
structure LoopFrame where
  first : Nat
  last : Nat
  left : Nat
  saved : List Nat
  steps : List Nat
  deriving DecidableEq, Repr

/-- A replay in progress (R198). -/
structure Replay where
  id : Nat
  last : Nat
  ret : Nat
  rebA : Nat
  rebB : Nat
  ext : Nat
  depth : Nat
  deriving DecidableEq, Repr

/-- The lines of a LOAD or STORE (R175): fabric address and memory key of line 0 of row 0, row pitches in bytes, lines
per row and in all, lines issued and returned, and the key and job its accesses carry. `cut` says that a fault
stopped its issue or was its own (R200). -/
structure Move where
  ext : Nat
  extPitch : Nat
  os : Nat
  osPitch : Nat
  lines : Nat
  total : Nat
  next : Nat := 0
  back : Nat := 0
  key : Nat
  job : Nat
  cut : Bool := false
  deriving DecidableEq, Repr

/-- A SEND or RECV (R188): partner, channel, memory key, length in bytes, MERGE. `posted` says that a receive stands
on its channel, `met` that the rendezvous was made. -/
structure Transfer where
  partner : Nat
  chan : Nat
  addr : Nat
  len : Nat
  merge : Bool := false
  posted : Bool := false
  met : Bool := false
  deriving DecidableEq, Repr

/-- An instruction dispatched and not complete. `cls` is its FENCE class (R196): 0 ARRAY, 1 LOCAL, 2 MESH,
3 FABRIC. `ra` and `rb` are its rebase sums, `glaze` its copy of a descriptor (R171, R183).
Of a FEED, `issued` counts the fetches issued, in the order of its rounds; of a HOLD, `issued` the entries moved and `fmt` their
format; of an MMA or CONV, `issued` the issue steps and `fetched` and `scaled` the stream and scale entries fetched; `total` is what
`issued` comes to. `loaded` are the rows in the load latches and `latched` those in the drain latches not yet read out, `since` the
steps since its last issue step and `outRows` the rows read out (R156, R158). `laneDone` of `laneRows` rows have passed the element
lanes; `acc` holds what a column operation has gathered and `cs` the column scales a glaze has read (R159, R187). -/
structure Inflight where
  id : Nat
  unit : Nat
  cls : Nat
  pc : Nat
  word : Nat
  replayId : Nat
  token : Nat
  ra : Nat := 0
  rb : Nat := 0
  glaze : Glaze := {}
  fmt : Nat := 0
  total : Nat := 0
  issued : Nat := 0
  fetched : Nat := 0
  scaled : Nat := 0
  loaded : List (List Pair32) := []
  latched : List (List Pair32) := []
  since : Nat := 0
  outRows : Nat := 0
  laneRows : Nat := 0
  laneDone : Nat := 0
  acc : List Pair32 := []
  cs : Option (List Byte) := none
  move : Option Move := none
  xfer : Option Transfer := none
  deriving DecidableEq, Repr

/-- A WAIT whose tokens have not come (R191, R192). -/
structure TileWait where
  token : Nat
  count : Nat
  due : Option Nat
  deriving DecidableEq, Repr

/-- A SIGNAL with AFTER = 1 that waits for earlier instructions (R193). -/
structure AfterSignal where
  dest : Nat
  token : Nat
  count : Nat
  waits : List Nat
  deriving DecidableEq, Repr

inductive TileSt where
  | idle
  | running
  | faulted
  deriving DecidableEq, Repr

/-- The code of a state in results (R514). -/
def tileStCode : TileSt → Nat
  | .idle => 0
  | .running => 1
  | .faulted => 2

/-- A tile. `stream` is the stream buffer of 64 entries and `scaleQ` the scale queue of 16 (R134); `sinceDrain` counts the steps
since the last issue step of the last draining instruction, up to 128 (R157). -/
structure Tile where
  st : TileSt := .idle
  pc : Nat := 0
  imem : Tab Nat := []
  progLen : Nat := 0
  b1 : Nat := 0
  b2 : Nat := 0
  b3 : Nat := 0
  loops : List LoopFrame := []
  replay : Option Replay := none
  ranges : Tab (Nat × Nat) := []
  glazes : Tab Glaze := []
  tokens : Tab Nat := []
  bases : Tab (Nat × Nat) := []
  faultRec : FaultRec := {}
  starter : Nat := 0
  ending : Bool := false
  nextId : Nat := 0
  inflight : List Inflight := []
  wait : Option TileWait := none
  after : List AfterSignal := []
  rows : Tab RowState := []
  holdFmt : Option Nat := none
  stream : List StreamEntry := []
  scaleQ : List ScaleEntry := []
  sinceDrain : Nat := 128
  cells : Tab Pair32 := []
  lanes : List Nat := []
  gauge : Nat := 64
  laneGauge : Nat := 64
  interval : Nat := 0
  laneInterval : Nat := 0
  convOverflow : Nat := 0
  nanOut : Nat := 0
  accOverflow : Nat := 0
  timeouts : Nat := 0
  late : Nat := 0
  duplicates : Nat := 0
  shortfall : Tab Nat := []
  deriving DecidableEq, Repr

end Sys2Proof.Machine
end

