-- ==== Sys2Proof/Machine/State.lean ====
section
/-! DEFINITION. The state of the whole module, its reset value, and the ways a command can stop. -/

namespace Sys2Proof.Machine

/-- Why a command stops the machine. No meaning raises one: an error of the module is an effect on its state
(a fault record, a status code, an alarm), and the module goes on. -/
inductive Fault where
  /-- Raised by no command. Safe. -/
  | stuck
  deriving DecidableEq, Repr

/-- Why the model turns a command away. -/
inductive Refusal where
  /-- A command whose meaning is not written; raised only by an arm of the dispatch. Safe. -/
  | notModelled (mnemonic : String)
  /-- A command with an operand outside its domain (`Instr.wf`), such as a function other than A and B; it
  names nothing of the module. Raised by every meaning through `ret`. Safe. -/
  | illFormed
  deriving DecidableEq, Repr

/-- Everything of the module but its byte memory, the Tally and the queue of commands. -/
structure Ctl where
  rc : Rc := {}
  power : Power := {}
  alarms : Alarms := {}
  ready : Tab Entry := []
  fnA : Fn := {}
  fnB : Fn := {}
  pairs : Tab Pair := []
  eth : Tab EthPort := []
  jobs : Tab Job := []
  tiles : Tab Tile := []
  stackTab : Tab Stack := []
  chans : Tab DmaChan := []
  cqs : Tab DmaCq := []
  links : Tab D2dLink := []
  guest : Guest := {}
  router : Router := {}
  fabric : Fabric := {}
  optics : Optics := {}
  colls : Colls := {}
  serve : Serve := {}
  deriving DecidableEq, Repr

/-- The module. -/
structure State where
  ctl : Ctl
  mem : Mem
  tally : Tally
  pending : List Instr
  deriving DecidableEq, Repr

/-- The module before its first cold start (R566): no supply, no memory content, no command. -/
def State.reset : State := { ctl := {}, mem := Mem.empty, tally := {}, pending := [] }

end Sys2Proof.Machine
end

