-- ==== Sys2Proof/Machine/Ops.lean ====
section
/-! DEFINITION. The shared operations: the world a meaning works on, readiness entries, interrupts, events,
messages of the mailbox pairs and of Ethernet, and the free values. -/

namespace Sys2Proof.Machine

/-- What a meaning works on: the module but its Tally and queue, and memory under change. `ty` is the Tally as
the readout path shows it; a meaning only reads it. -/
structure W where
  c : Ctl
  b : Buf
  ty : Tally

def W.on (f : Ctl → Ctl) (w : W) : W := { w with c := f w.c }

/-- Answer a next state where the operands are in the command's domain, else refuse. -/
def ret (ok : Bool) (s : State) : Host.Outcome State Fault Refusal :=
  if ok then .next s else .refused .illFormed

namespace Ctl

def tick (c : Ctl) : Nat := c.power.tick

/-- The next value the spec leaves open, and the controller that has used it (log 2). -/
def fresh (c : Ctl) : Nat × Ctl :=
  (Config.freeValue c.rc.freeCtr, { c with rc := { c.rc with freeCtr := c.rc.freeCtr + 1 } })

/-- A 256-bit draw from the RC's random source (R410, R519). -/
def draw (c : Ctl) : BitVec 256 × Ctl :=
  (Config.random c.rc.freeCtr, { c with rc := { c.rc with freeCtr := c.rc.freeCtr + 1 } })

def entry (c : Ctl) (i : Nat) : Entry := c.ready.getD i {}
def tile (c : Ctl) (n : Nat) : Tile := c.tiles.getD n { lanes := seedLanes n }
def stack (c : Ctl) (n : Nat) : Stack := c.stackTab.getD n {}
def pair (c : Ctl) (n : Nat) : Pair := c.pairs.getD n {}
def port (c : Ctl) (n : Nat) : RPort := c.router.ports.getD n {}
def oport (c : Ctl) (n : Nat) : OPort := c.optics.ports.getD n {}
def link (c : Ctl) (n : Nat) : D2dLink := c.links.getD n {}
def ethPort (c : Ctl) (n : Nat) : EthPort := c.eth.getD n {}
/-- The module is locked from A2 until SEC_UNLOCK clears it (R603 to R605). -/
def locked (c : Ctl) : Bool := c.alarms.a2

def fn (c : Ctl) (f : Nat) : Fn := if f = 0 then c.fnA else c.fnB

def setEntry (i : Nat) (e : Entry) (c : Ctl) : Ctl := { c with ready := Tab.set i e c.ready }
def setTile (n : Nat) (t : Tile) (c : Ctl) : Ctl := { c with tiles := Tab.set n t c.tiles }
def updTile (n : Nat) (f : Tile → Tile) (c : Ctl) : Ctl := c.setTile n (f (c.tile n))
def setStack (n : Nat) (t : Stack) (c : Ctl) : Ctl := { c with stackTab := Tab.set n t c.stackTab }
def updStack (n : Nat) (f : Stack → Stack) (c : Ctl) : Ctl := c.setStack n (f (c.stack n))
def setPair (n : Nat) (p : Pair) (c : Ctl) : Ctl := { c with pairs := Tab.set n p c.pairs }
def updPair (n : Nat) (f : Pair → Pair) (c : Ctl) : Ctl := c.setPair n (f (c.pair n))
def updPort (n : Nat) (f : RPort → RPort) (c : Ctl) : Ctl :=
  { c with router := { c.router with ports := Tab.upd n {} f c.router.ports } }
def updOPort (n : Nat) (f : OPort → OPort) (c : Ctl) : Ctl :=
  { c with optics := { c.optics with ports := Tab.upd n {} f c.optics.ports } }
def updLink (n : Nat) (f : D2dLink → D2dLink) (c : Ctl) : Ctl := { c with links := Tab.upd n {} f c.links }
def updEth (n : Nat) (f : EthPort → EthPort) (c : Ctl) : Ctl := { c with eth := Tab.upd n {} f c.eth }
def updFn (f : Nat) (g : Fn → Fn) (c : Ctl) : Ctl :=
  if f = 0 then { c with fnA := g c.fnA } else { c with fnB := g c.fnB }
def onRc (f : Rc → Rc) (c : Ctl) : Ctl := { c with rc := f c.rc }
def onPower (f : Power → Power) (c : Ctl) : Ctl := { c with power := f c.power }
def onAlarms (f : Alarms → Alarms) (c : Ctl) : Ctl := { c with alarms := f c.alarms }
def onFabric (f : Fabric → Fabric) (c : Ctl) : Ctl := { c with fabric := f c.fabric }
def onRouter (f : Router → Router) (c : Ctl) : Ctl := { c with router := f c.router }
def onColls (f : Colls → Colls) (c : Ctl) : Ctl := { c with colls := f c.colls }
def onServe (f : Serve → Serve) (c : Ctl) : Ctl := { c with serve := f c.serve }

/-- This module's own number (R408). -/
def selfModule (c : Ctl) : Nat := (c.router.plan.map (·.self)).getD 0xFFFF

/-- The state and reason an entry shows (R563): SEALED before every other. -/
def shown (c : Ctl) (i : Nat) : Nat × Nat :=
  let e := c.entry i
  if e.sealed != 0 then (5, e.sealed) else (e.st, e.reason)

def stateOf (c : Ctl) (i : Nat) : Nat := (c.shown i).1

/-- A function is usable while READY or DEGRADED (R45, R562). -/
def usable (c : Ctl) (i : Nat) : Bool := c.stateOf i = 2 || c.stateOf i = 3

/-! Remote datagrams and Ethernet output. -/

/-- Hand a datagram to Ethernet port p (R558): a port that is not READY takes nothing. -/
def ethSend (p addr udp : Nat) (b : List Byte) (c : Ctl) : Ctl :=
  if c.stateOf (52 + p) = 2 then
    c.updEth p fun e => { e with out := e.out ++ [(addr, udp, b)], framesTx := e.framesTx + 1 }
  else c

/-- Whether a UDP datagram can reach the RC through port p: it is READY and has an IPv4 address (R555, R558). -/
def ethIn (p : Nat) (c : Ctl) : Bool := c.stateOf (52 + p) = 2 && (c.ethPort p).cfg.ip != 0

/-- The RC takes the oldest received UDP frame out of the buffer of port p (R557). -/
def ethTake (p : Nat) (c : Ctl) : Ctl := c.updEth p fun e => { e with rxQ := e.rxQ.drop 1 }

/-- Send a datagram of an open remote session (R537): the next DGRAM_SEQ, the TAG under SK. -/
def remoteSend (n type ack : Nat) (units : List Byte) (c : Ctl) : Ctl :=
  let p := c.pair n
  match p.remote with
  | none => c
  | some r =>
    let sid := (p.session.map (·.id)).getD 0
    (c.updPair n fun p => { p with remote := some { r with txSeq := r.txSeq + 1 } }).ethSend r.port r.addr r.udp
      (dgramBytes type sid r.txSeq ack units (some r.key))

/-! Messages to a pair. -/

/-- (a - b) modulo 2^32. -/
def diff32 (a b : Nat) : Nat := (a + 2 ^ 32 - b % 2 ^ 32) % 2 ^ 32

def add32 (a b : Nat) : Nat := (a + b) % 2 ^ 32

/-- PHASE of ring unit n of a ring of N units (R512). -/
def phaseOf (n size : Nat) : Nat := (n / size + 1) % 2

/-- Write an event message on a PCIe pair where its ring has room, else count it lost (R536). -/
def evtToRing (n : Nat) (m : Msg) (c : Ctl) : Ctl :=
  let p := c.pair n
  if m.units ≤ p.evtN - diff32 p.evtPi p.evtCi then
    let c := c.updPair n fun p => { p with
      evtMsgs := Tab.set (p.evtPi % p.evtN) { m with phase := phaseOf p.evtPi p.evtN } p.evtMsgs
      evtPi := add32 p.evtPi m.units }
    c.updFn p.fn (Fn.setMbx n)
  else
    c.updPair n fun p => { p with lost := p.lost + 1, lostFirst := if p.lost = 0 then m.seq else p.lostFirst }

/-- Send an event on a remote pair: at most 256 are unacknowledged (R541). -/
def evtToRemote (n : Nat) (m : Msg) (c : Ctl) : Ctl :=
  match (c.pair n).remote with
  | none => c
  | some r =>
    if r.unacked.length < 256 then
      (c.updPair n fun p => { p with
        remote := some { r with unacked := r.unacked ++ [(m.seq, c.tick + 10000000, m)] } }).remoteSend n 0x12 0 m.bytes
    else
      c.updPair n fun p => { p with lost := p.lost + 1, lostFirst := if p.lost = 0 then m.seq else p.lostFirst }

/-- Write an event to pair n: it takes the pair's next EVENT_SEQ (R535, R536). -/
def evtWrite (n code : Nat) (body : List Byte) (c : Ctl) : Ctl :=
  let p := c.pair n
  let m : Msg := ⟨true, code, p.evtSeq, 0, 0, 0, c.tick, body, 0⟩
  let c := c.updPair n fun p => { p with evtSeq := add32 p.evtSeq 1 }
  if p.remote.isSome then c.evtToRemote n m else c.evtToRing n m

/-- EVENTS_LOST, once there is room for two messages (R536). -/
def evtsLost (n : Nat) (c : Ctl) : Ctl :=
  let p := c.pair n
  let room := match p.remote with
    | some r => decide (r.unacked.length + 2 ≤ 256)
    | none => decide (2 ≤ p.evtN - diff32 p.evtPi p.evtCi)
  if 0 < p.lost && room && p.session.isSome then
    (c.updPair n fun p => { p with lost := 0 }).evtWrite n 0x0102 (encode [.n 4 p.lost, .n 4 p.lostFirst])
  else c

/-- Whom an event is for: the roles named, the TENANT sessions of jobs, and the session that started or created
the object with the object's job (R535). -/
structure To where
  owner : Bool := false
  fabric : Bool := false
  verifier : Bool := false
  tenant : List Nat := []
  starter : Option (Nat × Nat) := none

/-- Whether a session of that number is open. -/
def sessionOpen (c : Ctl) (id : Nat) : Bool := c.pairs.vals.any fun p => p.session.any (·.id = id)

def To.entitled (t : To) (starterOpen : Bool) (s : Session) : Bool :=
  (t.owner && s.role = 0) || (t.fabric && s.role = 2) || (t.verifier && s.role = 3)
    || (s.role = 1 && t.tenant.any s.jobs.contains)
    || (match t.starter with
        | some (id, job) => if starterOpen then s.id = id else s.role = 1 && s.jobs.contains job
        | none => false)

/-- An event: one message on the ring of every open session entitled to it, and an entry in the event log of the
last 1,024 (R535). -/
def event (code : Nat) (body : List Byte) (t : To) (c : Ctl) : Ctl :=
  let sOpen := (t.starter.map fun x => c.sessionOpen x.1).getD false
  let c' := c.onRc fun r => { r with
    log := lastN 1024 (r.log ++ [⟨r.logSeq, code, c.tick, body⟩]), logSeq := r.logSeq + 1 }
  c.pairs.foldl (fun d (n, p) =>
    match p.session with
    | some s => if t.entitled sOpen s then d.evtWrite n code body else d
    | none => d) c'

/-- Set an INT_STATUS bit in both functions. -/
def intBoth (b : Nat) (c : Ctl) : Ctl := { c with fnA := c.fnA.setInt b, fnB := c.fnB.setInt b }

/-! Readiness. -/

/-- The jobs that use the function of an entry (R564). -/
def jobsUsing (c : Ctl) (i : Nat) : List Nat :=
  c.jobs.keys.filter fun j =>
    if 3 ≤ i && i ≤ 6 then (c.jobs.get? j).any fun x => x.tiles.any fun t => t / 48 = i - 3
    else if 7 ≤ i && i ≤ 14 then
      (c.fabric.regions.vals.any fun r => r.job = j && r.space = 2 && stackOf r.base = i - 7)
        || ((c.stack (i - 7)).queues.vals.any (·.job = j))
    else if i = 17 then c.colls.colls.vals.any (·.a.job = j) || c.colls.pipes.vals.any (·.a.job = j)
    else if i = 18 then c.chans.vals.any (·.job = j)
    else if i = 19 then c.serve.model.any (·.a.job = j)
    else if 20 ≤ i && i ≤ 51 then
      (c.router.tables.get? j).any fun t => (t.plus ++ t.minus).any fun m => bit m (i - 20)
    else if i = 1 || i = 2 then c.chans.vals.any fun d => d.job = j && (d.fn = i - 1 || bit d.ports (i - 1))
    else i = 0

/-- What a change of an entry sends: READINESS_CHANGE, and for a change of STATE the count and the interrupt
bit (R564). `old` and `new` are shown states and reasons. -/
def changed (i : Nat) (old new : Nat × Nat) (c : Ctl) : Ctl :=
  if old = new then c
  else
    let c := if old.1 = new.1 then c
      else (c.setEntry i { c.entry i with count := inc8 (c.entry i).count }).intBoth 0
    c.event 0x0101 (encode [.n 1 i, .n 1 old.1, .n 1 new.1, .n 1 new.2])
      { owner := true, fabric := true, tenant := c.jobsUsing i }

/-- Give an entry a state and reason, at once. -/
def postNow (i st reason : Nat) (c : Ctl) : Ctl :=
  let c' := c.setEntry i { c.entry i with st, reason }
  c'.changed i (c.shown i) (c'.shown i)

/-- Give an entry a state and reason; while its function restarts the change is taken after the restart
(R573). -/
def post (i st reason : Nat) (c : Ctl) : Ctl :=
  if (c.entry i).restarting then c.setEntry i { c.entry i with deferred := some (st, reason) }
  else c.postNow i st reason

/-- Withhold an entry by an alarm (R570): reason 0x15 A2, 0x16 gesso, 0x17 Tally seal alarm. -/
def sealUp (i reason : Nat) (c : Ctl) : Ctl :=
  let c' := c.setEntry i { c.entry i with sealed := reason }
  c'.changed i (c.shown i) (c'.shown i)

def release (i : Nat) (c : Ctl) : Ctl := c.sealUp i 0

/-- End a restart: the state the restart posts, then what waited (R572, R573). -/
def endRestart (i st reason : Nat) (c : Ctl) : Ctl :=
  let e := c.entry i
  let c := (c.setEntry i { e with restarting := false, deferred := none }).postNow i st reason
  match e.deferred with
  | some (s, r) => c.postNow i s r
  | none => c

/-- READY_ENTRY[i] (Table 17-2). -/
def readyWord (c : Ctl) (i : Nat) : Nat := (c.entry i).count * 2 ^ 24 + (c.shown i).2 * 2 ^ 16 + (c.shown i).1

/-! Responses. -/

/-- Write a response on a PCIe pair, or hold it while its ring is full (R512, R527). -/
def rspToRing (n : Nat) (m : Msg) (c : Ctl) : Ctl :=
  let p := c.pair n
  if p.held.isEmpty && decide (m.units ≤ p.rspN - diff32 p.rspPi p.rspCi) then
    let c := c.updPair n fun p => { p with
      rspMsgs := Tab.set (p.rspPi % p.rspN) { m with phase := phaseOf p.rspPi p.rspN } p.rspMsgs
      rspPi := add32 p.rspPi m.units }
    c.updFn p.fn (Fn.setMbx n)
  else c.updPair n fun p => { p with held := p.held ++ [m] }

/-- Send a response on a remote pair; the 64 latest are kept (R540). -/
def rspToRemote (n : Nat) (m : Msg) (c : Ctl) : Ctl :=
  match (c.pair n).remote with
  | none => c
  | some r =>
    (c.updPair n fun p => { p with remote := some { r with sent := lastN 64 (r.sent ++ [(m.seq, m)]) } }).remoteSend
      n 0x11 0 m.bytes

/-- The one response of a command. -/
def respond (n op seq corr status detail : Nat) (body : List Byte) (c : Ctl) : Ctl :=
  let m : Msg := ⟨false, op, seq, corr, status, detail, c.tick, body, 0⟩
  match (c.pair n).remote with
  | some _ => c.rspToRemote n m
  | none => c.rspToRing n m

/-- Write the held responses that fit, in order (R527). -/
def drainHeld : Nat → Nat → Ctl → Ctl
  | 0, _, c => c
  | f + 1, n, c =>
    let p := c.pair n
    match p.held with
    | [] => c
    | m :: t =>
      if m.units ≤ p.rspN - diff32 p.rspPi p.rspCi then
        drainHeld f n (((c.updPair n fun p => { p with held := [] }).rspToRing n m).updPair n fun p => { p with held := t })
      else c

/-- A pair leaves use (R509): its session ends, and the responses of commands still executing are discarded. -/
def unbind (n : Nat) (c : Ctl) : Ctl :=
  { c with
    pairs := Tab.del n c.pairs
    rc := { c.rc with waits := c.rc.waits.map fun w => if w.pair = some n then { w with pair := none } else w } }

/-- A session of a pair ends; what its role started stays. -/
def endSession (n : Nat) (c : Ctl) : Ctl := c.updPair n fun p => { p with session := none, st := .negotiated }

/-- Complete the started commands that wait for what f names: the response of each, in order. -/
def finish (f : WaitFor → Option (Nat × List Byte)) (c : Ctl) : Ctl :=
  let hit := c.rc.waits.filter fun w => (f w.what).isSome
  let c := c.onRc fun r => { r with waits := r.waits.filter fun w => (f w.what).isNone }
  hit.foldl (fun c w =>
    match w.pair, f w.what with
    | some n, some (st, body) =>
      (c.updPair n fun p => { p with started := p.started - 1 }).respond n w.op w.seq w.corr st 0 body
    | _, _ => c) c

/-- Complete the commands that wait for one thing. -/
def finishOne (x : WaitFor) (status : Nat) (body : List Byte) (c : Ctl) : Ctl :=
  c.finish fun y => if y = x then some (status, body) else none

/-! Jobs. -/

def jobLive (c : Ctl) (j : Nat) : Bool := c.jobs.has j

def jobEnding (c : Ctl) (j : Nat) : Bool := (c.jobs.get? j).any (·.ending)

/-- The job a tile belongs to. -/
def jobOfTile (c : Ctl) (t : Nat) : Option Nat := (c.jobs.find? fun p => p.2.tiles.contains t).map (·.1)

end Ctl

end Sys2Proof.Machine
end

