-- ==== Sys2Proof/Machine/TileMath.lean ====
section
/-! DEFINITION. What the array, the glaze and the element lanes of a tile compute, over the tile and the
memory (chapters 3 to 6). -/

namespace Sys2Proof.Machine

/-- Table 6-3. -/
def fmtOf : Nat → Option Fmt
  | 0 => some .e4m3
  | 1 => some .e5m2
  | 2 => some .b16
  | 3 => some .bf16
  | 4 => some .b32
  | 5 => some .pair
  | 6 => some .mx8e4m3
  | 7 => some .mx8e5m2
  | 8 => some .mx6e3m2
  | 9 => some .mx6e2m3
  | 10 => some .mx4
  | 11 => some .mxint8
  | _ => none

def fmtD (c : Nat) : Fmt := (fmtOf c).getD .e4m3

def isMxCode (c : Nat) : Bool := 6 ≤ c && c ≤ 11

/-- The held and streamed formats of Table 3-2: every format but the twin pair. -/
def isHeldFmt (c : Nat) : Bool := c ≤ 4 || isMxCode c

/-- The formats the element path reads (Table 3-2). -/
def isEwFmt (c : Nat) : Bool := c ≤ 4

/-- The operand pairs of Table 3-6. -/
def pairOk (h v : Nat) : Bool :=
  (isMxCode h && isMxCode v) || (h ≤ 1 && v ≤ 1) || (h = v && (h = 2 || h = 3 || h = 4))

/-- Issue steps for K (Table 5-2). -/
def issueSteps (h v k : Nat) : Nat :=
  if h = 10 && v = 10 then k / 2 else if h = 4 then 6 * k else if h = 2 || h = 3 then 2 * k else k

/-- Bytes of n elements. -/
def fmtBytes (c n : Nat) : Nat := ceilDiv (n * (fmtD c).width) 8

/-- Entries per row that a FEED of the format may fetch (R177). -/
def feedCap (c : Nat) : Nat :=
  if c = 2 || c = 3 || c = 4 then 16 else if c = 8 || c = 9 then 6 else if c = 10 then 4 else 8

/-- Elements in n 64-byte entries. -/
def entryElems (c n : Nat) : Nat := n * 512 / (fmtD c).width

/-- Hold capacity in elements (Table 5-2). -/
def holdCap (c : Nat) : Nat := if c = 4 then 256 else 512

def Tile.row (t : Tile) (i : Nat) : RowState := t.rows.getD i {}

def Tile.cell (t : Tile) (i j : Nat) : Pair32 := t.cells.getD (128 * i + j) Pair32.zero

def Tile.glaze (t : Tile) (d : Nat) : Glaze := t.glazes.getD d {}

def Tile.token (t : Tile) (k : Nat) : Nat := t.tokens.getD k 0

/-- Wrap at 32 bits. -/
def w32 (n : Nat) : Nat := n % 2 ^ 32

/-- What a computation may raise: a fault code and its DETAIL. -/
abbrev TileRes (α : Type) := Except (Nat × Nat) α

/-- Bytes of the operand store, refused when a line is poisoned (R202). -/
def readStore (b : Buf) (base a n : Nat) : TileRes (List Byte) :=
  if b.mem.anyPoison (base + a) n then .error (0x07, a) else .ok (b.mem.readBytes (base + a) n)

/-- The values of n elements of a scalar format. -/
def readVals (c : Nat) (l : List Byte) (n : Nat) : List Fp :=
  (List.range n).map fun i => (fmtD c).value (elemBits (fmtD c) l i)

/-- Element idx of a hold buffer row under format c (R146, R180). -/
def holdElem (c : Nat) (r : RowState) (idx : Nat) : Fp :=
  let f := fmtD c
  let p := idx * f.width
  let e := r.hold.getD (p / 512) ⟨0, c, 0, [], []⟩
  let l := (r.hold.drop (p / 512)).flatMap (·.data)
  let q := p % 512
  let code := (fieldAt l (q / 8) ((q % 8 + f.width + 7) / 8) >>> (q % 8)) % 2 ^ f.width
  if f.isMx then mxValue f (e.scales.getD ((512 * e.idx + q) / (32 * f.width)) 0) code
  else f.value code

/-- What an issue step brings (Table 5-2): its pass of a binary32 split, its first k and how many of them, and the columns its
stream entries serve. A vector of 16-bit or binary32 elements is issued in two halves of 64 columns. -/
structure IssueStep where
  pass : Nat
  k0 : Nat
  kn : Nat
  c0 : Nat
  cn : Nat
  deriving DecidableEq, Repr

def issueStep (h v k s : Nat) : IssueStep :=
  if h = 10 && v = 10 then ⟨0, 2 * s, 2, 0, 128⟩
  else if h = 4 then ⟨s / (2 * k), s % (2 * k) / 2, 1, 64 * (s % 2), 64⟩
  else if h = 2 || h = 3 then ⟨0, s / 2, 1, 64 * (s % 2), 64⟩
  else ⟨0, s, 1, 0, 128⟩

/-- Stream entries that an issue step takes (R140). -/
def entriesPer (h : Nat) : Nat := if h = 4 then 2 else 1

/-- The entry that a cell receives from an issue step (R90, R93, R94), from its held and streamed values. -/
def cellEntry (h v : Nat) (p : IssueStep) (a b : Nat → Fp) : Fp :=
  if h = 10 && v = 10 then rne32 (((a 0).mul (b 0)).add ((a 1).mul (b 1)))
  else if h = 4 then splitEntry p.pass (a 0) (b 0)
  else product (a 0) (b 0)

/-- The new pairs of a row's columns from c0, and the counts of ACC_OVERFLOW and NAN_OUT they add (R112, R114 to R116). -/
def arrayRow (c0 cn : Nat) (start : Nat → Pair32) (entry : Nat → Fp) : List Pair32 × Nat × Nat :=
  (List.range cn).foldl (fun acc d =>
    let p := start (c0 + d)
    let r := addEntry p.take.1 p.take.2 (entry (c0 + d))
    (acc.1 ++ [r.code], acc.2.1 + b2n r.overflow, acc.2.2 + b2n p.bad)) ([], 0, 0)

def setCells (i c0 : Nat) (ps : List Pair32) (cells : Tab Pair32) : Tab Pair32 :=
  (ps.zipIdx).foldl (fun c p => Tab.set (128 * i + c0 + p.2) p.1 c) cells

/-- One draw of lane j. -/
def drawLane (lanes : List Nat) (j : Nat) : Nat × List Nat :=
  let v := xorshift (lanes.getD j 1)
  (v / 2 ^ 16, lanes.set j v)

/-- What converting one row of 128 values gives: element codes, block scales, the lanes after their draws and
the counts of CONV_OVERFLOW and NAN_OUT (R82, R99 to R104). -/
structure RowOut where
  codes : List Nat
  scales : List Nat
  lanes : List Nat
  overs : Nat
  nans : Nat

def roundMode (sr : Bool) (lanes : List Nat) (j : Nat) (x : Fp) : Rnd × List Nat :=
  if sr && x.isFin then
    let d := drawLane lanes j
    (.sr d.1, d.2)
  else (.rne, lanes)

/-- Conversion of a row to a scalar format. -/
def convScalar (f : FmtSpec) (sat sr : Bool) (xs : List Fp) (lanes : List Nat) : RowOut :=
  (xs.zipIdx).foldl (fun o p =>
    let r := roundMode sr o.lanes p.2 p.1
    let c := f.convert sat r.1 p.1
    ⟨o.codes ++ [c.code], [], r.2, o.overs + b2n c.overflow, o.nans + b2n (f.decode c.code = .nan)⟩)
    ⟨[], [], lanes, 0, 0⟩

/-- Conversion of one MX block whose first column is j0 (R100, R101, R104). -/
def convBlock (f : Fmt) (sr : Bool) (j0 : Nat) (xs : List Fp) (lanes : List Nat) : RowOut :=
  match mxScale f xs with
  | none => ⟨xs.map fun _ => 0, [0xFF], lanes, 0, xs.length⟩
  | some s =>
    if mxZero xs then ⟨xs.map (mxZeroElem f), [0], lanes, 0, 0⟩
    else
      (xs.zipIdx).foldl (fun o p =>
        let r := roundMode sr o.lanes (j0 + p.2) p.1
        let c := mxElem f ((s : Int) - 127) r.1 p.1
        ⟨o.codes ++ [c.code], o.scales, r.2, o.overs + b2n c.overflow, o.nans⟩) ⟨[], [s], lanes, 0, 0⟩

/-- Conversion of a row of 128 values to any write format but the twin pair. -/
def convRow (c : Nat) (sat sr : Bool) (xs : List Fp) (lanes : List Nat) : RowOut :=
  let f := fmtD c
  if f.isMx then
    (List.range (xs.length / 32)).foldl (fun o b =>
      let r := convBlock f sr (32 * b) ((xs.drop (32 * b)).take 32) o.lanes
      ⟨o.codes ++ r.codes, o.scales ++ r.scales, r.lanes, o.overs + r.overs, o.nans + r.nans⟩)
      ⟨[], [], lanes, 0, 0⟩
  else convScalar f.spec sat sr xs lanes

def Tile.count (t : Tile) (conv nan acc : Nat) : Tile :=
  { t with convOverflow := w32 (t.convOverflow + conv), nanOut := w32 (t.nanOut + nan)
           accOverflow := w32 (t.accOverflow + acc) }

/-- Write a converted row at byte address `a`, its MX scales at `sa`. -/
def putRow (n : Nat) (c : Nat) (r : RowOut) (a sa : Nat) (t : Tile) (b : Buf) : Tile × Buf :=
  let b := b.write (opBase n + a) (packElems (fmtD c) r.codes)
  let b := if isMxCode c then b.write (opBase n + sa) (r.scales.map (BitVec.ofNat 8)) else b
  ({ t with lanes := r.lanes }.count r.overs r.nans 0, b)

/-- A rebased 16-bit address in bytes (R171). -/
def rebased (a r : Nat) : Nat := ((a + r) % 65536) * 32

/-- Glaze of one row of pairs (R131, R184, R185): x the row of X, cs the column scales. -/
def glazePairs (op : Nat) (xs cs : List Fp) (ps : List (Fp × Fp)) : List Fp × Nat :=
  (ps.zipIdx).foldl (fun acc p =>
    let j := p.2
    let step (q : (Fp × Fp) × Nat) (r : PairOp) : (Fp × Fp) × Nat := ((r.s, r.e), q.2 + b2n r.overflow)
    let q0 : (Fp × Fp) × Nat := (p.1, 0)
    let q1 := if op = 1 then step q0 (addEntry q0.1.1 q0.1.2 (xs.getD j .zero))
      else if op = 2 then step q0 (mulPair q0.1.1 q0.1.2 (xs.getD j .zero)) else q0
    let q2 := if cs.isEmpty then q1 else step q1 (mulPair q1.1.1 q1.1.2 (cs.getD j .zero))
    (acc.1 ++ [pairValue q2.1], acc.2 + q2.2)) ([], 0)

/-- The column scales of a glaze, read once before its first row (R159); none where it has no scale. -/
def glazeScales (n : Nat) (g : Glaze) (c ra : Nat) (b : Buf) : TileRes (List Byte) :=
  if g.scaleEn = 1 then readStore b (opBase n) (rebased g.scaleAddr ra + 512 * c) 512 else .ok []

/-- Glaze and conversion of row i of pairs through descriptor g with column block c (R131, R184, R185); `cs` are the bytes of
the column scales, `ra` and `rb` the rebase sums of the using instruction. -/
def glazeRow (n : Nat) (g : Glaze) (c ra rb i : Nat) (cs : List Byte) (row : List Pair32) (t : Tile) (b : Buf) :
    TileRes (Tile × Buf) :=
  let xs : TileRes (List Fp) :=
    if g.op = 1 || g.op = 2 then
      (readStore b (opBase n) (rebased g.opAddr ra + i * g.opPitch * 32 + fmtBytes g.opFmt (c * 128))
        (fmtBytes g.opFmt 128)).map fun l => readVals g.opFmt l 128
    else .ok []
  xs.map fun xs =>
    let y := glazePairs g.op xs (if g.scaleEn = 1 then readVals 4 cs 128 else []) (row.map Pair32.take)
    let o := convRow g.outFmt (g.sat = 1) (g.rnd = 1) y.1 t.lanes
    putRow n g.outFmt o (rebased g.outAddr rb + i * g.outPitch * 32 + fmtBytes g.outFmt (c * 128))
      (rebased g.outScale rb + 2048 * (c / 4) + 16 * i + 4 * (c % 4)) (t.count 0 (row.filter Pair32.bad).length y.2) b

/-- The pairs of row i of accumulator slot q (R118). -/
def slotRow (n q i : Nat) (b : Buf) : List Pair32 :=
  (List.range 128).map fun j =>
    Pair32.ofBytes (b.mem.readBytes (accBase n + q * 131072 + (128 * i + j) * 8) 8)

def slotAddr (q i : Nat) : Nat := q * 131072 + 1024 * i

/-- The arguments of an array instruction, MMA or CONV alike (R138, R152). -/
structure ArrayArgs where
  conv : Bool
  fh : Nat
  fv : Nat
  k : Nat
  rowCount : Nat
  accStart : Nat
  accEnd : Nat
  loadSlot : Nat
  drainSlot : Nat
  colBlock : Nat
  addr : Nat
  pitch : Nat
  scaleAddr : Nat
  tr : Bool
  trStart : Nat
  deriving DecidableEq, Repr

/-- The bytes of the operand store that stream entry e of an array instruction comes from (R148, R152, R181): each k of its
issue step, and of a binary32 split the half that this entry holds. -/
def ArrayArgs.spans (a : ArrayArgs) (e : Nat) : List (Nat × Nat) :=
  let m := entriesPer a.fh
  let p := issueStep a.fh a.fv a.k (e / m)
  let cn := if a.conv then p.cn else p.cn / m
  let c0 := p.c0 + e % m * cn
  (List.range p.kn).flatMap fun d =>
    let k := p.k0 + d
    let w := (fmtD a.fv).width
    if a.conv then [(a.addr + k * w / 8, (k * w % 8 + w + 7) / 8)]
    else if a.tr then (List.range cn).map fun j =>
      (a.addr + (c0 + j) * a.pitch + fmtBytes a.fv (a.trStart + k), fmtBytes a.fv 1)
    else [(a.addr + k * a.pitch + fmtBytes a.fv c0, fmtBytes a.fv cn)]

/-- What stream entry e brings: its elements packed from bit 0; of a CONV, the weight of each k. -/
def ArrayArgs.entry (a : ArrayArgs) (n e : Nat) (b : Buf) : TileRes (List Byte) :=
  let base := opBase n
  match (a.spans e).find? fun s => b.mem.anyPoison (base + s.1) s.2 with
  | some s => .error (0x07, s.1)
  | none =>
    if a.conv then
      let p := issueStep a.fh a.fv a.k (e / entriesPer a.fh)
      let w := (fmtD a.fv).width
      .ok (packElems (fmtD a.fv) ((a.spans e).zipIdx.map fun s =>
        fieldAt (b.mem.readBytes (base + s.1.1) s.1.2) 0 s.1.2 >>> ((p.k0 + s.2) * w % 8)))
    else .ok ((a.spans e).flatMap fun s => b.mem.readBytes (base + s.1) s.2)

/-- The scales of block e (R148, R182). -/
def ArrayArgs.scales (a : ArrayArgs) (n e : Nat) (b : Buf) : TileRes (List Nat) :=
  (if a.conv then readStore b (opBase n) (a.scaleAddr + e) 1
   else readStore b (opBase n) (a.scaleAddr + 128 * e) 128).map fun l => l.map (·.toNat)

/-- Scale entries of the whole instruction. -/
def ArrayArgs.blocks (a : ArrayArgs) : Nat := if isMxCode a.fv then a.k / 32 else 0

/-- The streamed value that column j meets at the d-th k of issue step p, from the bytes of its entries and the scales of
its block. -/
def ArrayArgs.streamed (a : ArrayArgs) (p : IssueStep) (data : List Byte) (scales : List Nat) (d j : Nat) : Fp :=
  let f := fmtD a.fv
  let c := elemBits f data (if a.conv then d else d * p.cn + (j - p.c0))
  if f.isMx then mxValue f (scales.getD (if a.conv then 0 else j) 0) c else f.value c

/-! The element-wise path (R187, Table 6-10). -/

/-- The whole square root, bit by bit: r grows while r * r does not pass n. -/
def isqrt : Nat → Nat → Nat → Nat
  | 0, _, r => r
  | f + 1, n, r =>
    let t := r + 2 ^ f
    isqrt f n (if t * t ≤ n then t else r)

/-! Results that the spec bounds and does not fix (Table 6-10, log 6): the exact result, worked out to some 80 bits, gives
the interval of allowed binary32 values, and a free value picks one of them. -/

/-- Codes of binary32 in the order of their values: 0 for both zeros, -k for the negative of code k, 0x7F800000 an
infinity. -/
def keyFp (k : Int) : Fp := dec32 (k.natAbs + if k < 0 then 2 ^ 31 else 0)

/-- The least and the greatest key of the finite values of m 2^e not above, and not below. -/
def keysOf (neg : Bool) (m : Nat) (e : Int) : Int × Int :=
  if m = 0 then (0, 0)
  else
    let lo := min (fBin32.roundCode (.sr 65535) m e) 0x7F800000
    let exact := lo < 0x7F800000 && (Fp.sub (fBin32.decode lo) (.fin false m e)).isZero
    let hi := if exact || lo = 0x7F800000 then lo else lo + 1
    if neg then (-(hi : Int), -(lo : Int)) else (lo, hi)

/-- A free choice among the values within 2^q of t. -/
def within (q : Int) (pick : Nat) (t : Fp) : Fp :=
  match t.sub (.fin false 1 q), t.add (.fin false 1 q) with
  | .fin n m e, .fin n' m' e' =>
    let lo := (keysOf n m e).2
    let hi := (keysOf n' m' e').1
    if lo ≤ hi then keyFp (lo + (pick % ((hi - lo).toNat + 1) : Nat)) else rne32 t
  | _, _ => t

/-- The exponent of one unit in the last place of binary32 at t. -/
def ulpOf (t : Fp) : Int := if t.isZero then -149 else max t.lead (-126) - 23

/-- log2 e times 2^128. -/
def log2e : Int := 490923683258796565746369346286093237521

/-- 2^f times 2^128 for f of 128 fraction bits, from the 80 highest of them: the product of 2^(2^-i) over its bits. -/
def exp2Frac (f : Nat) : Nat :=
  ((List.range 80).foldl (fun (st : Nat × Nat) i =>
    let r := isqrt 130 (st.2 * 2 ^ 128) 0
    (if f.testBit (127 - i) then st.1 * r / 2 ^ 128 else st.1, r)) (2 ^ 128, 2 ^ 129)).1

/-- 2^z for z of 128 fraction bits. -/
def pow2 (z : Int) : Fp := .fin false (exp2Frac (z % 2 ^ 128).toNat) (z / 2 ^ 128 - 128)

/-- The 80 fraction bits of log2 of y / 2^128, 1 to 2, by repeated squaring. -/
def log2Frac (y : Nat) : Nat :=
  ((List.range 80).foldl (fun (st : Nat × Nat) _ =>
    let s := st.2 * st.2 / 2 ^ 128
    if 2 ^ 129 ≤ s then (2 * st.1 + 1, s / 2) else (2 * st.1, s)) (0, y)).1

/-- m 2^e in fixed point of 128 fraction bits, rounded down; its magnitude is below 2^9 where it is used. -/
def fixed (neg : Bool) (m : Nat) (e : Int) : Int :=
  let v : Int := if neg then -(m : Int) else m
  if -128 ≤ e then v * 2 ^ (e + 128).toNat else v / 2 ^ (-128 - e).toNat

/-- The quotient of two fixed-point numbers in 128 fraction bits. -/
def quot (a b : Int) : Fp := (Fp.ofInt (a * 2 ^ 128 / b)).scale (-128)

/-- 2^z as a fixed-point number, for z below 2^9. -/
def pow2Fix (z : Int) : Int :=
  match pow2 z with
  | .fin _ m e => fixed false m e
  | _ => 0

/-- The exact results of EXP2, LOG2, TANH and SIGMOID at a finite value (LOG2 of one above 0). -/
def exactOf (op : Nat) (neg : Bool) (m : Nat) (e : Int) : Fp :=
  let big : Bool := m != 0 && decide (8 ≤ (Fp.fin neg m e).lead)
  let x := fixed neg m e
  match op with
  | 0x0C => if big then (if neg then .fin false 1 (-300) else .fin false 1 256) else pow2 x
  | 0x0D =>
    let k := Nat.log2 m
    (Fp.ofInt (((k : Int) + e) * 2 ^ 80 + log2Frac (m * 2 ^ 128 / 2 ^ k))).scale (-80)
  | 0x0E =>
    if big then .fin neg 1 0
    else
      let t := pow2Fix (2 * x.natAbs * log2e / 2 ^ 128)
      let v := quot (t - 2 ^ 128) (t + 2 ^ 128)
      if neg then v.neg else v
  | _ =>
    if big then (if neg then .zero else .fin false 1 0)
    else quot (2 ^ 128) (2 ^ 128 + pow2Fix (-(x * log2e / 2 ^ 128)))

/-- EXP2, LOG2, TANH and SIGMOID: within 2 units in the last place or 2^-24, whichever is larger; LOG2 of -0 and below is not
stated (log 6). -/
def ewApprox (op : Nat) (x : Fp) : Fp :=
  let pick := Config.accuracyChoice op (BitVec.ofNat 32 (enc32 x))
  match x with
  | .nan => .nan
  | .inf n =>
    match op with
    | 0x0C => if n then .zero else .inf false
    | 0x0D => if n then dec32 pick else .inf false
    | 0x0E => .fin n 1 0
    | _ => if n then .zero else .fin false 1 0
  | .fin n m e =>
    if op = 0x0D && m = 0 && !n then .inf true
    else if op = 0x0D && n then dec32 pick
    else
      let t := exactOf op n m e
      within (max (ulpOf t + 1) (-24)) pick t

/-- RECIP: 1 / a within 1 unit in the last place. -/
def ewRecip (x : Fp) : Fp :=
  match x with
  | .nan => .nan
  | .inf n => .fin n 0 0
  | .fin n 0 _ => .inf n
  | .fin n m e =>
    let q := 2 ^ 80 / m
    let t := Fp.fin n (2 * q + b2n (2 ^ 80 % m != 0)) (-e - 81)
    within (ulpOf t) (Config.accuracyChoice 0x0A (BitVec.ofNat 32 (enc32 x))) t

/-- RSQRT: 1 / √a within 1 unit in the last place. -/
def ewRsqrt (x : Fp) : Fp :=
  match x with
  | .nan => .nan
  | .inf n => if n then .nan else .zero
  | .fin n 0 _ => .inf n
  | .fin true _ _ => .nan
  | .fin false m e =>
    -- 1/sqrt(m 2^e) with e made even
    let m' := if e % 2 = 0 then m else 2 * m
    let e' := if e % 2 = 0 then e else e - 1
    let q := 2 ^ 120 / m'
    let r := isqrt 64 q 0
    let t := Fp.fin false (2 * r + b2n (!(2 ^ 120 % m' == 0 && r * r == q))) (-e' / 2 - 61)
    within (ulpOf t) (Config.accuracyChoice 0x0B (BitVec.ofNat 32 (enc32 x))) t

def ewMax (a b : Fp) : Fp :=
  if a = .nan || b = .nan then .nan
  else if a.isZero && b.isZero then (if a.negB then b else a)
  else if a.lt b then b else a

def ewMin (a b : Fp) : Fp :=
  if a = .nan || b = .nan then .nan
  else if a.isZero && b.isZero then (if a.negB then a else b)
  else if a.lt b then a else b

/-- One element operation in binary32 (Table 6-10). -/
def ewOp (op : Nat) (a b : Fp) : Fp :=
  match op with
  | 0x00 => a
  | 0x01 => rne32 (a.add b)
  | 0x02 => rne32 (a.sub b)
  | 0x03 => rne32 (a.mul b)
  | 0x04 => ewMax a b
  | 0x05 => ewMin a b
  | 0x06 => a.abs
  | 0x07 => a.neg
  | 0x08 => ewMax a .zero
  | 0x09 => rne32 (a.mul a)
  | 0x0A => ewRecip a
  | 0x0B => ewRsqrt a
  | o => ewApprox o a

def isBinaryEw (op : Nat) : Bool := 1 ≤ op && op ≤ 5

structure EwArgs where
  op : Nat
  fa : Nat
  fb : Nat
  out : Nat
  a : Nat
  b : Nat
  dst : Nat
  rows : Nat
  sat : Bool
  sr : Bool
  mode : Nat

/-- Row r of operand A. -/
def ewRowA (n : Nat) (x : EwArgs) (r : Nat) (b : Buf) : TileRes (List Fp) :=
  (readStore b (opBase n) (x.a + r * fmtBytes x.fa 128) (fmtBytes x.fa 128)).map fun l => readVals x.fa l 128

def ewRowB (n : Nat) (x : EwArgs) (r : Nat) (b : Buf) : TileRes (List Fp) :=
  if !isBinaryEw x.op then .ok (List.replicate 128 .zero)
  else if x.mode = 2 then
    (readStore b (opBase n) (x.b + r * fmtBytes x.fb 1) (fmtBytes x.fb 1)).map fun l =>
      List.replicate 128 ((fmtD x.fb).value (elemBits (fmtD x.fb) l 0))
  else
    (readStore b (opBase n) (x.b + (if x.mode = 0 then r else 0) * fmtBytes x.fb 128) (fmtBytes x.fb 128)).map
      fun l => readVals x.fb l 128

/-- Row r of an EW (R187): its effects and what a column operation has gathered. COL_SUM and COL_MAX write after their last
row. -/
def ewRow (n : Nat) (x : EwArgs) (r : Nat) (acc : List Pair32) (t : Tile) (b : Buf) : TileRes (List Pair32 × Tile × Buf) := do
  let xs ← ewRowA n x r b
  let ys ← ewRowB n x r b
  if x.op = 0x10 || x.op = 0x11 then
    let ps := acc.map Pair32.take
    let got : List Pair32 :=
      if x.op = 0x10 then
        (xs.zipIdx).map fun p =>
          let q := ps.getD p.2 (.zero, .zero)
          (addEntry q.1 q.2 p.1).code
      else if r = 0 then xs.map fun v => ⟨enc32 v, 0⟩
      else (ps.zip xs).map fun p => ⟨enc32 (ewMax p.1.1 p.2), 0⟩
    if r + 1 < x.rows then pure (got, t, b)
    else
      let out := got.map Pair32.take
      if x.out = 5 then
        pure ([], t.count 0 (out.filter (·.1 = .nan)).length 0, b.write (opBase n + x.dst) (got.flatMap Pair32.bytes))
      else
        pure ([], putRow n x.out (convRow x.out x.sat x.sr (out.map pairValue) t.lanes) x.dst (x.dst + fmtBytes x.out 128) t b)
  else
    pure ([], putRow n x.out (convRow x.out x.sat x.sr ((xs.zip ys).map fun p => ewOp x.op p.1 p.2) t.lanes)
      (x.dst + r * fmtBytes x.out 128) (x.dst + x.rows * fmtBytes x.out 128 + 4 * r) t b)

/-! FEED and HOLD. -/

/-- Entry e of held row i of a FEED (R142, R146, R178). A transposed row of more than 128 elements goes on to the stored rows
after 127 (log 74). -/
def feedEntry (n id fmt addr pitch scaleAddr : Nat) (tr : Bool) (trStart i e : Nat) (b : Buf) : FeedEntry :=
  let base := opBase n
  let w := fmtBytes fmt 1
  let data :=
    if tr then (List.range (64 / w)).flatMap fun q =>
      b.mem.readBytes (base + addr + (e * (64 / w) + q) * pitch + (trStart + i) * w) w
    else b.mem.readBytes (base + addr + i * pitch + 64 * e) 64
  let sc := if isMxCode fmt then (b.mem.readBytes (base + scaleAddr + 16 * i) 16).map (·.toNat) else []
  ⟨id, fmt, e, data, sc⟩

/-- Whether entry e of row i holds a byte of a poisoned line, with the address. -/
def feedPoison (n fmt addr pitch scaleAddr : Nat) (tr : Bool) (trStart i e : Nat) (b : Buf) : Option Nat :=
  let base := opBase n
  let w := fmtBytes fmt 1
  let spans : List (Nat × Nat) :=
    (if tr then (List.range (64 / w)).map fun q => (addr + (e * (64 / w) + q) * pitch + (trStart + i) * w, w)
     else [(addr + i * pitch + 64 * e, 64)])
      ++ (if isMxCode fmt then [(scaleAddr + 16 * i, 16)] else [])
  (spans.find? fun s => b.mem.anyPoison (base + s.1) s.2).map (·.1)

/-- A merge of one arriving pair into the slot (R123, R125), with the overflow and the pairs taken as NaN
(R112). -/
def mergeBytes (old new : List Byte) : List Byte × Nat × Nat :=
  let p := Pair32.ofBytes old
  let q := Pair32.ofBytes new
  let r := mergePair p.take.1 p.take.2 q.take.1 q.take.2
  (r.code.bytes, b2n r.overflow, b2n p.bad + b2n q.bad)

/-- RECV with MERGE of the bytes of one line (R202): a poisoned line stays poisoned. -/
def mergeLine (n a : Nat) (data : List Byte) (srcPoison : Bool) (t : Tile) (b : Buf) : Tile × Buf :=
  let k := accBase n + a
  if srcPoison || b.mem.isPoisoned (k / 64) then (t, b.op (.poison (k / 64)))
  else
    (List.range (data.length / 8)).foldl (fun st i =>
      let r := mergeBytes (st.2.mem.readBytes (k + 8 * i) 8) (bytesAt data (8 * i) 8)
      (st.1.count 0 r.2.2 r.2.1, st.2.op (.raw (k + 8 * i) r.1))) (t, b)

end Sys2Proof.Machine
end

