-- ==== Sys2Proof/Machine/PaletteMath.lean ====
section
/-! DEFINITION. The Palette commands: their checks at the start and what they compute over the memory of
their stack (chapter 8). -/

namespace Sys2Proof.Machine

/-- Fields of a 64-byte command (Table 8-1, Table 8-2). -/
def palOp (c : List Byte) : Nat := fieldAt c 0 1
def palFlags (c : List Byte) : Nat := fieldAt c 1 1
def palTag (c : List Byte) : Nat := fieldAt c 2 2
def palTile (c : List Byte) : Nat := fieldAt c 4 1
def palToken (c : List Byte) : Nat := fieldAt c 5 1
def palCount (c : List Byte) : Nat := fieldAt c 8 4
def palCtl (c : List Byte) (i : Nat) : Nat := fieldAt c i 1
def palF (c : List Byte) (i : Nat) : Nat := fieldAt c (16 + 8 * i) 8
def palOrdered (c : List Byte) : Bool := bit (palFlags c) 0
def palTokenEn (c : List Byte) : Bool := bit (palFlags c) 1

/-- The bank of a command's first line operation (R240): the parameter block (R252), the page entry of the first token, else
the line of the first source (log 44); none where the command has no line to touch. -/
def palBank (c : List Byte) : Option Nat :=
  match palOp c with
  | 0x03 => some (bankNo (palF c 4 % 2 ^ 37))
  | 0x04 => some (bankNo (palF c 5 % 2 ^ 37))
  | 0x07 => some (bankNo ((palF c 1 + 4 * (bits (palF c 3) 31 0 / 64)) % 2 ^ 37))
  | 0x09 => some (bankNo (palF c (if bits (palF c 1) 36 0 = 0 then 2 else 0) % 2 ^ 37))
  | _ => if palCount c = 0 then none else some (bankNo (palF c 0 % 2 ^ 37))

/-- An array of a command: start, bytes, bytes per element. -/
structure Arr where
  start : Nat
  len : Nat
  w : Nat
  deriving DecidableEq, Repr

def wOf (f : Nat) : Nat := (fmtD f).width / 8

def rowLen (geom : Nat) : Nat := 64 * (bits geom 41 32 + 1)

/-- The arrays a command reads and writes (Table 8-2). -/
def palArrays (c : List Byte) : List Arr × List Arr :=
  let n := palCount c
  let f := palF c
  match palOp c with
  | 0x01 =>
    let fa := bits (palCtl c 13) 3 0
    let fb := bits (palCtl c 13) 7 4
    let out := bits (palCtl c 14) 3 0
    let useB := isBinaryEw (palCtl c 12) && !(bit (palCtl c 14) 5)
    ([⟨f 0, n * wOf fa, wOf fa⟩] ++ (if useB then [⟨f 1, n * wOf fb, wOf fb⟩] else []), [⟨f 2, n * wOf out, wOf out⟩])
  | 0x02 =>
    let sf := palCtl c 12
    ([⟨f 0, n * wOf sf, wOf sf⟩, ⟨f 1, n * 8, 8⟩], [⟨f 1, n * 8, 8⟩])
  | 0x03 =>
    let mw := if bit (palCtl c 14) 3 then 8 else 4
    let gw := wOf (palCtl c 12)
    ([⟨f 0, n * mw, mw⟩, ⟨f 1, n * 4, 4⟩, ⟨f 2, n * gw, gw⟩, ⟨f 4, 64, 64⟩],
     [⟨f 0, n * mw, mw⟩, ⟨f 1, n * 4, 4⟩] ++ (if palCtl c 13 = 0xF then [] else [⟨f 3, n, 1⟩]))
  | 0x04 =>
    let mw := if bit (palCtl c 14) 3 then 8 else 4
    let gw := wOf (palCtl c 12)
    ([⟨f 0, n * mw, mw⟩, ⟨f 1, n * 4, 4⟩, ⟨f 2, n * 4, 4⟩, ⟨f 3, n * gw, gw⟩, ⟨f 5, 64, 64⟩],
     [⟨f 0, n * mw, mw⟩, ⟨f 1, n * 4, 4⟩, ⟨f 2, n * 4, 4⟩] ++ (if palCtl c 13 = 0xF then [] else [⟨f 4, n, 1⟩]))
  | 0x05 =>
    let rl := rowLen (f 3)
    ([⟨f 0, n * 4, 4⟩, ⟨f 1, bits (f 3) 31 0 * rl, rl⟩], [⟨f 2, n * rl, rl⟩])
  | 0x06 =>
    let rl := rowLen (f 3)
    let sl := if palCtl c 12 = 0 then rl else rl / 8 * wOf (palCtl c 13)
    ([⟨f 0, n * 4, 4⟩, ⟨f 1, n * sl, sl⟩], [⟨f 2, bits (f 3) 31 0 * rl, rl⟩])
  | 0x07 =>
    let tl := rowLen (f 3)
    let p0 := bits (f 3) 31 0
    let e0 := p0 / 64
    let e1 := (p0 + (n - 1)) / 64
    ([⟨f 0, n * tl, tl⟩, ⟨f 1 + 4 * e0, 4 * (e1 - e0 + 1), 4⟩], [⟨f 2, bits (f 4) 31 0 * 64 * tl, tl⟩])
  | 0x08 =>
    let tl := rowLen (f 3)
    ([⟨f 0, n * 16, 16⟩, ⟨f 2, bits (f 4) 31 0 * 64 * tl, tl⟩], [⟨f 2, bits (f 4) 31 0 * 64 * tl, tl⟩])
  | 0x09 => ([⟨f 0, bits (f 1) 36 0, 1⟩], [⟨f 2, 64, 64⟩])
  | _ => ([], [])

/-- Address fields of an opcode, by number; their array starts must be multiples of 64 (R249). -/
def palAddrFields (c : List Byte) : List Nat :=
  match palOp c with
  | 0x01 => if isBinaryEw (palCtl c 12) && !(bit (palCtl c 14) 5) then [0, 1, 2] else [0, 2]
  | 0x02 => [0, 1]
  | 0x03 => if palCtl c 13 = 0xF then [0, 1, 2, 4] else [0, 1, 2, 3, 4]
  | 0x04 => if palCtl c 13 = 0xF then [0, 1, 2, 3, 5] else [0, 1, 2, 3, 4, 5]
  | 0x05 => [0, 1, 2]
  | 0x06 => [0, 1, 2]
  | 0x07 => [0, 1, 2]
  | 0x08 => [0, 2]
  | 0x09 => [2]
  | _ => []

/-- Bits of CTRL and of the composite fields that are RSVD and not 0, or values out of range (Table 8-2). -/
def palFieldBad (c : List Byte) : Bool :=
  let n := palCount c
  let k := palCtl c
  let geomBad (g : Nat) : Bool := bits g 63 42 != 0
  match palOp c with
  | 0x01 => decide (9 < k 12) || bits (k 14) 7 6 != 0 || k 15 != 0
  | 0x02 => k 13 != 0 || k 14 != 0 || k 15 != 0
  | 0x03 => bits (k 14) 7 4 != 0 || k 15 != 0
  | 0x04 => bits (k 14) 7 4 != 0 || k 15 != 0
  | 0x05 => k 12 != 0 || k 13 != 0 || k 14 != 0 || k 15 != 0 || geomBad (palF c 3)
  | 0x06 => decide (1 < k 12) || k 14 != 0 || k 15 != 0 || geomBad (palF c 3)
  | 0x07 => k 12 != 0 || k 13 != 0 || k 14 != 0 || k 15 != 0 || geomBad (palF c 3) || bits (palF c 4) 63 32 != 0
      || n = 0 || decide (4096 < n)
  | 0x08 => k 12 != 0 || k 13 != 0 || k 14 != 0 || k 15 != 0 || geomBad (palF c 3) || bits (palF c 4) 63 32 != 0
      || n = 0 || decide (65536 < n)
  | 0x09 => k 12 != 0 || k 13 != 0 || k 14 != 0 || k 15 != 0 || n != 0 || bits (palF c 1) 63 37 != 0
      || bits (palF c 0) 63 37 != 0
  | _ => false

def palFmtBad (c : List Byte) : Bool :=
  let k := palCtl c
  match palOp c with
  | 0x01 => decide (5 < bits (k 13) 3 0) || decide (4 < bits (k 14) 3 0)
      || (isBinaryEw (k 12) && decide (5 < bits (k 13) 7 4)) || (bit (k 14) 5 && bits (k 13) 7 4 != 4)
  | 0x02 => decide (5 < k 12)
  | 0x03 => !(k 12 = 3 || k 12 = 4 || k 12 = 5) || !(k 13 = 0 || k 13 = 1 || k 13 = 0xF)
  | 0x04 => !(k 12 = 3 || k 12 = 4 || k 12 = 5) || !(k 13 = 0 || k 13 = 1 || k 13 = 0xF)
  | 0x06 => k 12 = 1 && decide (5 < k 13)
  | _ => false

/-- Whether two arrays share a byte. -/
def arrOverlaps (a b : Arr) : Bool := a.len != 0 && b.len != 0 && decide (a.start < b.start + b.len) && decide (b.start < a.start + a.len)

def palOverlap (c : List Byte) : Bool :=
  let r := palArrays c
  r.2.any fun d => r.1.any fun s => d != s && arrOverlaps d s

/-- Whether a range lies in one of the queue's regions, given as (start, bytes) pairs of the stack. -/
def inRegions (rs : List (Nat × Nat)) (start len : Nat) : Bool :=
  len = 0 || rs.any fun r => decide (r.1 ≤ start) && decide (start + len ≤ r.1 + r.2)

/-- The lowest status of R249 among those that apply; 0 when the command may run. -/
def palCheck (c : List Byte) (rs : List (Nat × Nat)) (jobTile : Nat → Bool) : Nat :=
  if palOp c = 0 || decide (9 < palOp c) then 0x01
  else if bits (palFlags c) 7 2 != 0 || bits (palToken c) 7 4 != 0 || fieldAt c 6 2 != 0
      || decide (191 < palTile c) || palFieldBad c
      || (palAddrFields c).any (fun i => bits (palF c i) 63 37 != 0) then 0x02
  else if (palAddrFields c).any (fun i => palF c i % 64 != 0) then 0x03
  else if palFmtBad c then 0x04
  else if palOverlap c then 0x05
  else if ((palArrays c).1 ++ (palArrays c).2).any (fun a => !(inRegions rs a.start a.len))
      || (palTokenEn c && !(jobTile (palTile c))) then 0x06
  else 0

/-- What a run gives beside its writes: the status of R267, the count, the first instance (R267, R268), the poisoned lines it read,
and those of them that it would have updated by a read-modify-write (R217, R260). -/
structure PalRes where
  status : Nat := 0
  except : Nat := 0
  firstBad : Nat := 0
  done : Nat := 0
  nonfinite : Nat := 0
  poison : List Nat := []
  merges : List Nat := []
  deriving DecidableEq, Repr

def PalRes.note (r : PalRes) (status item : Nat) : PalRes :=
  { r with
    except := r.except + 1
    firstBad := if r.except = 0 then item else r.firstBad
    status := if r.status = 0 then status else r.status }

/-- Poisoned lines found among the reads: POISON takes precedence and each line counts (R267, R268). -/
def PalRes.addPoison (r : PalRes) (lines : List Nat) : PalRes :=
  let fresh := (lines.filter fun l => !r.poison.contains l).eraseDups
  if fresh.isEmpty then r
  else
    { r with
      poison := r.poison ++ fresh
      except := r.except + fresh.length
      firstBad := if r.status = 0x07 then r.firstBad else (fresh.headD 0 * 64) % 2 ^ 37
      status := 0x07 }

/-- Poisoned lines of a range of the stack. -/
def poisonedIn (m : Mem) (k n : Nat) : List Nat := (linesOf k n).filter m.isPoisoned

/-- The value of element i of an array in format f. -/
def palElem (m : Mem) (s f start i : Nat) : Fp :=
  let l := m.readBytes (stackKey s (start + i * wOf f)) (wOf f)
  if f = 5 then rne32 (pairValue (Pair32.ofBytes l).take) else (fmtD f).value (ofLE l)

def rdPair (m : Mem) (s a : Nat) : Pair32 := Pair32.ofBytes (m.readBytes (stackKey s a) 8)

/-- An element of SRC entering a pair (R251). -/
def accumInto (m : Mem) (s f start i : Nat) (d : Pair32) : Pair32 :=
  if f = 5 then
    let q := (rdPair m s (start + 8 * i)).take
    (mergePair d.take.1 d.take.2 q.1 q.2).code
  else (addEntry d.take.1 d.take.2 (palElem m s f start i)).code

/-- Element-wise outputs: for each destination array its start, element width, and for each item the bytes (none:
unchanged); `bad i` gives the poisoned source lines of item i. Destination lines of a bad item become poisoned
(R268); other bytes are written. -/
def palWrite (s : Nat) (n : Nat) (bad : Nat → List Nat) (start w : Nat) (val : Nat → Option (List Byte)) (b : Buf) : Buf :=
  -- consecutive written items join into one write, so that whole lines are full-line writes (R260)
  let runs : List (Nat × List Byte) := (List.range n).foldl (fun acc i =>
    match val i with
    | none => acc
    | some v =>
      match acc with
      | (a, l) :: t => if a + l.length = start + i * w then (a, l ++ v) :: t else (start + i * w, v) :: acc
      | [] => [(start + i * w, v)]) []
  let b := runs.foldl (fun b r => b.write (stackKey s r.1) r.2) b
  let dead := ((List.range n).filter fun i => !(bad i).isEmpty).flatMap fun i => linesOf (stackKey s (start + i * w)) w
  b.opsAll (dead.eraseDups.map .poison)

def allBad (n : Nat) (bad : Nat → List Nat) (r : PalRes) : PalRes := r.addPoison ((List.range n).flatMap bad)

def runEw (s : Nat) (c : List Byte) (b : Buf) : Buf × PalRes :=
  let m := b.mem
  let n := palCount c
  let op := palCtl c 12
  let fa := bits (palCtl c 13) 3 0
  let fb := bits (palCtl c 13) 7 4
  let out := bits (palCtl c 14) 3 0
  let useB := isBinaryEw op && !(bit (palCtl c 14) 5)
  let bad (i : Nat) : List Nat := poisonedIn m (stackKey s (palF c 0 + i * wOf fa)) (wOf fa)
    ++ if useB then poisonedIn m (stackKey s (palF c 1 + i * wOf fb)) (wOf fb) else []
  let val (i : Nat) : Option (List Byte) :=
    let x := palElem m s fa (palF c 0) i
    let y := if useB then palElem m s fb (palF c 1) i else dec32 (palF c 1)
    some (leBytes (wOf out) ((fmtD out).spec.convert (bit (palCtl c 14) 4) .rne (ewOp op x y)).code)
  (palWrite s n bad (palF c 2) (wOf out) val b, { allBad n bad {} with done := n })

def runAccum (s : Nat) (c : List Byte) (b : Buf) : Buf × PalRes :=
  let m := b.mem
  let n := palCount c
  let f := palCtl c 12
  let bad (i : Nat) : List Nat := poisonedIn m (stackKey s (palF c 0 + i * wOf f)) (wOf f)
    ++ poisonedIn m (stackKey s (palF c 1 + 8 * i)) 8
  let val (i : Nat) : Option (List Byte) :=
    some (accumInto m s f (palF c 0) i (rdPair m s (palF c 1 + 8 * i))).bytes
  (palWrite s n bad (palF c 1) 8 val b,
    { allBad n bad {} with done := n, merges := poisonedIn m (stackKey s (palF c 1)) (8 * n) })

/-! Binary32 arithmetic of the optimisers (R253): every operation rounds once. -/

def mulR (a b : Fp) : Fp := rne32 (a.mul b)
def addR (a b : Fp) : Fp := rne32 (a.add b)
def subR (a b : Fp) : Fp := rne32 (a.sub b)

/-- Correctly rounded quotient. -/
def divR (a b : Fp) : Fp :=
  match a, b with
  | .nan, _ => .nan
  | _, .nan => .nan
  | .inf _, .inf _ => .nan
  | .inf x, .fin y _ _ => .inf (x != y)
  | .fin x _ _, .inf y => .fin (x != y) 0 0
  | .fin x m e, .fin y k f =>
    if k = 0 then (if m = 0 then .nan else .inf (x != y))
    else
      let sh := 64 + Nat.log2 k
      let q := m * 2 ^ sh / k
      let st := b2n (m * 2 ^ sh % k != 0)
      rne32 (.fin (x != y) (2 * q + st) (e - f - sh - 1))

/-- Correctly rounded square root. -/
def sqrtR (a : Fp) : Fp :=
  match a with
  | .nan => .nan
  | .inf n => if n then .nan else .inf false
  | .fin n 0 _ => .fin n 0 0
  | .fin true _ _ => .nan
  | .fin false m e =>
    let m' := if e % 2 = 0 then m else 2 * m
    let e' := if e % 2 = 0 then e else e - 1
    let q := m' * 2 ^ 64
    let r := isqrt 64 q 0
    rne32 (.fin false (2 * r + b2n (r * r != q)) (e' / 2 - 33))

/-- One parameter's new values: master pair or binary32 value, state values, and the shadow's source. -/
structure OptOut where
  w : Pair32
  s1 : Nat
  s2 : Nat
  value : Fp
  deriving DecidableEq, Repr

structure OptIn where
  w : Fp
  wPair : Pair32
  pair : Bool
  g : Fp
  s1 : Fp
  s2 : Fp
  deriving DecidableEq, Repr

/-- The parameter block's values (Table 8-3). -/
structure OptPar where
  lr : Fp
  beta1 : Fp
  beta2 : Fp
  eps : Fp
  wd : Fp
  bc1 : Fp
  bc2 : Fp
  scale : Fp
  deriving DecidableEq, Repr

def optPar (m : Mem) (s a : Nat) : OptPar :=
  let f (i : Nat) := dec32 (ofLE (m.readBytes (stackKey s (a + 4 * i)) 4))
  ⟨f 0, f 1, f 2, f 3, f 4, f 5, f 6, f 7⟩

/-- w - d applied to the master (R253). -/
def applyUpdate (x : OptIn) (d : Fp) : Pair32 × Fp :=
  if x.pair then
    let r := addEntry x.wPair.take.1 x.wPair.take.2 d.neg
    (r.code, pairValue (r.s, r.e))
  else
    let w := subR x.w d
    (⟨enc32 w, 0⟩, w)

def sgdStep (p : OptPar) (nesterov : Bool) (x : OptIn) : OptOut :=
  let g := addR x.g (mulR p.wd x.w)
  let mom := addR (mulR p.beta1 x.s1) g
  let d := if nesterov then mulR p.lr (addR g (mulR p.beta1 mom)) else mulR p.lr mom
  let u := applyUpdate x d
  ⟨u.1, enc32 mom, 0, u.2⟩

def adamStep (p : OptPar) (decoupled : Bool) (x : OptIn) : OptOut :=
  let one := Fp.ofInt 1
  let g := if decoupled then x.g else addR x.g (mulR p.wd x.w)
  let m := addR (mulR p.beta1 x.s1) (mulR (subR one p.beta1) g)
  let v := addR (mulR p.beta2 x.s2) (mulR (subR one p.beta2) (mulR g g))
  let d := divR (mulR p.lr (mulR m p.bc1)) (addR (sqrtR (mulR v p.bc2)) p.eps)
  let d := if decoupled then addR d (mulR (mulR p.lr p.wd) x.w) else d
  let u := applyUpdate x d
  ⟨u.1, enc32 m, enc32 v, u.2⟩

/-- SGD and ADAM over their arrays (R252 to R254). `adam` shifts the fields by one state array. -/
def runOpt (adam : Bool) (s : Nat) (c : List Byte) (b : Buf) : Buf × PalRes :=
  let m := b.mem
  let n := palCount c
  let pair := bit (palCtl c 14) 3
  let mw := if pair then 8 else 4
  let gf := palCtl c 12
  let aW := palF c 0
  let a1 := palF c 1
  let a2 := palF c 2
  let aG := if adam then palF c 3 else palF c 2
  let aSh := if adam then palF c 4 else palF c 3
  let aP := if adam then palF c 5 else palF c 4
  let par := optPar m s aP
  let parBad := poisonedIn m (stackKey s aP) 64
  let bad (i : Nat) : List Nat := parBad ++ poisonedIn m (stackKey s (aW + i * mw)) mw
    ++ poisonedIn m (stackKey s (a1 + 4 * i)) 4
    ++ (if adam then poisonedIn m (stackKey s (a2 + 4 * i)) 4 else [])
    ++ poisonedIn m (stackKey s (aG + i * wOf gf)) (wOf gf)
  let inp (i : Nat) : OptIn :=
    let wp := if pair then rdPair m s (aW + 8 * i) else ⟨ofLE (m.readBytes (stackKey s (aW + 4 * i)) 4), 0⟩
    { w := if pair then rne32 (pairValue wp.take) else dec32 wp.s
      wPair := wp, pair
      g := mulR (palElem m s gf aG i) par.scale
      s1 := dec32 (ofLE (m.readBytes (stackKey s (a1 + 4 * i)) 4))
      s2 := if adam then dec32 (ofLE (m.readBytes (stackKey s (a2 + 4 * i)) 4)) else .zero }
  let flag := bit (palCtl c 14) 0
  let skip (i : Nat) : Bool := bit (palCtl c 14) 1 && !(inp i).g.isFin
  let out (i : Nat) : OptOut := if adam then adamStep par flag (inp i) else sgdStep par flag (inp i)
  let on (i : Nat) (v : List Byte) : Option (List Byte) := if skip i then none else some v
  let b := palWrite s n bad aW mw (fun i => on i (if pair then (out i).w.bytes else leBytes 4 (out i).w.s)) b
  let b := palWrite s n bad a1 4 (fun i => on i (leBytes 4 (out i).s1)) b
  let b := if adam then palWrite s n bad a2 4 (fun i => on i (leBytes 4 (out i).s2)) b else b
  let shf := palCtl c 13
  let b := if shf = 0xF then b
    else palWrite s n bad aSh 1 (fun i =>
      on i (leBytes 1 ((fmtD shf).spec.convert (bit (palCtl c 14) 2) .rne (out i).value).code)) b
  let nf := (List.range n).filter fun i => (bad i).isEmpty && !(inp i).g.isFin
  let r : PalRes := { except := nf.length, firstBad := nf.headD 0, nonfinite := nf.length, done := n
                      merges := poisonedIn m (stackKey s aW) (mw * n) ++ poisonedIn m (stackKey s a1) (4 * n)
                        ++ if adam then poisonedIn m (stackKey s a2) (4 * n) else [] }
  (b, allBad n bad r)

def idxAt (m : Mem) (s a i : Nat) : Nat := ofLE (m.readBytes (stackKey s (a + 4 * i)) 4)

/-- GATHER (R255, R268). -/
def runGather (s : Nat) (c : List Byte) (b : Buf) : Buf × PalRes :=
  let m := b.mem
  let rows := bits (palF c 3) 31 0
  let rl := rowLen (palF c 3)
  (List.range (palCount c)).foldl (fun st r =>
    let dst := stackKey s (palF c 2 + r * rl)
    let idxBad := poisonedIn m (stackKey s (palF c 0 + 4 * r)) 4
    let res := st.2.addPoison idxBad
    let res := { res with done := res.done + 1 }
    if !idxBad.isEmpty then (st.1.poisonRange dst rl, res)
    else
      let j := idxAt m s (palF c 0) r
      if rows ≤ j then (st.1.write dst (List.replicate rl 0), res.note 0x08 r)
      else
        let src := stackKey s (palF c 1 + j * rl)
        let pl := poisonedIn m src rl
        if pl.isEmpty then (st.1.write dst (m.readBytes src rl), res)
        else (st.1.poisonRange dst rl, res.addPoison pl)) (b, {})

/-- Insert by a key, after the entries with an equal one. -/
def insertBy (k : Nat) (x : Nat × Nat) : List (Nat × (Nat × Nat)) → List (Nat × (Nat × Nat))
  | [] => [(k, x)]
  | y :: t => if k < y.1 then (k, x) :: y :: t else y :: insertBy k x t

/-- The order in which SCATTER's rows reach a line of the table: rows (r, table row) that share a table row come in
any order (R126, R256, R261), a free value (log 2). -/
def scatterOrder (seed : Nat) (rows : List (Nat × Nat)) : List (Nat × Nat) :=
  (rows.foldl (fun (acc : List (Nat × (Nat × Nat))) (x : Nat × Nat) =>
    let shared := (rows.filter fun (y : Nat × Nat) => y.2 = x.2).length
    insertBy (if 1 < shared then Config.freeValue (seed + x.1) else 0) x acc) []).map (·.2)

/-- Line l of row r of SCATTER reaches table row j. -/
def scatterLine (s : Nat) (c : List Byte) (m : Mem) (sl rl l r j : Nat) (st : Buf × PalRes) : Buf × PalRes :=
  let acc := palCtl c 12 = 1
  let f := palCtl c 13
  let srcA := palF c 1 + r * sl
  let dst := stackKey s (palF c 2 + j * rl + 64 * l)
  let own := if acc then poisonedIn st.1.mem dst 64 else []
  if !(poisonedIn m (stackKey s srcA) sl).isEmpty || !own.isEmpty then 
    (st.1.poisonRange dst 64, { st.2.addPoison own with merges := st.2.merges ++ own })
  else if acc then
    (st.1.write dst ((List.range 8).flatMap fun i =>
      (accumInto m s f srcA (8 * l + i) (Pair32.ofBytes (st.1.mem.readBytes (dst + 8 * i) 8))).bytes), st.2)
  else (st.1.write dst (m.readBytes (stackKey s (srcA + 64 * l)) 64), st.2)

/-- SCATTER (R256, R268). -/
def runScatter (s seed : Nat) (c : List Byte) (b : Buf) : Buf × PalRes :=
  let m := b.mem
  let limit := bits (palF c 3) 31 0
  let rl := rowLen (palF c 3)
  let sl := if palCtl c 12 = 1 then rl / 8 * wOf (palCtl c 13) else rl
  let found := (List.range (palCount c)).foldl (fun (st : List (Nat × Nat) × PalRes) r =>
    let idxBad := poisonedIn m (stackKey s (palF c 0 + 4 * r)) 4
    let res := st.2.addPoison idxBad
    let res := { res with done := res.done + 1 }
    let j := idxAt m s (palF c 0) r
    if !idxBad.isEmpty then (st.1, res)
    else if limit ≤ j then (st.1, res.note 0x08 r)
    else (st.1 ++ [(r, j)], res.addPoison (poisonedIn m (stackKey s (palF c 1 + r * sl)) sl))) ([], {})
  (List.range (rl / 64)).foldl (fun st l =>
    (scatterOrder (seed + l * palCount c) found.1).foldl (fun st (x : Nat × Nat) =>
      scatterLine s c m sl rl l x.1 x.2 st) st) (b, found.2)

/-- Free values that a command may use. -/
def palFree (c : List Byte) : Nat := if palOp c = 0x06 then palCount c * (rowLen (palF c 3) / 64) else 0

/-- KV_APPEND (R257, R268): it stops at the first token it cannot place. -/
def runKvAppend (s : Nat) (c : List Byte) (b : Buf) : Buf × PalRes :=
  let m := b.mem
  let tl := rowLen (palF c 3)
  let pos := bits (palF c 3) 31 0
  let pages := bits (palF c 4) 31 0
  let r := (List.range (palCount c)).foldl (fun (st : Buf × PalRes × Bool) t =>
    if st.2.2 then st
    else
      let p := pos + t
      let ea := palF c 1 + 4 * (p / 64)
      let eb := poisonedIn m (stackKey s ea) 4
      if !eb.isEmpty then (st.1, st.2.1.addPoison eb, true)
      else
        let e := ofLE (m.readBytes (stackKey s ea) 4)
        if pages ≤ e then (st.1, st.2.1.note 0x09 t, true)
        else
          let src := stackKey s (palF c 0 + t * tl)
          let dst := stackKey s (palF c 2 + (64 * e + p % 64) * tl)
          let pl := poisonedIn m src tl
          let res := { st.2.1 with done := st.2.1.done + 1 }
          if pl.isEmpty then (st.1.write dst (m.readBytes src tl), res, false)
          else (st.1.poisonRange dst tl, res.addPoison pl, false)) (b, {}, false)
  (r.1, r.2.1)

/-- KV_COMPACT (R258): moves in list order. -/
def runKvCompact (s : Nat) (c : List Byte) (rs : List (Nat × Nat)) (b : Buf) : Buf × PalRes :=
  let tl := rowLen (palF c 3)
  let pages := bits (palF c 4) 31 0
  let pl := 64 * tl
  (List.range (palCount c)).foldl (fun st i =>
    let m := st.1.mem
    let ek := stackKey s (palF c 0 + 16 * i)
    let eb := poisonedIn m ek 16
    let res := { st.2 with done := st.2.done + 1 }
    if !eb.isEmpty then (st.1, res.addPoison eb)
    else
      let src := ofLE (m.readBytes ek 4)
      let dst := ofLE (m.readBytes (ek + 4) 4)
      let pte := ofLE (m.readBytes (ek + 8) 8)
      if pages ≤ src || pages ≤ dst || pte % 4 != 0 || !(inRegions rs pte 4) then (st.1, res.note 0x08 i)
      else
        let sk := stackKey s (palF c 2 + src * pl)
        let dk := stackKey s (palF c 2 + dst * pl)
        let bad := poisonedIn m sk pl
        let b := st.1.opsAll ((List.range (pl / 64)).map fun l => .copy (sk + 64 * l) (dk + 64 * l))
        let res := res.addPoison bad
        let pb := poisonedIn b.mem (stackKey s pte) 4
        if !pb.isEmpty then (b, { res.addPoison pb with merges := res.merges ++ pb })
        else if ofLE (b.mem.readBytes (stackKey s pte) 4) = src then (b.write (stackKey s pte) (leBytes 4 dst), res)
        else (b, res.note 0x0A i)) (b, {})

/-- DIGEST (R259). -/
def runDigest (s : Nat) (c : List Byte) (b : Buf) : Buf × PalRes :=
  let a := palF c 0
  let len := bits (palF c 1) 36 0
  let pl := poisonedIn b.mem (stackKey s a) len
  if pl.isEmpty then (b.write (stackKey s (palF c 2)) (sha3 (b.mem.readBytes (stackKey s a) len)), {})
  else (b, PalRes.addPoison {} pl)

/-- Run a command that passed its checks. -/
def palRun (s seed : Nat) (c : List Byte) (rs : List (Nat × Nat)) (b : Buf) : Buf × PalRes :=
  match palOp c with
  | 0x01 => runEw s c b
  | 0x02 => runAccum s c b
  | 0x03 => runOpt false s c b
  | 0x04 => runOpt true s c b
  | 0x05 => runGather s c b
  | 0x06 => runScatter s seed c b
  | 0x07 => runKvAppend s c b
  | 0x08 => runKvCompact s c rs b
  | _ => runDigest s c b

/-- Lines that a run met with a read-modify-write and found poisoned (R217, R260): an element-wise command updates each line of
an array in one action, whatever elements of it are skipped. -/
def palMerges (c : List Byte) (m : Mem) (r : Buf × PalRes) : List Nat :=
  let part := (r.1.ops.foldl (fun (st : Mem × List Nat) o =>
    let hit := match o with
      | .line k data => if (k % 64 != 0 || data.length != 64) && st.1.isPoisoned (k / 64) then [k / 64] else []
      | _ => []
    (st.1.apply o, st.2 ++ hit)) (m, [])).2
  if palOp c ≤ 4 then (part ++ r.2.merges).eraseDups else part ++ r.2.merges

end Sys2Proof.Machine
end

