-- ==== Sys2Proof/Machine/PalOps.lean ====
section
/-! DEFINITION. The queues of the Palette engines: acceptance, stopping and dropping (R243 to R247, R269). -/

namespace Sys2Proof.Machine

open Sys2Proof

namespace Ctl

def palQueue (c : Ctl) (st q : Nat) : Option PalQueue := (c.stack st).queues.get? q

def updQueue (st q : Nat) (f : PalQueue → PalQueue) (c : Ctl) : Ctl :=
  c.updStack st fun s => { s with queues := s.queues.map fun x => if x.1 = q then (q, f x.2) else x }

/-- Slots of a queue that are occupied (R246). -/
def slotsUsed (x : PalQueue) : Nat := x.accepted - (if x.ring.isSome then x.head else x.completed)

/-- Enqueue a command, or the code of its refusal, counted in QUEUE_REJECTS (R245, R269). -/
def palAccept (st q : Nat) (cmd : List Byte) (c : Ctl) : Except Nat Ctl × Ctl :=
  let no := c.updStack st fun s => { s with rejects := inc32 s.rejects }
  match c.palQueue st q with
  | none => (.error 0x050A, no)
  | some x =>
    if c.locked || c.alarms.gesso then (.error 0x0508, c)
    else if x.closing || cmd.length != 64 then (.error 0x050A, no)
    else if 64 ≤ slotsUsed x then (.error 0x0509, no)
    else
      (.ok c, c.updQueue st q fun x => { x with accepted := x.accepted + 1, waiting := x.waiting ++ [cmd] })

/-- The regions of the given numbers, as a queue is bound to them for its life (R273). -/
def bindRegions (c : Ctl) (l : List Nat) : List (Nat × Nat) :=
  l.map fun n => (n, ((c.fabric.regions.get? n).map (·.id)).getD 0)

/-- The ranges of a queue's regions as they stand: stack offset and length. A region that has been destroyed is none of them,
whatever has its number since (R273). -/
def palRanges (c : Ctl) (x : PalQueue) : List (Nat × Nat) :=
  x.regions.filterMap fun n =>
    match c.fabric.regions.get? n.1 with
    | some r => if r.zeroing || r.id != n.2 then none else some (stackA r.base, r.len)
    | none => none

/-- The window region of a queue ceases with it. -/
def dropQueue (st q : Nat) (c : Ctl) : Ctl :=
  match c.palQueue st q with
  | none => c
  | some x =>
    let c := c.updStack st fun s => { s with queues := Tab.del q s.queues }
    let c := c.onFabric fun f => { f with regions := f.regions.filter fun r => r.1 != x.window || r.2.use != .window st q }
    c.finishOne (.paletteQueue st q) 0 []

/-- Whether the next command of a queue can start (R240, R242, R247, Table 19-1): fewer than 8 execute, an ORDERED command finds no
earlier one of its queue executing, the bank of its first line holds a credit, and the stack serves. -/
def palReady (c : Ctl) (st q : Nat) : Bool :=
  let sk := c.stack st
  match (c.palQueue st q).map (·.waiting) with
  | some (cmd :: _) =>
    decide ((sk.execs.filter (·.started)).length < 8) && sk.band != 4 && [2, 3, 4].contains (c.stateOf (7 + st))
      && !(palOrdered cmd && sk.execs.any (·.queue = q)) && (palBank cmd).all fun b => decide (0 < sk.credits b)
  | _ => false

/-- The queue of a stack whose command starts next: the first in rotation that can (R247). -/
def palNext (c : Ctl) (st : Nat) : Option Nat :=
  ((List.range 32).map fun i => ((c.stack st).turn + 1 + i) % 32).find? (c.palReady st)

/-- Whether a queue has a command still to complete. -/
def queueBusy (c : Ctl) (st q : Nat) : Bool :=
  (c.stack st).execs.any (·.queue = q) || (c.palQueue st q).any (!·.waiting.isEmpty)

/-- Stop a queue (R269): it accepts nothing more; what has not started, and what executes, completes with ABORTED. -/
def stopQueue (st q : Nat) (c : Ctl) : Ctl :=
  match c.palQueue st q with
  | none => c
  | some x =>
    let c := c.updStack st fun s => { s with
      execs := (s.execs.map fun e => if e.queue = q then { e with status := 0x0B } else e)
        ++ x.waiting.map fun cmd => { started := false, queue := q, cmd := cmd, status := 0x0B, done := 0, except := 0, firstBad := 0 } }
    let c := c.updQueue st q fun x => { x with closing := true, waiting := [] }
    if c.queueBusy st q then c else c.dropQueue st q

/-- The commands of a queue that have not started complete with ABORTED; the queue persists (R603). With `all` those that
execute do too. -/
def abortQueue (st q : Nat) (all : Bool) (c : Ctl) : Ctl :=
  match c.palQueue st q with
  | none => c
  | some x =>
    (c.updStack st fun s => { s with
      execs := (s.execs.map fun e => if all && e.queue = q then { e with status := 0x0B } else e)
        ++ x.waiting.map fun cmd => { started := false, queue := q, cmd := cmd, status := 0x0B, done := 0, except := 0, firstBad := 0 } }).updQueue
      st q fun x => { x with waiting := [] }

end Ctl

end Sys2Proof.Machine
end

