-- ==== Sys2Proof/Machine/ServeMath.lean ====
section
/-! DEFINITION. The arithmetic of the serving engine: text (R479, R480), the sampler (R490, R491), percentiles (R493) and
floors (R496, R498). -/

namespace Sys2Proof.Machine

open Sys2Proof

/-! Text. -/

/-- Bytes of the UTF-8 character that begins with b (RFC 3629); 0 where no character begins so. -/
def utf8Len (b : Nat) : Nat :=
  if b < 0x80 then 1 else if 0xC2 ≤ b && b ≤ 0xDF then 2 else if 0xE0 ≤ b && b ≤ 0xEF then 3
  else if 0xF0 ≤ b && b ≤ 0xF4 then 4 else 0

/-- Whether c may follow the first byte b of a character. -/
def utf8Second (b c : Nat) : Bool :=
  let lo := if b = 0xE0 then 0xA0 else if b = 0xF0 then 0x90 else 0x80
  let hi := if b = 0xED then 0x9F else if b = 0xF4 then 0x8F else 0xBF
  lo ≤ c && c ≤ hi

/-- Valid UTF-8 (R480); fuel is the number of bytes. -/
def utf8Ok : Nat → List Nat → Bool
  | _, [] => true
  | 0, _ => false
  | f + 1, b :: t =>
    let n := utf8Len b
    let tail := t.take (n - 1)
    0 < n && tail.length = n - 1 && (tail.head?.all (utf8Second b)) && ((tail.drop 1).all fun c => 0x80 ≤ c && c ≤ 0xBF)
      && utf8Ok f (t.drop (n - 1))

/-- Length of the longest part from the start that ends on a character boundary; a byte that begins no character stands
alone. -/
def utf8Whole : Nat → List Nat → Nat
  | _, [] => 0
  | 0, _ => 0
  | f + 1, b :: t =>
    let n := max 1 (utf8Len b)
    if t.length < n - 1 then 0 else n + utf8Whole f (t.drop (n - 1))

/-- The loaded form holds by R479. -/
def bpOk (vocab : Nat) (t : BpTable) : Bool :=
  decide (t.entries.length ≤ vocab) && t.entries.all (fun e => 1 ≤ e.length && e.length ≤ 64)
    && (List.range 256).all (fun b => t.entries.contains [BitVec.ofNat 8 b])
    && t.merges.all fun m =>
      match t.entries[m.1]?, t.entries[m.2.1]?, t.entries[m.2.2]? with
      | some x, some y, some z => z = x ++ y
      | _, _, _ => false

/-- Join the leftmost pair of one merge. -/
def joinFirst (a b r : Nat) : List Nat → Option (List Nat)
  | x :: y :: t => if x = a && y = b then some (r :: t) else (joinFirst a b r (y :: t)).map (x :: ·)
  | _ => none

/-- Join pairs of lowest rank, leftmost first, until none remains (R480). -/
def bpJoin (merges : List (Nat × Nat × Nat)) : Nat → List Nat → List Nat
  | 0, l => l
  | f + 1, l =>
    match merges.findSome? fun m => joinFirst m.1 m.2.1 m.2.2 l with
    | some l => bpJoin merges f l
    | none => l

def bpEncode (t : BpTable) (text : List Byte) : List Nat :=
  bpJoin t.merges text.length (text.map fun b => t.entries.findIdx (· = [b]))

/-! The sampler. -/

/-- State of a sequence's generator for a SEED (R491). -/
def seedState (seed : Nat) : Nat :=
  let v := (seed % 2 ^ 32) ^^^ (seed / 2 ^ 32 % 2 ^ 32) ^^^ 0x9E3779B9
  if v = 0 then 1 else v

/-- A draw: u times 2^32, and the state after it. -/
def drawU (v : Nat) : Nat × Nat :=
  let a := xorshift v
  let b := xorshift a
  (65536 * (a >>> 16) + (b >>> 16), b)

/-- A logit as the sampler takes it: a NaN is minus infinity. -/
def logitOf (code : Nat) : Fp :=
  match dec32 code with
  | .nan => .inf true
  | x => x

/-- The largest value and the lowest index that has it. -/
def argmax (l : List Fp) : Option (Nat × Fp) :=
  (l.zipIdx.foldl (fun (b : Option (Nat × Fp)) (x : Fp × Nat) =>
    match b with
    | none => some (x.2, x.1)
    | some y => if y.2.lt x.1 then some (x.2, x.1) else b) none)

/-- p of step 2 (R490): 0 for a logit of minus infinity, 1 for the largest, else a value of 0 to 1 (log 6); a subnormal
becomes +0 (Table 3-4). -/
def probOf (temp : BitVec 32) (lmax code : Nat) : Fp :=
  match logitOf code with
  | .inf true => .zero
  | x =>
    if x.isFin && !x.lt (logitOf lmax) then .fin false 1 0
    else
      let y := dec32 ((Config.samplerProb (BitVec.ofNat 32 code) (BitVec.ofNat 32 lmax) temp).toNat % 0x3F800001)
      if y.lt (.fin false 1 (-126)) then .zero else y

/-- The running sums of a list as twin pairs, each rounded once to binary32. -/
def runningSums (l : List Fp) : List Fp :=
  (l.foldl (fun (st : (Fp × Fp) × List Fp) p =>
    let r := addEntry st.1.1 st.1.2 p
    ((r.s, r.e), st.2 ++ [rne32 (pairValue (r.s, r.e))])) ((.zero, .zero), [])).2

/-- Steps 3 to 5 of R490 over candidates (token, p) with the modes of Table 16-7. -/
def sampleKept (mode topK : Nat) (topP : BitVec 32) (u : Nat) (ps : List (Nat × Fp)) : Nat :=
  let sorted := ps.mergeSort fun a b => !(a.2.lt b.2)
  let kept := if mode = 2 || mode = 4 then sorted.take topK else sorted
  let sums := runningSums (kept.map (·.2))
  let total := sums.getLastD .zero
  let kept := if mode = 3 || mode = 4 then
      let goal := (dec32 topP.toNat).mul total
      kept.take (max 1 (((sums.findIdx? fun s => !(s.lt goal)).map (· + 1)).getD kept.length))
    else kept
  let sums := runningSums (kept.map (·.2))
  let goal := (Fp.fin false u (-32)).mul (sums.getLastD .zero)
  let i := (sums.findIdx? fun s => goal.lt s).getD (kept.length - 1)
  (kept[i]?.map (·.1)).getD 0

/-- One token from a row of binary32 logit codes, with the generator's state after it; none for a sampler fault. -/
def sampleRow (r : ReqArgs) (rng : Nat) (row : List Nat) : Option (Nat × Nat) :=
  match argmax (row.map logitOf) with
  | none => none
  | some (i, x) =>
    if x = .inf true then none
    else if r.mode = 0 then some (i, rng)
    else
      let d := drawU rng
      let lmax := row.getD i 0
      some (sampleKept r.mode r.topK r.topP d.1 (row.zipIdx.map fun (y : Nat × Nat) => (y.2, probOf r.temp lmax y.1)), d.2)

/-- SAMPLE_INVALID: the limits of Table 16-7. -/
def sampleOk (r : ReqArgs) : Bool :=
  let t := dec32 r.temp.toNat
  let p := dec32 r.topP.toNat
  let tempOk := Fp.zero.lt t && !(Fp.lt (.fin false 100 0) t)
  let kOk := 1 ≤ r.topK && r.topK ≤ 1024
  let pOk := Fp.zero.lt p && !(Fp.lt (.fin false 1 0) p)
  match r.mode with
  | 0 => true
  | 1 => tempOk
  | 2 => tempOk && kOk
  | 3 => tempOk && pOk
  | 4 => tempOk && kOk && pOk
  | _ => false

/-! Percentiles (R493). -/

/-- The bucket of a latency of x ns. -/
def bucketOf (x : Nat) : Nat :=
  if x < 1024 then 0
  else if 2 ^ 30 ≤ x then 640
  else
    let e := Nat.log2 x
    32 * (e - 10) + 32 * (x - 2 ^ e) / 2 ^ e

/-- Upper edge of a bucket. -/
def bucketTop (b : Nat) : Nat := if b = 640 then 0xFFFFFFFF else 2 ^ (10 + b / 32) * (33 + b % 32) / 32

def samplesOf (hist : Tab Nat) : Nat := hist.vals.foldl (· + ·) 0

/-- Percentile n/d of a window. -/
def percentile (hist : Tab Nat) (n d : Nat) : Nat :=
  let goal := ceilDiv (n * samplesOf hist) d
  let r := hist.foldl (fun (st : Nat × Option Nat) (x : Nat × Nat) =>
    let s := st.1 + x.2
    (s, if st.2.isNone && decide (goal ≤ s) then some x.1 else st.2)) (0, none)
  if goal = 0 then bucketTop 0 else bucketTop (r.2.getD 640)

/-! Floors (R496, R498). Times are exact fractions of a second. -/

structure Ratio where
  num : Nat
  den : Nat
  deriving DecidableEq, Repr

def Ratio.le (a b : Ratio) : Bool := decide (a.num * b.den ≤ b.num * a.den)
def Ratio.max (a b : Ratio) : Ratio := if a.le b then b else a
def Ratio.add (a b : Ratio) : Ratio := ⟨a.num * b.den + b.num * a.den, a.den * b.den⟩

/-- t(B, n) where the B sequences have CTX_LIMITs of that sum. -/
def iterTime (a : ModelArgs) (b ctxSum n : Nat) : Ratio :=
  let mem : Ratio := ⟨a.bytesFixed + a.kvBytes * ctxSum, 13690000000000⟩
  let arr : Ratio := ⟨ceilDiv b 128 * a.stepsPerPass, 100000000 * (16 - n)⟩
  (mem.max arr).add ⟨b * a.vocab, 256000000000⟩

/-- T_G. -/
def guaranteedTime (a : ModelArgs) (b ctxSum n : Nat) : Ratio :=
  let t := iterTime a b ctxSum n
  ⟨t.num * (100 + a.prefillShare), t.den * 100⟩

/-- Whether a contract's targets hold at T_G. -/
def targetsHold (k : ContractArgs) (t : Ratio) : Bool :=
  let itlOk := fun (ns : Nat) => ns = 0 || Ratio.le t ⟨ns, 1000000000⟩
  let rateOk := match dec32 k.rateSeq.toNat with
    | .fin false m e => !(Fp.lt (.fin false t.den 0) (.fin false (m * t.num) e))
    | _ => false
  rateOk && itlOk k.p50 && itlOk k.p99 && itlOk k.p999

end Sys2Proof.Machine
end

