-- ==== Sys2Proof/Machine/Router.lean ====
section
/-! DEFINITION. The router: classes, routes, ports, drops, NAKs and multicast (chapter 13), and the sender of a
hop (R379, R386). -/

namespace Sys2Proof

open Sys2Proof.Machine

/-- The class of a TYPE (Table 13-3): 0 collective, 1 memory request, 2 response, 3 control. -/
def classOf (t : Nat) : Option Nat :=
  if 0x20 ≤ t && t ≤ 0x2F then some 0
  else if 0x01 ≤ t && t ≤ 0x0F then some 1
  else if 0x10 ≤ t && t ≤ 0x19 then some 2
  else if 0x30 ≤ t && t ≤ 0x3F then some 3
  else none

/-- Types that no table assigns (Tables 14-4, 15-4): dropped as MALFORMED. -/
def typeKnown (t : Nat) : Bool :=
  (1 ≤ t && t ≤ 5) || t = 0x10 || t = 0x11 || t = 0x12 || t = 0x18 || t = 0x19 || (0x20 ≤ t && t ≤ 0x26) || t = 0x30

/-- Whether a packet awaits an acknowledgement (R396). -/
def awaitsAck (t : Nat) : Bool := (1 ≤ t && t ≤ 0x0F) || (0x20 ≤ t && t ≤ 0x2F) || t = 0x30

def Pkt.mcast (p : Pkt) : Bool := bit p.flags 0

/-- Header checks of R380 and R382. -/
def Pkt.malformed (p : Pkt) : Bool :=
  !p.rsvdZero || decide (4096 < p.payload.length) || !typeKnown p.type || p.flags ≥ 8
    || (match classOf p.type with
        | some k => p.vc / 2 != k
        | none => true)

/-- Buffer slots of a VC on a hop (Table 9-2). -/
def hopB (vc : Nat) : Nat := if vc < 2 then 1024 else 256

/-- Hop flits of a packet: 36 bytes of header and CRC, and its payload, 236 bytes a flit (Table 13-1). -/
def hopFlits (p : Pkt) : Nat := ceilDiv (36 + p.payload.length) 236

/-- The header of a packet (Table 13-2), the VC and HOP_LIMIT as given. -/
def Pkt.header (p : Pkt) (vc hop : Nat) : List Byte :=
  leBytes 1 p.type ++ leBytes 1 p.flags ++ leBytes 2 p.dest ++ leBytes 2 p.src ++ leBytes 2 p.payload.length ++ leBytes 4 p.flowSeq
    ++ leBytes 4 p.gen ++ leBytes 2 p.job ++ leBytes 2 p.tag ++ leBytes 1 vc ++ leBytes 1 hop ++ leBytes 1 p.mcDim
    ++ leBytes 1 p.mcPlus ++ leBytes 1 p.mcMinus ++ leBytes 3 p.key ++ leBytes 4 p.typeArg

/-- The bytes of a packet (R380, R381): its CRC counts the VC and HOP_LIMIT as 0. -/
def Pkt.bytes (p : Pkt) : List Byte :=
  p.header p.vc p.hopLimit ++ p.payload ++ leBytes 4 (crc32c (p.header 0 0 ++ p.payload))

/-- A packet as its bytes read (R380, R381). -/
def Pkt.ofBytes (b : List Byte) : Pkt :=
  let n := fieldAt b 6 2
  let p : Pkt :=
    { type := fieldAt b 0 1, flags := fieldAt b 1 1 % 8, dest := fieldAt b 2 2, src := fieldAt b 4 2, flowSeq := fieldAt b 8 4
      gen := fieldAt b 12 4, job := fieldAt b 16 2, tag := fieldAt b 18 2, vc := fieldAt b 20 1 % 8, hopLimit := fieldAt b 21 1
      mcDim := fieldAt b 22 1 % 4, mcPlus := fieldAt b 23 1 % 64, mcMinus := fieldAt b 24 1 % 64, key := fieldAt b 25 3
      typeArg := fieldAt b 28 4, payload := bytesAt b 32 n, crcOk := true, rsvdZero := true }
  { p with
    crcOk := crc32c ((b.take 20) ++ zeros 2 ++ (b.drop 22).take (10 + n)) = fieldAt b (32 + n) 4
    rsvdZero := fieldAt b 1 1 < 8 && fieldAt b 20 1 < 8 && fieldAt b 22 1 < 4 && fieldAt b 23 1 < 64 && fieldAt b 24 1 < 64 }

/-- The packets that the bytes of a VC complete, and the bytes of the one in progress (R380). -/
def splitPkts : Nat → List Byte → List Pkt × List Byte
  | 0, b => ([], b)
  | f + 1, b =>
    let n := 36 + fieldAt b 6 2
    if b.length < 32 || b.length < n then ([], b)
    else
      let r := splitPkts f (b.drop n)
      (Pkt.ofBytes (b.take n) :: r.1, r.2)

/-- Entries of a SYNC packet: m of TYPE_ARG [10:8] plus 1 (Table 14-4). -/
def syncCount (p : Pkt) : Nat := bits p.typeArg 10 8 + 1

/-- Coordinates of the module at position i of MEMBERS, dimension 0 fastest (Table 13-4). -/
def coordOf (lens : List Nat) (i : Nat) : List Nat :=
  (lens.foldl (fun (st : Nat × List Nat) l => (st.1 / max 1 l, st.2 ++ [st.1 % max 1 l])) (i, [])).2

def RouteTable.coord (t : RouteTable) (m : Nat) : Option (List Nat) :=
  (t.members.findIdx? (· = m)).map (coordOf t.lens)

def RouteTable.len (t : RouteTable) (d : Nat) : Nat := t.lens.getD d 1
def RouteTable.ring (t : RouteTable) (d : Nat) : Bool := t.wraps.getD d 0 = 1
def RouteTable.me (t : RouteTable) (d : Nat) : Nat := t.selfAt.getD d 0
def RouteTable.mask (t : RouteTable) (d dir : Nat) : Nat := if dir = 0 then t.plus.getD d 0 else t.minus.getD d 0

/-- The dimension and direction (0 plus, 1 minus) of the next hop toward coordinate c (R389). -/
def RouteTable.hop (t : RouteTable) (c : List Nat) : Option (Nat × Nat) :=
  (List.range t.lens.length).findSome? fun d =>
    let x := c.getD d 0
    let s := t.me d
    if x = s then none
    else if t.ring d then
      let up := (x + t.len d - s) % t.len d
      let down := (s + t.len d - x) % t.len d
      some (d, if up ≤ down then 0 else 1)
    else some (d, if s < x then 0 else 1)

/-- The dimension whose masks hold an input port. -/
def RouteTable.dimOfPort (t : RouteTable) (p : Nat) : Option Nat :=
  (List.range t.lens.length).find? fun d => bit (t.mask d 0) p || bit (t.mask d 1) p

/-- Whether the hop crosses the dateline (R384). -/
def RouteTable.crosses (t : RouteTable) (d dir : Nat) : Bool :=
  t.ring d && (if dir = 0 then t.me d + 1 = t.len d else t.me d = 0)

/-- The VC of the next hop (R384): odd once the dateline of this dimension is crossed. -/
def RouteTable.nextVc (t : RouteTable) (src : Option Nat) (p : Pkt) (d dir : Nat) : Nat :=
  let even := p.vc / 2 * 2
  let same := src.bind t.dimOfPort = some d
  if t.crosses d dir || (same && p.vc % 2 = 1) then even + 1 else even

end Sys2Proof

namespace Sys2Proof.Machine

open Sys2Proof

/-- The receiver frees n slots of a VC (R275). -/
def LinkRx.free (vc n : Nat) (x : LinkRx) : LinkRx := { x with freed := Tab.upd vc 0 (fun t => (t + n) % 65536) x.freed }

namespace Ctl

/-- A port carries hop flits while READY or DEGRADED with outcome MATCH (R399). -/
def portUp (c : Ctl) (p : Nat) : Bool := c.usable (20 + p) && (c.port p).outcome = 1

def hopCredits (c : Ctl) (p vc : Nat) : Nat := hopB vc - (c.port p).tx.used.getD vc 0

/-- The port of a mask with the most credits, ties to the lower number (R390). -/
def pickPort (c : Ctl) (mask vc : Nat) : Option Nat :=
  (bitList mask 32).foldl (fun best p =>
    if !c.portUp p then best
    else
      match best with
      | none => some p
      | some q => if c.hopCredits q vc < c.hopCredits p vc then some p else some q) none

def usableDir (c : Ctl) (t : RouteTable) (d dir : Nat) : Bool := (bitList (t.mask d dir) 32).any c.portUp

/-- Drop the reports of directions that are usable again (R390). -/
def refreshBroken (c : Ctl) : Ctl :=
  c.onRouter fun r => { r with
    broken := r.broken.filter fun b =>
      match r.tables.get? b.1 with
      | some t => !c.usableDir t b.2.1 b.2.2
      | none => false }

/-- ROUTE_BROKEN, once while the direction stays broken (R390, R407). -/
def reportBroken (job d dir : Nat) (c : Ctl) : Ctl :=
  if c.router.broken.contains (job, d, dir) then c
  else
    (c.onRouter fun r => { r with broken := r.broken ++ [(job, d, dir)] }).event 0x0410
      (encode [.n 2 job, .n 1 d, .n 1 dir]) { owner := true, fabric := true, tenant := [job] }

/-- Count a drop at its input port, or at the module's own units (Table 13-6). -/
def countDrop (src : Option Nat) (r : Nat) (c : Ctl) : Ctl :=
  match src with
  | some p => c.updPort p fun x => { x with drops := Tab.upd r 0 inc32 x.drops }
  | none => c.onRouter fun x => { x with localDrops := Tab.upd r 0 inc32 x.localDrops }

/-! The hop sender. -/


/-- Whether a flit of a VC can go on a port now: the port carries hop flits, holds a credit, and has room in its replay buffer of
4,096 (R276, R379). -/
def canSend (c : Ctl) (port vc : Nat) : Bool :=
  let x := c.port port
  x.outcome = 1 && !x.retrain && decide (0 < c.hopCredits port vc) && decide (x.tx.unacked.length < 4096)

/-- The packet of a VC that goes on: the one that holds the VC until its last flit, else the first of the source that comes next in
the rotation of input ports and local units (R386). -/
def nextHeld (t : LinkTx) (vc : Nat) : Option Held :=
  let mine := t.held.filter (·.pkt.vc = vc)
  match mine.find? (0 < ·.sent) with
  | some h => some h
  | none => ((List.range 33).map fun i => (t.turn.getD vc 32 + 1 + i) % 33).findSome? fun s => mine.find? (·.src = s)

/-- Put the next flit of a held packet on the wire (R376 to R379): it takes a credit and a number, and carries the credit total of
the next VC in rotation and what its receiver has to say. -/
def sendFlit (port : Nat) (h : Held) (c : Ctl) : Ctl :=
  let vc := h.pkt.vc
  c.updPort port fun x =>
    let v := x.tx.rot % 8
    { x with
      flitsTx := (x.flitsTx + 1) % 2 ^ 64
      pktsTx := if h.sent = 0 then (x.pktsTx + 1) % 2 ^ 64 else x.pktsTx
      rr := if vc < 6 then vc else x.rr
      rx := { x.rx with nak := false, told := Tab.set v (x.rx.freed.getD v 0) x.rx.told }
      tx := { x.tx with
        unacked := x.tx.unacked ++ [(x.tx.next, vc, if h.sent = 0 then some h.pkt else none)]
        next := (x.tx.next + 1) % 65536
        used := Tab.upd vc 0 (· + 1) x.tx.used
        lastAdv := if x.tx.unacked.isEmpty then c.tick else x.tx.lastAdv
        txTotal := Tab.upd vc 0 (fun t => (t + 1) % 65536) x.tx.txTotal
        rot := (x.tx.rot + 1) % 8
        turn := Tab.set vc h.src x.tx.turn
        held := if h.sent + 1 < hopFlits h.pkt then x.tx.held.replace h { h with sent := h.sent + 1 } else x.tx.held.erase h } }

/-- The VC that R386 grants next among those that have a flit and a credit: control first, then the other six in rotation after the
last one granted. -/
def grantVc (c : Ctl) (port : Nat) : Option Nat :=
  let x := c.port port
  ([6, 7] ++ (List.range 6).map fun i => (x.rr + 1 + i) % 6).find? fun vc => (nextHeld x.tx vc).isSome && c.canSend port vc

/-- Send the flits of held packets while any can go. A port with a held packet and no credit counts STALL_TICKS. -/
def drainPort : Nat → Nat → Ctl → Ctl
  | 0, _, c => c
  | f + 1, port, c =>
    match (c.grantVc port).bind (nextHeld (c.port port).tx) with
    | some h => drainPort f port (c.sendFlit port h)
    | none =>
      let x := c.port port
      if x.tx.held.isEmpty then
        c.updPort port fun x => { x with
          stall := x.stall + (match x.stallFrom with
            | some t => c.tick - t
            | none => 0), stallFrom := none }
      else if x.stallFrom.isSome then c
      else c.updPort port fun x => { x with stallFrom := some c.tick }

/-- Send every flit that can go. -/
def drainAll (port : Nat) (c : Ctl) : Ctl :=
  c.drainPort (((c.port port).tx.held.map fun h => hopFlits h.pkt).foldl (· + ·) 1) port

/-- Two SYNC packets that wait in one queue and may be merged (R426). -/
def mergeable (p q : Pkt) : Bool :=
  (p.type = 4 || p.type = 5) && p.type = q.type && p.dest = q.dest && p.job = q.job && p.key = q.key && p.vc = q.vc
    && bit p.typeArg 4 = bit q.typeArg 4 && p.payload.take 8 = q.payload.take 8 && p.crcOk && q.crcOk
    && decide (syncCount p + syncCount q ≤ 8)

/-- The merged packet: entries in arrival order (R426). -/
def mergedPkt (p q : Pkt) : Pkt :=
  { p with
    payload := p.payload ++ q.payload.drop 8
    flags := p.flags ||| (q.flags &&& 2)
    typeArg := (p.typeArg &&& 0x10) ||| ((syncCount p + syncCount q - 1) <<< 8) }

/-- Queue a packet of a source at an output port, merging it with a waiting SYNC packet where R426 allows, and send what can go. -/
def sendOn (port src : Nat) (p : Pkt) (c : Ctl) : Ctl :=
  let c := match (c.port port).tx.held.find? (fun h => h.sent = 0 && mergeable h.pkt p) with
    | some h =>
      (c.updPort port fun x => { x with tx := { x.tx with
        held := x.tx.held.replace h { h with pkt := mergedPkt h.pkt p } } }).onFabric fun f =>
          { f with combined := inc32 f.combined }
    | none => c.updPort port fun x => { x with tx := { x.tx with held := x.tx.held ++ [({ pkt := p, src } : Held)] } }
  c.drainAll port

/-! Delivery and routing. -/

/-- Whether a packet is a memory request, which takes a slot of the home's ingress (R416). -/
def isRequest (p : Pkt) : Bool := 1 ≤ p.type && p.type ≤ 0x0F

/-- Slots of the home's ingress in use (R416, R418): requests delivered, and those admitted that a stack holds. -/
def ingressUsed (c : Ctl) : Nat :=
  (c.fabric.arrivals.filter isRequest).length + (c.stackTab.vals.map fun s => (s.held.filter fun x => match x with
    | .req _ => true
    | _ => false).length).sum

/-- The count of the ticks at which the home's ingress is full begins or ends (Table 14-8). -/
def markFull (c : Ctl) : Ctl :=
  let full := decide (2048 ≤ c.ingressUsed)
  c.onFabric fun f => match f.fullFrom with
    | some t => if full then f else { f with fullTicks := f.fullTicks + (c.tick - t), fullFrom := none }
    | none => if full then { f with fullFrom := some c.tick } else f

/-- Memory requests of the module's own units that waited for a free slot of the home's ingress take one (R418). -/
def fillIngress (c : Ctl) : Ctl :=
  let n := 2048 - c.ingressUsed
  (c.onFabric fun f => { f with blocked := f.blocked.drop n, arrivals := f.arrivals ++ f.blocked.take n }).markFull

/-- Deliver a packet to the module's own units. One whose CRC fails is discarded and counted at the port it came by (R381), and so is
one that a module expelled from the job has sent (R462). While the home's ingress of 2,048 is full, memory requests wait
(R416, R418). -/
def deliver (src : Option Nat) (p : Pkt) (c : Ctl) : Ctl :=
  if !p.crcOk then c.countDrop src 6
  else if (c.jobs.get? p.job).any fun j => j.expelled.contains p.src then c
  else if isRequest p && decide (2048 ≤ c.ingressUsed) then
    c.onFabric fun f => { f with blocked := f.blocked ++ [p] }
  else (c.onFabric fun f => { f with arrivals := f.arrivals ++ [p] }).markFull

/-- What the routing of a header decides; `lost` are the copies of a multicast that cannot go on, each with its reason and the
direction found broken. -/
inductive RouteOut where
  | drop (reason : Nat) (broken : Option (Nat × Nat))
  | here
  | port (p vc : Nat)
  | multi (here : Bool) (onward : List (Nat × Nat)) (lost : List (Nat × Option (Nat × Nat)))
  deriving DecidableEq, Repr

/-- Extents of a multicast within its dimension (R394). -/
def extentsOk (t : RouteTable) (p : Pkt) : Bool :=
  let d := p.mcDim
  d < t.lens.length &&
    (if t.ring d then decide (p.mcPlus + p.mcMinus + 1 ≤ t.len d)
     else decide (p.mcMinus ≤ t.me d) && decide (t.me d + p.mcPlus < t.len d))

/-- Multicast at this module (R394, R395); a copy with no port to take is dropped at this hop (R390, R391). -/
def mcastRoute (c : Ctl) (src : Option Nat) (t : RouteTable) (p : Pkt) : RouteOut :=
  let d := p.mcDim
  let go := fun (here : Bool) (dirs : List Nat) =>
    let out := dirs.map fun dir =>
      let vc := t.nextVc src p d dir
      match c.pickPort (t.mask d dir) vc with
      | none => Except.error (2, some (d, dir))
      | some q => if p.hopLimit ≤ 1 then .error (3, none) else .ok (q, vc)
    .multi here
      (out.filterMap fun (x : Except (Nat × Option (Nat × Nat)) (Nat × Nat)) => match x with
        | .ok y => some y
        | .error _ => none)
      (out.filterMap fun (x : Except (Nat × Option (Nat × Nat)) (Nat × Nat)) => match x with
        | .ok _ => none
        | .error y => some y)
  match src with
  | none =>
    if classOf p.type != some 0 || !extentsOk t p || p.dest != c.selfModule then .drop 0x05 none
    else
      go false ((if 0 < p.mcPlus then [0] else []) ++ (if 0 < p.mcMinus then [1] else []))
  | some q =>
    match t.coord p.src with
    | none => .drop 0x02 none
    | some x =>
      if !((List.range t.lens.length).all fun e => e = d || x.getD e 0 = t.me e) then .drop 0x02 none
      else
        -- round a ring of 2 both ways lead through the same ports, and the extents say which way it came
        let dir := if t.ring d && t.len d = 2 && (bit (t.mask d 0) q || bit (t.mask d 1) q) then some (if 0 < p.mcPlus then 0 else 1)
          else if bit (t.mask d 1) q then some 0 else if bit (t.mask d 0) q then some 1 else none
        match dir with
        | none => .drop 0x02 none
        | some 0 =>
          let dist := (t.me d + t.len d - x.getD d 0) % t.len d
          go (1 ≤ dist && dist ≤ p.mcPlus) (if dist < p.mcPlus then [0] else [])
        | some _ =>
          let dist := (x.getD d 0 + t.len d - t.me d) % t.len d
          go (1 ≤ dist && dist ≤ p.mcMinus) (if dist < p.mcMinus then [1] else [])

/-- The routing decision for a header from an input port or a local unit (R387 to R391). A local packet for this
module never leaves it (R408). -/
def routeOf (c : Ctl) (src : Option Nat) (p : Pkt) : RouteOut :=
  if p.malformed then .drop 0x05 none
  else if p.mcast && classOf p.type != some 0 then .drop 0x05 none
  else if src.isNone && !p.mcast && p.dest = c.selfModule then .here
  else
    match c.router.tables.get? p.job with
    | none => .drop 0x04 none
    | some t =>
      if p.mcast then c.mcastRoute src t p
      else if p.dest = c.selfModule then .here
      else
        match t.coord p.dest with
        | none => .drop 0x02 none
        | some x =>
          match t.hop x with
          | none => .here
          | some (d, dir) =>
            let vc := t.nextVc src p d dir
            match c.pickPort (t.mask d dir) vc with
            | none => .drop 0x02 (some (d, dir))
            | some q => if p.hopLimit ≤ 1 then .drop 0x03 none else .port q vc

/-- Whether a copy of a multicast from an input port must wait: it is delivered here and goes on only when every next hop can take it
at once (R395). -/
def copyWaits (c : Ctl) (src : Option Nat) (p : Pkt) : Bool :=
  match src, c.routeOf src p with
  | some _, .multi _ onward _ => onward.any fun x => !(c.canSend x.1 x.2) || (c.port x.1).tx.held.any fun h => h.pkt.vc = x.2
  | _, _ => false

/-- Carry out a routing decision, but for the NAK of a drop. -/
def routed (src : Option Nat) (p : Pkt) (o : RouteOut) (c : Ctl) : Ctl :=
  let lose := fun (c : Ctl) (x : Nat × Option (Nat × Nat)) =>
    let c := c.countDrop src x.1
    match x.2 with
    | some (d, dir) => c.reportBroken p.job d dir
    | none => c
  match o with
  | .drop r b => lose c (r, b)
  | .here => c.deliver src p
  | .port q vc => c.sendOn q (src.getD 32) { p with vc, hopLimit := p.hopLimit - 1 }
  | .multi l onward lost =>
    let c := if l then c.deliver src p else c
    let c := onward.foldl (fun c x => c.sendOn x.1 (src.getD 32) { p with vc := x.2, hopLimit := p.hopLimit - 1 }) c
    lost.foldl lose c

/-- The NAK of a drop (R383, R396). -/
def nakOf (c : Ctl) (reason : Nat) (p : Pkt) : Pkt :=
  { type := 0x19, flags := 0, dest := p.src, src := c.selfModule, flowSeq := p.flowSeq, gen := 0, job := p.job
    tag := p.tag, vc := 4, hopLimit := 192, mcDim := 0, mcPlus := 0, mcMinus := 0, key := 0
    typeArg := reason + (p.flowSeq % 2 ^ 24) * 256, payload := [], crcOk := true, rsvdZero := true }

/-- Route a packet, and answer a drop by its NAK where Table 13-6 gives one (R396). -/
def route (src : Option Nat) (p : Pkt) (c : Ctl) : Ctl :=
  let o := c.routeOf src p
  let c := c.routed src p o
  let nak := fun (c : Ctl) (r : Nat) =>
    if 1 ≤ r && r ≤ 4 && awaitsAck p.type then
      let n := c.nakOf r p
      let c := match src with
        | some q => c.updPort q fun x => { x with naksTx := inc32 x.naksTx }
        | none => c
      c.routed none n (c.routeOf none n)
    else c
  match o with
  | .drop r _ => nak c r
  | .multi _ _ lost => (lost.map (·.1)).foldl nak c
  | _ => c

/-- Send a packet of a local unit (R384, R391). -/
def inject (p : Pkt) (c : Ctl) : Ctl :=
  c.route none { p with vc := 2 * (classOf p.type).getD 0, hopLimit := 192, src := c.selfModule }

end Ctl

end Sys2Proof.Machine
end

