-- ==== Sys2Proof/Machine/Ecc.lean ====
section
/-! DEFINITION. The inline code of the memory stacks: the Reed-Solomon code over GF(2^8) with its decoder's
verdicts (R210 to R213, R221). -/

namespace Sys2Proof.Machine

/-- Multiplication by alpha = 0x02 modulo x^8 + x^4 + x^3 + x^2 + 1. -/
def gfDouble (a : Nat) : Nat := if a < 128 then 2 * a else (2 * a) ^^^ 0x11D

/-- Product in GF(2^8), over the low n bits of b. -/
def gfMulN : Nat → Nat → Nat → Nat
  | 0, _, _ => 0
  | n + 1, a, b => (if b % 2 = 1 then a else 0) ^^^ gfMulN n (gfDouble a) (b / 2)

def gfMul (a b : Nat) : Nat := gfMulN 8 a b

/-- alpha^n. -/
def gfPow : Nat → Nat
  | 0 => 1
  | n + 1 => gfDouble (gfPow n)

/-- a^254 = 1/a. -/
def gfInv (a : Nat) : Nat :=
  let a2 := gfMul a a
  let a4 := gfMul a2 a2
  let a8 := gfMul a4 a4
  let a16 := gfMul a8 a8
  let a32 := gfMul a16 a16
  let a64 := gfMul a32 a32
  let a128 := gfMul a64 a64
  gfMul a2 (gfMul a4 (gfMul a8 (gfMul a16 (gfMul a32 (gfMul a64 a128)))))

/-- The power of x of symbol n: data byte j at 71 - j, check byte q (symbol 64 + q) at 7 - q (R210). -/
def symPower (n : Nat) : Nat := 71 - n

/-- g(x) = (x + 1)(x + alpha) ... (x + alpha^7), highest power first, without the leading 1 (R210). -/
def gfGen : List Nat :=
  ((List.range 8).foldl (fun (g : List Nat) i =>
    -- multiply by (x + alpha^i)
    let hi := g ++ [0]
    let lo := 0 :: g.map (gfMul (gfPow i))
    (hi.zip lo).map fun (p : Nat × Nat) => p.1 ^^^ p.2) [1]).drop 1

/-- The eight check bytes k_0 .. k_7 of 64 data bytes (R210). -/
def checkBytes (data : List Byte) : List Nat :=
  (data.map (·.toNat)).foldl (fun (r : List Nat) d =>
    let f := d ^^^ r.headD 0
    ((r.drop 1 ++ [0]).zip gfGen).map fun (p : Nat × Nat) => p.1 ^^^ gfMul f p.2) (List.replicate 8 0)

/-- Symbols in error with their differences: (symbol 0-71, difference). -/
abbrev Errs := List (Nat × Nat)

/-- Syndromes S_0 .. S_7 of an error pattern. -/
def syndromes (e : Errs) : List Nat :=
  (List.range 8).map fun j =>
    e.foldl (fun a p => a ^^^ gfMul p.2 (gfPow ((j * symPower p.1) % 255))) 0

/-- The lane of a data position DQp: its five symbols d_4p .. d_4p+3 and k_⌊p/2⌋ (R212). -/
def laneSyms (p : Nat) : List Nat := [4 * p, 4 * p + 1, 4 * p + 2, 4 * p + 3, 64 + p / 2]

/-- The locator product over erased symbols, lowest power first. -/
def locator (syms : List Nat) : List Nat :=
  syms.foldl (fun (g : List Nat) s =>
    ((g ++ [0]).zip (0 :: g.map (gfMul (gfPow (symPower s % 255))))).map fun (p : Nat × Nat) => p.1 ^^^ p.2) [1]

/-- Coefficient k of the product of the syndromes and a locator. -/
def modSyn (syn loc : List Nat) (k : Nat) : Nat :=
  (List.range loc.length).foldl (fun a i => if i ≤ k then a ^^^ gfMul (loc.getD i 0) (syn.getD (k - i) 0) else a) 0

/-- Whether the erased symbols alone explain the syndromes: no further symbol in error. -/
def erasureFits (syn : List Nat) (syms : List Nat) : Bool :=
  let loc := locator syms
  ((List.range 8).drop syms.length).all fun k => modSyn syn loc k = 0

/-- The values at the erased symbols that the syndromes give (Forney). -/
def erasureValues (syn : List Nat) (syms : List Nat) : Errs :=
  let loc := locator syms
  let n := syms.length
  let om := (List.range n).map fun k => modSyn syn loc k
  syms.map fun s =>
    let xi := gfInv (gfPow (symPower s % 255))
    let ev (cs : List Nat) : Nat := cs.reverse.foldl (fun a c => gfMul a xi ^^^ c) 0
    -- the formal derivative keeps the odd coefficients
    let dv := ev ((List.range n).map fun i => if i % 2 = 0 then loc.getD (i + 1) 0 else 0)
    (s, gfMul (gfPow (symPower s % 255)) (gfMul (ev om) (gfInv dv)))

/-- The data bytes with differences applied. -/
def applyErrs (data : List Byte) (e : Errs) : List Byte :=
  e.foldl (fun d p => if p.1 < 64 then d.set p.1 (d.getD p.1 0 ^^^ BitVec.ofNat 8 p.2) else d) data

/-- The verdict on one read (R211, R213, R221). `diff` is what stays wrong in the delivered data. -/
inductive EccOut where
  | clean (diff : Errs)
  | corrected (n : Nat) (diff : Errs)
  | recovered (lane : Nat) (diff : Errs)
  | lost
  deriving DecidableEq, Repr

/-- The lanes whose erasure explains the pattern (R213). -/
def retryLanes (e : Errs) : List Nat :=
  let syn := syndromes e
  (List.range 16).filter fun p => erasureFits syn (laneSyms p)

/-- Pin retry of a detected-uncorrectable line: accepted only if exactly one lane fits (R213). -/
def pinRetry (e : Errs) : EccOut :=
  match retryLanes e with
  | [p] => .recovered p (e ++ erasureValues (syndromes e) (laneSyms p))
  | _ => .lost

/-- A pattern the code gives no guarantee for (R211, R221): detected, taken as clean or miscorrected, as the
free value f says. -/
def unguaranteed (f : Nat) (e : Errs) (detected : EccOut) : EccOut :=
  match f % 3 with
  | 0 => detected
  | 1 => .clean e
  | _ => .corrected (f / 3 % 2 + 1)
      (e ++ (List.range (f / 3 % 2 + 1)).map fun i => ((f / 6 + i * 7) % 72, f / 512 % 255 + 1))

/-- The decoder outside erasure mode. -/
def decodePlain (f : Nat) (e : Errs) : EccOut :=
  let n := e.length
  if n = 0 then .clean []
  else if n ≤ 2 then .corrected n []
  else if n ≤ 6 then pinRetry e
  else unguaranteed f e (pinRetry e)

/-- The decoder with position p erased (R221): no pin retry is made. -/
def decodeErased (f p : Nat) (e : Errs) : EccOut :=
  let far := e.filter fun x => !(laneSyms p).contains x.1
  match far.length with
  | 0 => .clean []
  | 1 => .corrected 1 []
  | 2 => .lost
  | _ => unguaranteed f far .lost

/-- Symbols to report (Table 7-8): 1 to 6, else unknown. -/
def symCount (n : Nat) : Nat := if 1 ≤ n && n ≤ 6 then n else 0xFF

end Sys2Proof.Machine
end

