-- ==== Sys2Proof/Machine/StackOps.lean ====
section
/-! DEFINITION. The memory stacks and hub SRAM as they are accessed: read outcomes, writes and lane failures (chapter 7, R409). -/

namespace Sys2Proof.Machine

/-- Symbols of a line are 0 to 71, differences are not 0, and no symbol of a line is named twice. -/
def flipsOk (flips : List Flip) : Bool :=
  (flips.all fun f => f.symbol < 72 && f.diff != 0) && decide (flips.map fun f => (f.line / 64, f.symbol)).Nodup

/-- The poison pattern: check bytes k4 to k7 XORed with 0x5A (R215). -/
def poisonErrs : Errs := [(68, 0x5A), (69, 0x5A), (70, 0x5A), (71, 0x5A)]

/-- Two error patterns together. -/
def mergeErrs (e f : Errs) : Errs :=
  (e.filter fun x => !(f.any (·.1 = x.1))) ++ f.filterMap fun y =>
    let d := y.2 ^^^ ((e.find? (·.1 = y.1)).map (·.2)).getD 0
    if d = 0 then none else some (y.1, d)

/-- Symbols of stored lines of a stack that go wrong (R211): they stay wrong until their line is written. -/
def W.strike (st : Nat) (flips : List Flip) (w : W) : W :=
  { w with b := w.b.opsAll (flips.map fun f => .strike (stackKey st (stackA f.line) / 64) f.symbol f.diff.toNat) }

namespace Ctl

def onChan (st ch : Nat) (f : Chan → Chan) (c : Ctl) : Ctl := c.updStack st fun s => s.updChan ch f

/-- Declare the lane of a data position failed while the stack is in use, and post what follows (R220, R223,
R224). -/
def declareLane (st ch p source : Nat) (c : Ctl) : Ctl :=
  let r := (c.stack st).declareFailed ch p source c.tick
  let c := c.setStack st r.1
  match r.2 with
  | .copy _ => c
  | _ => if c.usable (7 + st) then c.post (7 + st) r.1.health.1 r.1.health.2 else c

def stackLog (st kind ch lane source symbols off : Nat) (c : Ctl) : Ctl :=
  c.updStack st fun s => s.logRec kind ch lane source symbols c.tick off

/-- The newest record of a stack's log. -/
def lastRec (c : Ctl) (st : Nat) : List Byte := ((c.stack st).log.getLast?.map StackRec.bytes).getD []

end Ctl

/-- The verdict of the decoder on a line of a channel (R211, R213, R215, R221): none where the poison pattern is recognised. Of a
poisoned line no pin retry is accepted; `f` decides where the code gives no guarantee. -/
def lineVerdict (f : Nat) (era : Option Nat) (poisoned : Bool) (e : Errs) : Option EccOut :=
  let far := match era with
    | some p => e.filter fun (x : Nat × Nat) => !(laneSyms p).contains x.1
    | none => e
  if !poisoned then
    some (match era with
      | some p => decodeErased f p e
      | none => decodePlain f e)
  else if far.isEmpty then none
  else
    let e := mergeErrs e poisonErrs
    match era with
    | some p => some (if far.length = 1 then .lost else decodeErased f p e)
    | none =>
      if far.length = 1 || (3 ≤ e.length && e.length ≤ 6) then some .lost
      else if e.length ≤ 2 then some (decodePlain f e)
      else some (unguaranteed f e .lost)

/-- The read of the line at stack offset a with the errors that stand in it: its data, whether poison is delivered, and
the effects of Table 7-5 (R213 to R216, R220, R221, R224, R231). -/
def W.readLine (st a source : Nat) (w : W) : (List Byte × Bool) × W :=
  let s := w.c.stack st
  let ch := channelOf a
  let cn := s.chan ch
  let key := stackKey st a
  let poisoned := w.b.mem.isPoisoned (key / 64)
  let e := w.b.mem.errsAt (key / 64)
  let data := if poisoned then zeros 64 else w.b.mem.readBytes key 64
  let mark := fun (d : List Byte) (w : W) =>
    if s.band = 4 then w else { w with b := w.b.opsAll [.clear (key / 64), .raw key d] }
  if cn.lost then ((zeros 64, true), w)
  else
    let fr := if 3 ≤ e.length then w.c.fresh else (0, w.c)
    let w := { w with c := fr.2 }
    match lineVerdict fr.1 (cn.erased a) poisoned e with
    | none => ((zeros 64, true), w.on (Ctl.onChan st ch fun c => { c with poisonSeen := inc32 c.poisonSeen }))
    | some (.clean d) =>
      let out := applyErrs data d
      ((out, false), if d.isEmpty then w else mark out w)
    | some (.corrected n d) =>
      let out := applyErrs data d
      let logIt := match cn.lastCe with
        | some t => decide (t + 1000000000 ≤ w.c.tick)
        | none => true
      let w := w.on (Ctl.onChan st ch fun c =>
        { c with ce := inc32 c.ce, lastCe := if logIt then some w.c.tick else c.lastCe })
      let w := if logIt then w.on (Ctl.stackLog st 0x01 ch 0xFF source (symCount n) a) else w
      ((out, false), mark out w)
    | some (.recovered p d) =>
      let out := applyErrs data d
      let lane := cn.laneOf p
      let w := w.on (Ctl.onChan st ch fun c =>
        { c with dueRec := inc32 c.dueRec, pinRec := Tab.upd lane 0 inc32 c.pinRec })
      let w := w.on (Ctl.stackLog st 0x02 ch lane source (symCount e.length) a)
      let w := mark out w
      ((out, false),
        if 4 ≤ ((w.c.stack st).chan ch).pinRec.getD lane 0 then w.on (Ctl.declareLane st ch p source) else w)
    | some .lost =>
      let w := w.on (Ctl.onChan st ch fun c => { c with due := inc32 c.due, poisonWritten := inc32 c.poisonWritten })
      let w := w.on (Ctl.stackLog st 0x03 ch 0xFF source (symCount e.length) a)
      let w := w.on fun c => c.event 0x0230 (c.lastRec st) { owner := true }
      ((zeros 64, true), if s.band = 4 then w else { w with b := w.b.opsAll [.raw key (zeros 64), .poison (key / 64)] })

/-- The write of a whole line, as data or as poison (R217, R215); a lost channel discards it (R224). -/
def W.writeStackLine (st a : Nat) (d : List Byte) (poison : Bool) (w : W) : W :=
  let key := stackKey st a
  if ((w.c.stack st).chan (channelOf a)).lost then w
  else if poison then { w with b := w.b.opsAll [.raw key (zeros 64), .poison (key / 64)] }
  else { w with b := w.b.op (.line key d) }

/-- A read-modify-write that meets poison: the written bytes are discarded, counted and logged (R217). -/
def W.mergePoison (st a source : Nat) (w : W) : W :=
  (w.on (Ctl.onChan st (channelOf a) fun c => { c with poisonMerge := inc32 c.poisonMerge })).on
    (Ctl.stackLog st 0x0A (channelOf a) 0xFF source 0xFF (a / 64 * 64))

/-- A read-modify-write of part of a line (R206, R217). -/
def W.mergeStackLine (st a : Nat) (d : List Byte) (source : Nat) (w : W) : W :=
  let line := a / 64 * 64
  if ((w.c.stack st).chan (channelOf a)).lost then w
  else
    let r := w.readLine st line source
    if r.1.2 then r.2.mergePoison st a source
    else
      { r.2 with b := r.2.b.op (.line (stackKey st line) (r.1.1.take (a - line) ++ d ++ r.1.1.drop (a - line + d.length))) }

/-- The read of a whole line of a space: hub SRAM (R409) or a stack. -/
def W.lineRead (sp off source : Nat) (w : W) : (List Byte × Bool) × W :=
  if sp = 2 then w.readLine (stackOf off) (stackA off) source
  else
    let k := hubBase + off
    if w.b.mem.isPoisoned (k / 64) then ((zeros 64, true), w) else ((w.b.mem.readBytes k 64, false), w)

/-- The write of a piece of one line of a space. A line whose mask bit is set is written as poison (R416). -/
def W.lineWrite (sp off : Nat) (d : List Byte) (poison : Bool) (source : Nat) (w : W) : W :=
  let line := off / 64 * 64
  if sp = 2 then
    if poison then w.writeStackLine (stackOf off) (stackA line) [] true
    else if d.length = 64 then w.writeStackLine (stackOf off) (stackA off) d false
    else w.mergeStackLine (stackOf off) (stackA off) d source
  else if poison then { w with b := w.b.opsAll [.raw (hubBase + line) (zeros 64), .poison ((hubBase + line) / 64)] }
  else { w with b := w.b.op (.line (hubBase + off) d) }

/-- The n bytes from an offset, line by line, with the mask of poisoned lines (R415, R416). -/
def W.readRange (sp off n source : Nat) (w : W) : (List Byte × Nat) × W :=
  let r := (linesOf off n).foldl (fun (st : (List Byte × Nat × Nat) × W) l =>
    let x := st.2.lineRead sp (l * 64) source
    ((st.1.1 ++ x.1.1, if x.1.2 then st.1.2.1 + 2 ^ st.1.2.2 else st.1.2.1, st.1.2.2 + 1), x.2)) (([], 0, 0), w)
  (((r.1.1.drop (off % 64)).take n, r.1.2.1), r.2)

/-- A write of bytes, line by line, with the mask of poisoned lines (R416). -/
def W.writeRange (sp off : Nat) (d : List Byte) (mask source : Nat) (w : W) : W :=
  (cutLines (d.length + 1) off d).foldl (fun w p =>
    w.lineWrite sp p.1 p.2 (bit mask (p.1 / 64 - off / 64)) source) w

end Sys2Proof.Machine
end

