-- ==== Sys2Proof/Machine/Fabric.lean ====
section
/-! DEFINITION. The fabric: transactions at their requester, and requests at their home (chapters 9 and 14). -/

namespace Sys2Proof

open Sys2Proof.Machine

def Pkt.addr (p : Pkt) : Nat := ofLE (p.payload.take 8)
def Pkt.space (p : Pkt) : Nat := bits p.addr 47 44
def Pkt.offset (p : Pkt) : Nat := bits p.addr 43 0

/-- Bytes of an atomic operand (Table 14-4, WIDTH). -/
def Pkt.width (p : Pkt) : Nat := if bit p.typeArg 4 then 8 else 4

/-- Bytes that a request touches (Table 14-4). -/
def Pkt.span (p : Pkt) : Nat :=
  if p.type = 1 then bits p.typeArg 10 0 + 1 else if p.type = 2 then p.payload.length - 8 else p.width

/-- MALFORMED of Table 14-3 (R413, R414). -/
def Pkt.badRequest (p : Pkt) : Bool :=
  let n := p.payload.length
  let shape := match p.type with
    | 1 => n = 8 && bits p.typeArg 31 11 = 0
    | 2 => 9 ≤ n && n ≤ 2056
    | 3 => n = 24 && bits p.typeArg 3 0 < 8 && bits p.typeArg 31 5 = 0
    | 4 => n = 8 + 8 * syncCount p && bits p.typeArg 3 0 = 0 && bits p.typeArg 7 5 = 0 && bits p.typeArg 31 11 = 0
    | 5 => n = 8 + 16 * syncCount p && bits p.typeArg 3 0 = 0 && bits p.typeArg 7 5 = 0 && bits p.typeArg 31 11 = 0
    | _ => false
  let rmw := 3 ≤ p.type
  !shape || bits p.addr 63 48 != p.dest || decide (32 < (linesOf p.offset p.span).length)
    || (rmw && (p.offset % p.width != 0 || !(p.space = 1 || p.space = 2))) || (p.type = 1 && p.space = 3)

/-- Whether an offset of a space is mapped (Table 14-1, R208, R244). -/
def mapped (sp off : Nat) : Bool :=
  (sp = 1 && decide (off < 0xC000000)) || (sp = 2 && stackMapped off)
    || (sp = 3 && bits off 43 40 = 0 && bits off 36 12 = 0)

/-- The operand of w bytes at a payload offset: the low bytes of its 8. -/
def Pkt.operand (p : Pkt) (o : Nat) : Nat := fieldAt p.payload o p.width

/-- The entries of a SYNC packet as uncombined requests (Table 14-4); the ADDEND of an entry stands at payload byte
8. -/
def Pkt.entries (p : Pkt) : List Pkt :=
  let n := if p.type = 4 then 8 else 16
  (List.range (syncCount p)).map fun i =>
    let o := 8 + n * i
    { p with src := fieldAt p.payload o 2, tag := fieldAt p.payload (o + 2) 2, flowSeq := fieldAt p.payload (o + 4) 4
             payload := p.payload.take 8 ++ bytesAt p.payload (o + 8) 8 }

/-- The PERM bit that a type needs (Table 14-2). -/
def permBit (type : Nat) : Nat := if type = 1 || type = 4 then 0 else if type = 2 then 1 else 2

end Sys2Proof

namespace Sys2Proof.Machine

open Sys2Proof

/-- The requester of a tag, numbered as Table 17-16 (Table 9-4). -/
def tagUnit (tag : Nat) : Nat :=
  if tag < 49152 then 0 else if tag < 57344 then 1 else if tag < 61440 then 2 else if tag < 63488 then 3 else 4

/-- The tags of a requester (Table 9-4): the first and how many. -/
def tagRange : Req → Nat × Nat
  | .tile t _ _ => (256 * t, 256)
  | .dma .. => (49152, 8192)
  | .dmaFetch .. => (49152, 8192)
  | .dmaRecord _ => (49152, 8192)
  | .coll .. => (57344, 4096)
  | .pipe .. => (57344, 4096)
  | .frog .. => (57344, 4096)
  | .record => (57344, 4096)
  | .fill .. => (49152, 8192)
  | .palette .. => (61440, 2048)
  | .rc _ => (63488, 2048)

namespace Ctl

def jobTimeout (c : Ctl) (j : Nat) : Nat := ((c.jobs.get? j).map (·.timeout)).getD 20000

/-- The flow of a packet at its sender: destination and class (R279). -/
def flowKey (dest type : Nat) : Nat := 4 * dest + (classOf type).getD 0

/-- The tags that the bursts of a DMA channel hold, each from its issue until it is complete (R322). -/
def burstTags (x : DmaChan) : List Nat := x.begun.flatMap fun d => d.flying.filterMap (·.tag)

/-- A free tag of a requester (R281, R283). -/
def free32 (c : Ctl) (r : Req) : Option Nat :=
  let (lo, n) := tagRange r
  let held := if lo = 49152 then c.chans.vals.flatMap burstTags else []
  ((List.range n).map (· + lo)).find? fun t => !(c.fabric.txns.has t) && !(c.fabric.lingering.has t) && !(held.contains t)

/-- A tag for a burst or a fetch of a DMA channel: it holds at most 128, those that linger among them (R281, R322). -/
def dmaTag (c : Ctl) (n : Nat) : Option Nat :=
  let held := ((c.chans.get? n).map burstTags).getD []
  let others := ((c.fabric.lingering.filter fun x => x.2.chan = some n && !(held.contains x.1)).map (·.1)).length
    + (c.fabric.txns.filter fun x => match x.2.who with
      | .dmaFetch k _ => k = n
      | _ => false).length
  if held.length + others < 128 then c.free32 (.dma n 0 0 true) else none

/-! Replicas (R424, R425). -/

/-- Hops from this module to a member (R424); a module that the job's table does not name is farther than any (log 16). -/
def distance (c : Ctl) (job m : Nat) : Nat :=
  let away := if m = c.selfModule then 0 else 2 ^ 16
  match c.router.tables.get? job with
  | none => away
  | some t =>
    match t.coord m with
    | none => away
    | some x =>
      (List.range t.lens.length).foldl (fun d i =>
        let a := x.getD i 0
        let s := t.me i
        d + (if t.ring i then min ((a + t.len i - s) % t.len i) ((s + t.len i - a) % t.len i) else (a - s) + (s - a))) 0

def skipKey (m base : Nat) : Nat := m * 2 ^ 64 + base

/-- The copy that a READ goes to: the nearest of the home and its replicas not skipped, the lower module number on a
tie; none for the home. -/
def replicaFor (c : Ctl) (p : Pkt) : Option Pkt :=
  if p.type != 1 then none
  else
    match (c.fabric.maps.getD p.job []).find? fun r => r.home = p.dest && r.space = p.space && decide (r.base ≤ p.offset)
        && decide (p.offset + p.span ≤ r.base + r.len) with
    | none => none
    | some r =>
      let live := r.replicas.filter fun x => decide (c.fabric.skip.getD (skipKey x.module x.base) 0 ≤ c.tick)
      let best := live.foldl (fun (b : Option Replica × Nat × Nat) x =>
        let d := c.distance p.job x.module
        if d < b.2.1 || (d = b.2.1 && x.module < b.2.2) then (some x, d, x.module) else b)
        (none, c.distance p.job p.dest, p.dest)
      best.1.map fun x =>
        { p with
          dest := x.module, key := x.key
          payload := leBytes 8 (x.module * 2 ^ 48 + p.space * 2 ^ 44 + (x.base + (p.offset - r.base)) % 2 ^ 44) }

/-! Transactions at their requester. -/

/-- A multicast that breaks the rules of R394 is dropped at its source, and its requester gets a fabric error status. -/
def mcastRefused (p : Pkt) (c : Ctl) : Ctl :=
  if p.mcast && (match c.routeOf none { p with vc := 0, src := c.selfModule } with
      | .drop 5 _ => true
      | _ => false) then
    c.deliver none { p with type := 0x12, flags := 0, src := c.selfModule, dest := c.selfModule, vc := 4, typeArg := 0x0501, payload := [] }
  else c

/-- Send the next copy of a transaction, armed with its timeout (R421). A copy keeps its FLOW_SEQ and TAG and has
RESEND set (R397). -/
def sendCopy (tag : Nat) (c : Ctl) : Ctl :=
  match c.fabric.txns.get? tag with
  | none => c
  | some t =>
    let n := t.copies
    let t' := { t with
      copies := n + 1, sent := t.sent + t.fan, sentAt := c.tick, nakWait := false, due := c.tick + c.jobTimeout t.pkt.job * 2 ^ (min n 6) }
    ((c.onFabric fun f => { f with txns := Tab.set tag t' f.txns }).inject
      (if n = 0 then t.pkt else { t.pkt with flags := t.pkt.flags ||| 2 })).mcastRefused t.pkt

/-- Send the first copy of a transaction if its flow has a free window slot (R279). -/
def launch (tag : Nat) (c : Ctl) : Ctl :=
  match c.fabric.txns.get? tag with
  | none => c
  | some t =>
    let p := t.home.getD t.pkt
    let k := flowKey p.dest p.type
    let fl := c.fabric.flows.getD k {}
    if t.copies = 0 && fl.unacked < 512 then
      let c := c.onFabric fun f => { f with
        flows := Tab.set k { fl with next := (fl.next + 1) % 2 ^ 32, unacked := fl.unacked + 1 } f.flows
        txns := Tab.set tag
          { t with pkt := { t.pkt with flowSeq := fl.next }, home := t.home.map fun h => { h with flowSeq := fl.next } }
          f.txns }
      c.sendCopy tag
    else c

/-- Begin a transaction of a requester under a tag: a number of the flow, the nearest copy for a READ. -/
def requestOn (tag : Nat) (who : Req) (p : Pkt) (want : List Nat) (c : Ctl) : Ctl :=
  let p := { p with tag, src := c.selfModule }
  let t : Txn := match c.replicaFor p with
    | some q => { who, pkt := q, home := some p, want, fan := max 1 want.length }
    | none => { who, pkt := p, want, fan := max 1 want.length }
  (c.onFabric fun f => { f with txns := Tab.set tag t f.txns }).launch tag

/-- Begin a transaction of a requester under a tag of its range. None while no tag is free. -/
def request (who : Req) (p : Pkt) (want : List Nat) (c : Ctl) : Option (Nat × Ctl) :=
  (c.free32 who).map fun tag => (tag, c.requestOn tag who p want)

/-- A request packet of this module (Table 14-4). -/
def reqPkt (type job addr key typeArg : Nat) (rest : List Byte) : Pkt :=
  { type, flags := 0, dest := bits addr 63 48, src := 0, flowSeq := 0, gen := 0, job, tag := 0, vc := 2, hopLimit := 192
    mcDim := 0, mcPlus := 0, mcMinus := 0, key, typeArg, payload := leBytes 8 addr ++ rest, crcOk := true, rsvdZero := true }

/-- Launch the transactions that wait for a window slot of a flow. -/
def pumpFlow (k : Nat) (c : Ctl) : Ctl :=
  (c.fabric.txns.filter fun x => x.2.copies = 0 && flowKey (x.2.home.getD x.2.pkt).dest x.2.pkt.type = k).foldl
    (fun c x => c.launch x.1) c

/-- One packet of a flow is acknowledged: its window slot is free (R279, R280). -/
def freeWindow (k : Nat) (c : Ctl) : Ctl :=
  (c.onFabric fun f => { f with flows := Tab.upd k {} (fun x => { x with unacked := x.unacked - 1 }) f.flows }).pumpFlow k

/-- Nothing acknowledges a packet of a flow any more: its slot stays taken until its job is torn down (R279, R293). -/
def orphanSlot (k job : Nat) (c : Ctl) : Ctl :=
  if c.jobEnding job then c.freeWindow k
  else c.onFabric fun f => { f with flows := Tab.upd k {} (fun x => { x with orphans := x.orphans ++ [job] }) f.flows }

/-- The slots that a job's packets still hold are free once it is torn down: its flows close (R293, R294). -/
def closeFlows (job : Nat) (c : Ctl) : Ctl :=
  let ks := (c.fabric.flows.filter fun x => x.2.orphans.contains job).map (·.1)
  ks.foldl (fun c k => c.pumpFlow k) (c.onFabric fun f => { f with
    flows := f.flows.map fun x => (x.1, { x.2 with
      unacked := x.2.unacked - (x.2.orphans.filter (· = job)).length, orphans := x.2.orphans.filter (· != job) }) })

/-- The transaction of a tag is over: the tag lingers while a copy may still be answered (R281). Its window slot is free where an
answer has come (`answered`); a packet given up or cancelled holds it until it is acknowledged (R279). -/
def retire (tag : Nat) (answered : Bool) (c : Ctl) : Ctl :=
  match c.fabric.txns.get? tag with
  | none => c
  | some t =>
    let p := t.home.getD t.pkt
    let k := flowKey p.dest p.type
    let left := t.sent - t.naks - t.acks - b2n answered
    let held := t.copies != 0 && !answered
    let c := c.onFabric fun f => { f with
      txns := Tab.del tag f.txns
      lingering := if left = 0 then f.lingering
        else Tab.set tag
          { out := left, due := t.sentAt + 4 * (t.due - t.sentAt), seq := t.pkt.flowSeq, job := t.pkt.job
            slot := if held then some k else none, want := t.want
            chan := match t.who with
              | .dma n _ _ _ => some n
              | .dmaFetch n _ => some n
              | _ => none } f.lingering }
    if t.copies = 0 then c
    else if answered then c.freeWindow k
    else if left = 0 then c.orphanSlot k t.pkt.job else c

/-- The allowance of a lingering tag is over: the tag returns to the pool (R281). -/
def endLinger (tag : Nat) (c : Ctl) : Ctl :=
  match c.fabric.lingering.get? tag with
  | none => c
  | some l =>
    let c := c.onFabric fun f => { f with lingering := Tab.del tag f.lingering }
    match l.slot with
    | some k => c.orphanSlot k l.job
    | none => c

/-- An answer under a lingering tag: one fewer is out, and the tag returns with the last. The packet's slot is free with its
acknowledgement, a multicast's once every recipient has acknowledged it (R279, R281, R395). -/
def lingerAnswer (tag src : Nat) (l : Linger) (c : Ctl) : Ctl :=
  let want := l.want.filter (· != src)
  let free := l.slot.isSome && want.isEmpty
  let c := c.onFabric fun f => { f with
    lingering := if l.out ≤ 1 then Tab.del tag f.lingering
      else Tab.set tag { l with out := l.out - 1, want := want, slot := if free then none else l.slot } f.lingering }
  match l.slot with
  | some k => if free then c.freeWindow k else if l.out ≤ 1 then c.orphanSlot k l.job else c
  | none => c

def countReq (sel : Fabric → Tab Nat) (put : Tab Nat → Fabric → Fabric) (unit : Nat) (c : Ctl) : Ctl :=
  c.onFabric fun f => put (Tab.upd unit 0 inc32 (sel f)) f

def countDup (unit : Nat) : Ctl → Ctl := countReq (·.reqDup) (fun t f => { f with reqDup := t }) unit
def countLate (unit : Nat) : Ctl → Ctl := countReq (·.reqLate) (fun t f => { f with reqLate := t }) unit
def countTimeout (unit : Nat) : Ctl → Ctl := countReq (·.reqTimeouts) (fun t f => { f with reqTimeouts := t }) unit

/-- A response or acknowledgement of a module at the requester: it completes the transaction of its tag and number, or it is
discarded and counted, and a lingering tag whose last answer it is returns (R75, R281, R422). -/
def takeResp (tag seq src : Nat) (c : Ctl) : Option Txn × Ctl :=
  match c.fabric.txns.get? tag with
  | some t =>
    if t.pkt.flowSeq = seq && t.copies != 0 then
      (some t, (if t.late then c.countLate (tagUnit tag) else c).retire tag true)
    else (none, c.countDup (tagUnit tag))
  | none =>
    let c := c.countDup (tagUnit tag)
    match c.fabric.lingering.get? tag with
    | some l => (none, if l.seq = seq then c.lingerAnswer tag src l else c)
    | none => (none, c)

/-- TARGET_DEAD to the job's TENANT sessions and FABRIC_ADMIN, at most once per destination per job per 100 ms
(R429). -/
def targetDead (job dest : Nat) (c : Ctl) : Ctl :=
  let c := c.onFabric fun f => { f with targetDead := inc32 f.targetDead }
  let k := job * 65536 + dest
  let ok := match c.fabric.deadSent.get? k with
    | some t => decide (t + 100000000 ≤ c.tick)
    | none => true
  if ok then
    (c.onFabric fun f => { f with deadSent := Tab.set k c.tick f.deadSent }).event 0x0501
      (encode [.n 2 job, .n 2 dest]) { fabric := true, tenant := [job] }
  else c

/-- Whether a transaction is given up (R429); copies sent to a replica do not count (R425). -/
def givenUp (t : Txn) : Bool := t.home.isNone && (8 ≤ t.bad || 64 ≤ t.copies - t.away)

/-! Paths to stack memory (R22, R23). -/

def linkBroken (c : Ctl) (l : Nat) : Bool := (c.link l).st = 4

/-- The Canvas-Canvas links of the path from Canvas a to Canvas b (R22): one link to a neighbour; two to the opposite Canvas, through
C1 or C2; the other side of the ring where a link of that path is FAILED; none where both sides have one. -/
def canvasWay (c : Ctl) (a b : Nat) : Option (List Nat) :=
  let short := match (b + 4 - a) % 4 with
    | 0 => []
    | 1 => [4 + a]
    | 3 => [4 + b]
    | _ => if a % 2 = 0 then [4, 5] else [5, 6]
  let other := [4, 5, 6, 7].filter fun l => !short.contains l
  if !(short.any c.linkBroken) then some short
  else if !(other.any c.linkBroken) then some other else none

/-- The links of the Easel's path to a Canvas (R23): its own link, or that of a neighbour and the link between the two. -/
def easelWay (c : Ctl) (b : Nat) : Option (List Nat) :=
  [[b], [(b + 1) % 4, 4 + b], [(b + 3) % 4, 4 + (b + 3) % 4]].find? fun l => !(l.any c.linkBroken)

def canvasPath (c : Ctl) (a b : Nat) : Bool := (c.canvasWay a b).isSome

def easelPath (c : Ctl) (b : Nat) : Bool := (c.easelWay b).isSome

/-- Whether every link of a path carries flits: in a retrain what goes that way is held (Table 10-5). -/
def wayUp (c : Ctl) (w : Option (List Nat)) : Bool := w.any fun l => l.all fun k => (c.link k).st = 2 || (c.link k).st = 3

/-- No clock pair of the Canvas-Easel link of Canvas k runs (R297, Table 10-4): the Easel drives those of direction 1, and the Canvas
takes its clock from them. Its near stacks are then unreachable. -/
def noClock (c : Ctl) (k : Nat) : Bool :=
  let x := c.link k
  x.st = 4 && decide (3 ≤ (x.dir1.clk.filter fun (p : Nat × Nat) => p.2 = 3).length)

/-- Whether the Easel's own units reach an offset of a space now (R23): a stack through a Canvas, and only one that is usable or
withheld by an alarm (R45). -/
def easelReaches (c : Ctl) (sp off : Nat) : Bool :=
  sp != 2 || (!c.noClock (stackOf off / 2) && c.wayUp (c.easelWay (stackOf off / 2))
    && [2, 3].contains (c.entry (7 + stackOf off)).st)

/-- The path of a request to the memory it names (R22, R23): from a tile of this module through its Canvas, from the Easel through a
Canvas. -/
def reqWay (c : Ctl) (p : Pkt) : Option (List Nat) :=
  let tile := p.src = c.selfModule && decide (p.tag < 49152)
  let cv := p.tag / 256 / 48
  if p.space = 2 then
    let b := stackOf p.offset / 2
    if c.noClock b then none else if tile then c.canvasWay cv b else c.easelWay b
  else if tile then c.easelWay cv
  else some []

def reaches (c : Ctl) (p : Pkt) : Bool := (c.reqWay p).isSome

/-- Whether a request is held in a link that retrains (Table 10-5). -/
def wayHeld (c : Ctl) (p : Pkt) : Bool := (c.reqWay p).isSome && !(c.wayUp (c.reqWay p))

/-- Whether a line that a request names is a queue's CMD line, of a queue that need not exist (R244). -/
def cmdLine (p : Pkt) : Bool := p.space = 3 && !bit p.offset 6

/-! The home. -/

/-- The region over an offset (R410), not one that is being zeroed (R412). -/
def regionAt (c : Ctl) (sp off : Nat) : Option (Nat × Region) :=
  c.fabric.regions.find? fun r => !r.2.zeroing && r.2.space = sp && decide (r.2.base ≤ off) && decide (off < r.2.base + r.2.len)

/-- The checks of Table 14-3 in the table's order: the code of the first that fails, or the region. At A2 and after
gesso the home answers every request with FUNCTION_FAILED (R603), and so it does for a stack that is neither usable nor training
(R45, Table 19-1). The Palette judges the extent of a store to a queue's lines itself, and a store to the CMD line of a queue that
does not exist (R245, R246). -/
def homeCheck (c : Ctl) (p : Pkt) : Except Nat Nat :=
  if c.locked || c.alarms.gesso then .error 0x0508
  else if p.badRequest then .error 0x0501
  else if !mapped p.space p.offset then .error 0x0502
  else
    match c.regionAt p.space p.offset with
    | none => .error (if cmdLine p then 0x050A else 0x0503)
    | some (n, r) =>
      if p.key != r.key then .error 0x0504
      else if p.job != r.job && r.opn = 0 then .error 0x0505
      else if p.space != 3 && decide (r.base + r.len < p.offset + p.span) then .error 0x0506
      else if !bit r.perm (permBit p.type) || (r.repl = 1 && permBit p.type != 0) then .error 0x0507
      else if (p.space = 2 && !([1, 2, 3].contains (c.stateOf (7 + stackOf p.offset)))) || !c.reaches p then .error 0x0508
      else .ok n

/-- KEY_MISMATCH, counted for the region and for the source module (R411), and QUEUE_REJECTS (R245); the request's slot is free. -/
def countRefused (p : Pkt) (code : Nat) (c : Ctl) : Ctl :=
  let c := c.fillIngress
  if code = 0x050A then c.updStack (stackOf p.offset) fun s => { s with rejects := inc32 s.rejects }
  else if code = 0x0504 then
    match c.regionAt p.space p.offset with
    | some (n, _) => c.onFabric fun f => { f with
        regions := f.regions.map fun x => if x.1 = n then (x.1, { x.2 with mismatch := inc32 x.2.mismatch }) else x
        mismatchSrc := Tab.upd p.src 0 inc32 f.mismatchSrc }
    | none => c
  else c

/-- The use of the region a request names: only a WRITE can act on more than memory. -/
def useOf (c : Ctl) (p : Pkt) : RegUse :=
  match c.regionAt p.space p.offset with
  | some (_, r) => r.use
  | none => .plain

/-- How a number stands in a flow record (R280, R420). -/
inductive Seen where
  | fresh
  | below
  | copy (r : FlowRes)
  deriving DecidableEq, Repr

def seen (c : Ctl) (key seq : Nat) : Seen :=
  match c.fabric.recs.get? key with
  | none => .fresh
  | some r =>
    match r.seqs.find? (·.1 = seq) with
    | some x => .copy x.2
    | none =>
      let back := diff32 r.top seq
      if 512 ≤ back && back < 2 ^ 31 then .below else .fresh

/-- Whether a new flow finds no record free (R420). -/
def noRecord (c : Ctl) (key : Nat) : Bool := !(c.fabric.recs.has key) && decide (16384 ≤ c.fabric.recs.length)

/-- Enter a number in a flow record, or the result of one entered before. -/
def mark (key seq : Nat) (r : FlowRes) (c : Ctl) : Ctl :=
  c.onFabric fun f =>
    let x := f.recs.getD key { top := seq }
    let top := if diff32 seq x.top < 2 ^ 31 then seq else x.top
    let seqs := (x.seqs.filter fun y => y.1 != seq && decide (diff32 top y.1 < 512)) ++ [(seq, r)]
    { f with recs := Tab.set key ⟨top, seqs, c.tick⟩ f.recs }

/-- A copy of a packet of a flow comes (R420): it is counted, and the flow's record is in use. -/
def countCopy (key : Nat) (c : Ctl) : Ctl := c.onFabric fun f => { f with
  duplicates := inc32 f.duplicates, recs := f.recs.map fun x => if x.1 = key then (x.1, { x.2 with last := c.tick }) else x }

/-- Whether a request is held: it writes to a stack in write stop (R231), or the stack is in TRAINING (Table 19-1, R562). -/
def writeHeld (c : Ctl) (p : Pkt) : Bool :=
  p.space = 2 && (((p.type = 2 || p.type = 3 || p.type = 5) && (c.stack (stackOf p.offset)).band = 4)
    || c.stateOf (7 + stackOf p.offset) = 1)

/-- Take a packet out of the arrivals; the slot of a request that the home may hold stays taken (R416, R418). -/
def takeArrival (p : Pkt) (c : Ctl) : Ctl :=
  let c := c.onFabric fun f => { f with arrivals := f.arrivals.erase p }
  if isRequest p && !c.writeHeld p then c.fillIngress else c

/-- A response to the source of a request or of an entry (R415). -/
def answerReq (type flags dest job tag seq typeArg : Nat) (payload : List Byte) (c : Ctl) : Ctl :=
  let p : Pkt := {
    type, flags, dest, src := 0, flowSeq := seq, gen := 0, job, tag, vc := 4, hopLimit := 192, mcDim := 0, mcPlus := 0
    mcMinus := 0, key := 0, typeArg, payload, crcOk := true, rsvdZero := true }
  c.inject p

def sendErr (p : Pkt) (code : Nat) : Ctl → Ctl := answerReq 0x12 0 p.src p.job p.tag p.flowSeq code []

/-- An ACK (R383). -/
def sendAck (p : Pkt) : Ctl → Ctl := answerReq 0x18 0 p.src p.job p.tag p.flowSeq p.flowSeq []

def sendValue (p : Pkt) (v : Nat) (poison : Bool) : Ctl → Ctl :=
  answerReq 0x11 (if poison then 4 else 0) p.src p.job p.tag p.flowSeq 0 (leBytes 8 v)

end Ctl

/-- The result of an atomic operation (Table 14-5), in the operation's width. -/
def atomicNew (op w old x cmp : Nat) : Nat :=
  match op with
  | 0 => (old + x) % 2 ^ (8 * w)
  | 1 => x
  | 2 => if old = cmp then x else old
  | 3 => old &&& x
  | 4 => old ||| x
  | 5 => old ^^^ x
  | 6 => max old x
  | _ => min old x

/-- One read-modify-write of a value in a line (R416, R427): f gives the new value and what the operation answers; a
poisoned line is not applied and stays poisoned, which is a merge discarded (R217, R415). -/
def W.rmw {α : Type} (sp off width : Nat) (f : Nat → Nat × α) (w : W) : Option α × W :=
  let r := w.lineRead sp (off / 64 * 64) 0
  if r.1.2 then (none, if sp = 2 then r.2.mergePoison (stackOf off) (stackA off) 0 else r.2)
  else
    let o := off % 64
    let x := f (fieldAt r.1.1 o width)
    (some x.2, r.2.lineWrite sp (off / 64 * 64) (r.1.1.take o ++ leBytes width x.1 ++ r.1.1.drop (o + width)) false 0)

/-- A READ applied and answered (R415). -/
def W.applyRead (p : Pkt) (w : W) : W :=
  let r := w.readRange p.space p.offset p.span 0
  (r.2.on (Ctl.mark (4 * p.src + 1) p.flowSeq .read)).on
    (Ctl.answerReq 0x10 0 p.src p.job p.tag p.flowSeq r.1.2 r.1.1)

/-- A WRITE applied and acknowledged (R416, R417). -/
def W.applyWrite (p : Pkt) (w : W) : W :=
  ((w.writeRange p.space p.offset (p.payload.drop 8) p.typeArg 0).on (Ctl.mark (4 * p.src + 1) p.flowSeq .ack)).on
    (Ctl.sendAck p)

/-- An ATOMIC applied and answered (R413, R415). -/
def W.applyAtomic (p : Pkt) (w : W) : W :=
  let r := w.rmw p.space p.offset p.width fun old =>
    (atomicNew (bits p.typeArg 3 0) p.width old (p.operand 8) (p.operand 16), old)
  let (v, poison) := match r.1 with
    | some old => (old, false)
    | none => (0, true)
  (r.2.on (Ctl.mark (4 * p.src + 1) p.flowSeq (.value v poison))).on (Ctl.sendValue p v poison)

/-- A SYNC_READ applied: the line is read once, and each entry answered (R427). -/
def W.applySyncRead (p : Pkt) (es : List Pkt) (w : W) : W :=
  let r := w.readRange p.space p.offset p.width 0
  es.foldl (fun w e => (w.on (Ctl.mark (4 * e.src + 1) e.flowSeq .read)).on
    (Ctl.answerReq 0x10 0 e.src e.job e.tag e.flowSeq r.1.2 r.1.1)) r.2

/-- A SYNC_ADD applied in one read-modify-write: the entries in order, each answered with the value before it
(R427). -/
def W.applySyncAdd (p : Pkt) (es : List Pkt) (w : W) : W :=
  let r := w.rmw p.space p.offset p.width fun old =>
    es.foldl (fun (st : Nat × List Nat) e => ((st.1 + e.operand 8) % 2 ^ (8 * p.width), st.2 ++ [st.1])) (old, [])
  let vals := match r.1 with
    | some l => l.map fun v => (v, false)
    | none => es.map fun _ => (0, true)
  (es.zip vals).foldl (fun w (x : Pkt × Nat × Bool) =>
    (w.on (Ctl.mark (4 * x.1.src + 1) x.1.flowSeq (.value x.2.1 x.2.2))).on (Ctl.sendValue x.1 x.2.1 x.2.2)) r.2

/-- A request that was held. -/
def W.applyHeld (p : Pkt) (w : W) : W :=
  let es := p.entries.filter fun e => w.c.seen (4 * e.src + 1) e.flowSeq = .copy .pending
  if p.type = 1 then w.applyRead p
  else if p.type = 2 then w.applyWrite p
  else if p.type = 3 then w.applyAtomic p
  else if p.type = 4 then w.applySyncRead p es
  else w.applySyncAdd p es

namespace Ctl

/-! The guest's answers (R312, R313). -/

def guestAnswer (r : GuestReq) (c : Ctl) : Ctl := { c with guest := { c.guest with out := c.guest.out ++ [r] } }

def guestRefusal (g : GuestReq) (code : Nat) : GuestReq :=
  { opcode := 5, tag := g.tag, region := g.region, len := g.len, key := 0, status := code, offset := 0, rsvdZero := true, data := [] }

/-- Whether an admitted request to a region is still held. -/
def regionBusy (c : Ctl) (r : Region) : Bool :=
  c.stackTab.vals.any fun s => s.held.any fun x => match x with
    | .req p => p.space = r.space && decide (r.base ≤ p.offset) && decide (p.offset < r.base + r.len)
    | .guest _ off => r.space = 2 && decide (r.base ≤ off) && decide (off < r.base + r.len)
    | _ => false

/-- Whether an admitted request of the guest to a region is still held (R317). -/
def guestBusy (c : Ctl) (n : Nat) : Bool :=
  c.stackTab.vals.any fun s => s.held.any fun x => match x with
    | .guest g _ => g.region = n
    | _ => false

/-- Answer the REGION_DESTROY commands whose regions have no admitted request left, and the GUEST_REGION_REVOKE commands that the
guest's awaited (R317, R412). -/
def regionsDrained (c : Ctl) : Ctl :=
  c.finish fun x => match x with
    | .region n =>
      match c.fabric.regions.get? n with
      | some r => if c.regionBusy r then none else some (0, [])
      | none => some (0, [])
    | .guestRevoke n => if c.guestBusy n then none else some (0, [])
    | _ => none

end Ctl

/-- An admitted guest request at its target (R313, R314): a write, or a read whose poison is code 0x08. -/
def W.guestApply (g : GuestReq) (space off : Nat) (w : W) : W :=
  let base : GuestReq := { g with rsvdZero := true, key := 0, status := 0, offset := 0, data := [] }
  if g.opcode = 2 then (w.writeRange space off (bytesAt g.data 0 g.len) 0 0).on (Ctl.guestAnswer { base with opcode := 4 })
  else
    let x := w.readRange space off g.len 0
    x.2.on (Ctl.guestAnswer (if x.1.2 != 0 then Ctl.guestRefusal g 8 else { base with opcode := 3, data := x.1.1 }))

/-- One of the things that a stack held, applied. -/
def W.applyHeldAt (st : Nat) (x : StackHeld) (w : W) : W :=
  match x with
  | .req p => w.applyHeld p
  | .store a d mask => w.writeRange 2 (st * 2 ^ 37 + a) d mask 0
  | .zero a n => { w with b := w.b.op (.zero (stackKey st a) n) }
  | .guest g off => w.guestApply g 2 off

/-- What a stack held is applied in order of arrival once it may be, and the commands that awaited it are answered (R231, R317,
R412). -/
def W.releaseHeld (st : Nat) (w : W) : W :=
  let s := w.c.stack st
  if s.band = 4 || w.c.stateOf (7 + st) = 1 then w
  else
    (s.held.foldl (fun w x => w.applyHeldAt st x) (w.on (Ctl.updStack st fun s => { s with held := [] }))).on fun c =>
      c.fillIngress.regionsDrained

/-- A write of bytes, with a mask of poisoned lines, to a stack by an engine of the Easel; a write stop holds it (R231). -/
def W.stackStore (st a : Nat) (d : List Byte) (mask : Nat) (w : W) : W :=
  if (w.c.stack st).band = 4 then w.on (Ctl.updStack st fun s => { s with held := s.held ++ [.store a d mask] })
  else w.writeRange 2 (st * 2 ^ 37 + a) d mask 0

/-- n bytes at a fabric address of this module set to zero by an engine of the Easel; a write stop holds it (R231). -/
def W.zeroAt (addr n : Nat) (w : W) : W :=
  let st := stackOf (bits addr 43 0)
  if bits addr 47 44 = 2 && (w.c.stack st).band = 4 then
    w.on (Ctl.updStack st fun s => { s with held := s.held ++ [.zero (stackA (bits addr 43 0)) n] })
  else { w with b := w.b.op (.zero (bits addr 47 44 * 2 ^ 44 + bits addr 43 0) n) }

/-- Reads by an engine of the n bytes of a stack from offset a, for what the errors and the poison in them bring about (R214). -/
def W.scan (st a n source : Nat) (w : W) : W :=
  let within := fun (l : Nat) => stackKey st a < (l + 1) * 64 && l * 64 < stackKey st (a + n)
  let ls := ((w.b.mem.errs.map errLine ++ w.b.mem.poison).filter within).foldl (fun l x => insNat x l) []
  ls.foldl (fun w l => (w.readLine st (l * 64 - stackKey st 0) source).2) w

/-- Hold a request: admitted and not applied. -/
def Ctl.hold (p : Pkt) (c : Ctl) : Ctl := c.updStack (stackOf p.offset) fun s => { s with held := s.held ++ [.req p] }

/-- A copy of a request, or of an entry, that its record holds (R420). -/
def W.answerCopy (e : Pkt) (r : FlowRes) (w : W) : W :=
  let w := w.on (Ctl.countCopy (4 * e.src + 1))
  match r with
  | .pending => w
  | .ack => w.on (Ctl.sendAck e)
  | .value v poison => w.on (Ctl.sendValue e v poison)
  | .err code => w.on (Ctl.sendErr e code)
  | .read =>
    let n := if e.type = 1 then e.span else e.width
    let x := w.readRange e.space e.offset n 0
    x.2.on (Ctl.answerReq 0x10 0 e.src e.job e.tag e.flowSeq x.1.2 x.1.1)

/-- The uncombined requests that a request holds: itself, or the entries of a SYNC packet (Table 14-4) whose payload holds
them whole. -/
def reqEntries (p : Pkt) : List Pkt :=
  if p.type = 4 || p.type = 5 then
    if p.payload.length = 8 + (if p.type = 4 then 8 else 16) * syncCount p then p.entries else [p]
  else [p]

/-- Enter requests in their flow records (R420): a copy is answered again; the fresh ones go on. -/
def W.enterRecords (es : List Pkt) (w : W) : W × List Pkt :=
  es.foldl (fun (st : W × List Pkt) e =>
    match st.1.c.seen (4 * e.src + 1) e.flowSeq with
    | .below => (st.1.on (Ctl.countCopy (4 * e.src + 1)), st.2)
    | .copy x => (st.1.answerCopy e x, st.2)
    | .fresh => (st.1.on (Ctl.mark (4 * e.src + 1) e.flowSeq .pending), st.2 ++ [e])) (w, [])

/-- A request at its home (R411, R415 to R420, R427): admitted once its flow has a record, checked, applied and
answered once for each entry; copies are answered again and never applied again. `go` applies it to the fresh
entries. -/
def W.atHome (type : Nat) (p : Pkt) (go : List Pkt → W → W) (w : W) : W :=
  if p.type != type || !(w.c.fabric.arrivals.contains p) || w.c.wayHeld p then w
  else if !p.crcOk then (w.on (Ctl.takeArrival p)).on (Ctl.countDrop none 6)
  else
    let es := reqEntries p
    if es.any fun e => w.c.noRecord (4 * e.src + 1) then w
    else
      let r := (w.on (Ctl.takeArrival p)).enterRecords es
      if r.2.isEmpty then r.1.on Ctl.fillIngress
      else
        match r.1.c.homeCheck p with
        | .error code =>
          r.2.foldl (fun w e => (w.on (Ctl.mark (4 * e.src + 1) e.flowSeq (.err code))).on (Ctl.sendErr e code))
            (r.1.on (Ctl.countRefused p code))
        | .ok _ => if r.1.c.writeHeld p then r.1.on (Ctl.hold p) else go r.2 r.1

end Sys2Proof.Machine
end

