-- ==== Sys2Proof/Machine/TileSeq.lean ====
section
/-! DEFINITION. The tile's sequencer: instruction fields, the checks made at dispatch, faults, loops and
replay (chapter 6). -/

namespace Sys2Proof.Machine

def opSize : Nat := 2097152
def accSize : Nat := 524288

/-- A failed check: fault code, lowest bit of the field, DETAIL (R165, Table 6-16). -/
structure Fail where
  code : Nat
  bit : Nat
  detail : Nat
  deriving DecidableEq, Repr

def failIf (b : Bool) (code bit detail : Nat) : List Fail := if b then [⟨code, bit, detail⟩] else []

/-- The failure recorded: lowest code, then lowest bit (R165). -/
def worst : List Fail → Option Fail
  | [] => none
  | f :: t =>
    match worst t with
    | none => some f
    | some g => if g.code < f.code || (g.code = f.code && g.bit < f.bit) then some g else some f

/-- A range of n bytes from byte a that runs past its store (R169). -/
def past (a n size bit : Nat) : List Fail := failIf (size < a + n) 0x02 bit a

/-- Alignment to 64 bytes of the address that a field in 32-byte units gives after rebasing (R143, R169): an odd field value is
misaligned, and so is an odd sum (log 73). -/
def oddAddr (field a bit : Nat) : List Fail := failIf (field % 2 != 0 || a % 64 != 0) 0x03 bit a

def Tile.b (t : Tile) (r : Nat) : Nat :=
  match r with
  | 1 => t.b1
  | 2 => t.b2
  | 3 => t.b3
  | _ => 0

/-- What is added to source addresses (R171, R198). -/
def Tile.ra (t : Tile) (w : Nat) : Nat := t.b (bits w 7 6) + (t.replay.map (·.rebA)).getD 0

/-- What is added to destination addresses. -/
def Tile.rb (t : Tile) (w : Nat) : Nat := t.b (bits w 9 8) + (t.replay.map (·.rebB)).getD 0

def Tile.ext (t : Tile) : Nat := (t.replay.map (·.ext)).getD 0

/-- Bits of the last used header bit and up that the layout marks RSVD. -/
def rsvd (w lo : Nat) : List Fail := failIf (w >>> lo != 0) 0x01 lo lo

def storeSize (kind : Nat) : Nat := if kind = 1 then accSize else opSize

/-- The fabric address of line l of row r of a LOAD or STORE, not reduced (R171, R175). -/
def Tile.extAddr (t : Tile) (w : Nat) (store : Bool) (r l : Nat) : Nat :=
  let base := (t.bases.getD (bits w 19 16) (0, 0)).1
  let off := bits w 57 20 + (if store then t.b (bits w 9 8) else t.b (bits w 7 6)) + t.ext
  base + 64 * (off + r * bits w 110 91 + l)

def Tile.osAddr (t : Tile) (w : Nat) (store : Bool) : Nat :=
  rebased (bits w 73 58) (if store then t.ra w else t.rb w)

def checkMove (t : Tile) (w : Nat) (store : Bool) : List Fail :=
  let a := t.osAddr w store
  let pitch := bits w 122 111 * 32
  let rows := bits w 90 84 + 1
  let lines := bits w 83 74 + 1
  let base := (t.bases.getD (bits w 19 16) (0, 0)).1
  let top := t.extAddr w store (rows - 1) (lines - 1)
  failIf (2 ^ 44 ≤ base % 2 ^ 44 + (top - base)) 0x02 16 (top % 2 ^ 64)
    ++ oddAddr (bits w 73 58) a 58 ++ failIf (pitch % 64 != 0) 0x03 111 111
    ++ past a ((rows - 1) * pitch + 64 * lines) (storeSize (bits w 123 123)) 58

/-- FEED (R142, R178, R179); the ranking and DETAIL of HOLD_RANGE: log 75. -/
def checkFeed (t : Tile) (w : Nat) : List Fail :=
  let fmt := bits w 19 16
  let a := rebased (bits w 35 20) (t.ra w)
  let sa := rebased (bits w 74 59) (t.ra w)
  let pitch := bits w 47 36 * 32
  let entries := bits w 51 48 + 1
  let rows := bits w 58 52 + 1
  let tr := bit w 75
  let ok := isHeldFmt fmt
  let trOk := fmt ≤ 3
  rsvd w 85
    ++ failIf (!ok) 0x04 16 16
    ++ failIf (tr && ok && !trOk) 0x04 16 16
    ++ oddAddr (bits w 35 20) a 20 ++ failIf (pitch % 64 != 0) 0x03 36 36
    ++ failIf (tr && bits w 84 76 % 16 != 0) 0x03 76 76
    ++ failIf (ok && decide (feedCap fmt < entries)) 0x05 16 48
    ++ (if tr then
          if ok && trOk then
            past a ((entries * 64 / fmtBytes fmt 1 - 1) * pitch + fmtBytes fmt (bits w 84 76 + rows)) opSize 16
          else []
        else past a ((rows - 1) * pitch + 64 * entries) opSize 20)
    ++ (if isMxCode fmt then past sa (16 * rows) opSize 52 else [])

/-- HOLD (R144, R179, R180); the ranking and DETAIL of its checks: log 75. -/
def checkHold (t : Tile) (w : Nat) : List Fail :=
  let rows := bits w 22 16 + 1
  let n := bits w 26 23 + 1
  let short := (List.range rows).any fun i => (t.row i).committed.length < n
  let fmts := (List.range rows).flatMap fun i => (t.row i).committed.take n
  let f0 := fmts.headD 0
  rsvd w 27 ++ failIf short 0x02 16 23
    ++ failIf (fmts.any (· != f0)) 0x04 16 23
    ++ failIf (decide (feedCap f0 < n)) 0x05 16 23

/-- Elements that the last dispatched HOLD leaves in row i, in its format (R180); a row that it did not name keeps its older
entries, which count in the same format (log 74). -/
def Tile.heldElems (t : Tile) (i : Nat) : Nat :=
  match t.holdFmt with
  | none => 0
  | some f => entryElems f (t.row i).holdN

def checkAcc (start stop : Nat) (bs be : Nat) : List Fail :=
  failIf (start = 3) 0x01 bs bs ++ failIf (stop = 3) 0x01 be be

/-- Ranges of a glaze through descriptor g with column block c over `rows` rows (R169, R184, R185): `bit` is the lowest field that
the rows' ranges come from, `scaleBit` that of the column scales, which no row count enters. -/
def checkGlaze (g : Glaze) (c rows ra rb bit scaleBit : Nat) : List Fail :=
  (if g.op = 1 || g.op = 2 then
      past (rebased g.opAddr ra + fmtBytes g.opFmt (c * 128)) ((rows - 1) * g.opPitch * 32 + fmtBytes g.opFmt 128)
        opSize bit
    else [])
    ++ (if g.scaleEn = 1 then past (rebased g.scaleAddr ra + 512 * c) 512 opSize scaleBit else [])
    ++ past (rebased g.outAddr rb + fmtBytes g.outFmt (c * 128))
        ((rows - 1) * g.outPitch * 32 + fmtBytes g.outFmt 128) opSize bit
    ++ (if isMxCode g.outFmt then
          past (rebased g.outScale rb + 2048 * (c / 4) + 4 * (c % 4)) (16 * (rows - 1) + 4) opSize bit
        else [])

def checkPair (t : Tile) (h v : Nat) : List Fail :=
  failIf (!(isHeldFmt h)) 0x04 16 16 ++ failIf (!(isHeldFmt v)) 0x04 20 20
    ++ failIf (!(pairOk h v)) 0x04 16 16 ++ failIf (t.holdFmt != some h) 0x04 16 16

def checkMma (t : Tile) (w : Nat) : List Fail :=
  let h := bits w 19 16
  let v := bits w 23 20
  let k := bits w 32 24 + 1
  let rows := bits w 39 33 + 1
  let a := rebased (bits w 55 40) (t.ra w)
  let pitch := bits w 67 56 * 32
  let sa := rebased (bits w 83 68) (t.ra w)
  let tr := bit w 92
  let hb := bits w 108 100
  rsvd w 122 ++ checkAcc (bits w 85 84) (bits w 87 86) 84 86 ++ checkPair t h v
    ++ failIf (tr && isHeldFmt v && decide (3 < v)) 0x04 20 20
    ++ failIf (pairOk h v && ((isMxCode h && k % 32 != 0) || (h = 4 && decide (256 < k)))) 0x02 24 24
    ++ oddAddr (bits w 55 40) a 40 ++ failIf (pitch % 64 != 0) 0x03 56 56
    ++ failIf (tr && bits w 121 113 % 16 != 0) 0x03 113 113
    ++ failIf (isMxCode h && hb % 32 != 0) 0x03 100 100
    ++ failIf ((List.range rows).any fun i => t.heldElems i < hb + k) 0x05 24 24
    ++ (if isHeldFmt v then
          if tr then
            if v ≤ 3 then past a (127 * pitch + fmtBytes v (bits w 121 113 + k)) opSize 20 else []
          else past a ((k - 1) * pitch + fmtBytes v 128) opSize 20
        else [])
    ++ (if isMxCode v then past sa (128 * (k / 32)) opSize 24 else [])
    ++ (if bits w 87 86 = 2 then
          checkGlaze (t.glaze (bits w 95 93)) (bits w 112 109) rows (t.ra w) (t.rb w) 33 93
        else [])

def convTaps (w : Nat) : Nat := (bits w 37 32 + 1) * (bits w 31 28 + 1) * (bits w 27 24 + 1)

/-- The held index of tap t for column j (R152). -/
def convIndex (w t j : Nat) : Nat :=
  let kw := bits w 27 24 + 1
  let kh := bits w 31 28 + 1
  let x := t % kw
  let y := (t / kw) % kh
  let c := t / (kw * kh)
  bits w 69 61 + c * bits w 60 52 + y * bits w 51 43 + (bits w 42 40 + 1) * x + (bits w 39 38 + 1) * j

/-- The largest held index a CONV reaches (R154). -/
def convTop (w : Nat) : Nat :=
  bits w 69 61 + bits w 37 32 * bits w 60 52 + bits w 31 28 * bits w 51 43
    + (bits w 42 40 + 1) * bits w 27 24 + (bits w 39 38 + 1) * 127

/-- CONV (R152 to R154, R182); the ranking and DETAIL of HOLD_RANGE: log 75. -/
def checkConv (t : Tile) (w : Nat) : List Fail :=
  let h := bits w 19 16
  let v := bits w 23 20
  let k := convTaps w
  let rows := bits w 76 70 + 1
  let a := rebased (bits w 92 77) (t.ra w)
  let sa := rebased (bits w 108 93) (t.ra w)
  checkAcc (bits w 110 109) (bits w 112 111) 109 111 ++ checkPair t h v
    ++ failIf (4096 < k) 0x02 24 24
    ++ failIf (pairOk h v && isMxCode h && k % 32 != 0) 0x02 24 24
    ++ failIf (decide (holdCap h ≤ convTop w) || (List.range rows).any fun i => t.heldElems i ≤ convTop w) 0x05 16 24
    ++ (if isHeldFmt v then past a (fmtBytes v k) opSize 20 else [])
    ++ (if isMxCode v then past sa (k / 32) opSize 24 else [])
    ++ (if bits w 112 111 = 2 then
          checkGlaze (t.glaze (bits w 119 117)) (bits w 127 124) rows (t.ra w) (t.rb w) 70 117
        else [])

def isWide (out : Nat) : Bool := out = 2 || out = 3 || out = 4 || out = 5

def ewArgs (ra rb w : Nat) : EwArgs :=
  { op := bits w 20 16, fa := bits w 24 21, fb := bits w 28 25, out := bits w 32 29
    a := rebased (bits w 48 33) ra, b := rebased (bits w 64 49) ra
    dst := rebased (bits w 80 65) rb, rows := bits w 90 81 + 1
    sat := bit w 91, sr := bit w 92, mode := bits w 94 93 }

def checkEw (t : Tile) (w : Nat) : List Fail :=
  let x := ewArgs (t.ra w) (t.rb w) w
  let binary := isBinaryEw x.op
  let outOk := isHeldFmt x.out || (x.out = 5 && x.op = 0x10)
  let rowsOut := if x.op = 0x10 || x.op = 0x11 then 1 else x.rows
  rsvd w 99 ++ failIf (0x11 < x.op) 0x01 16 16 ++ failIf (x.mode = 3) 0x01 93 93
    ++ failIf (x.sr && isWide x.out) 0x01 92 92
    ++ failIf (!(isEwFmt x.fa)) 0x04 21 21
    ++ failIf (if binary then !(isEwFmt x.fb) else x.fb != 0) 0x04 25 25
    ++ failIf (!binary && bits w 64 49 != 0) 0x02 49 49
    ++ failIf (!outOk) 0x04 29 29
    ++ (if isEwFmt x.fa then past x.a (fmtBytes x.fa (x.rows * 128)) opSize 21 else [])
    ++ (if binary && isEwFmt x.fb && x.mode != 3 then
          past x.b (fmtBytes x.fb (if x.mode = 0 then x.rows * 128 else if x.mode = 1 then 128 else x.rows)) opSize 25
        else [])
    ++ (if outOk then
          past x.dst (fmtBytes x.out (rowsOut * 128) + (if isMxCode x.out then 4 * rowsOut else 0)) opSize 16
        else [])

def checkDefine (w : Nat) : List Fail :=
  rsvd w 121 ++ failIf (bits w 21 20 = 3) 0x01 20 20
    ++ failIf (bit w 104 && isWide (bits w 74 71)) 0x01 104 104
    ++ failIf (!(isEwFmt (bits w 25 22))) 0x04 22 22
    ++ failIf (!(isHeldFmt (bits w 74 71))) 0x04 71 71

def checkApply (t : Tile) (w : Nat) : List Fail :=
  rsvd w 37 ++ checkGlaze (t.glaze (bits w 19 17)) (bits w 36 33) (bits w 28 22 + 1) (t.ra w) (t.rb w) 17 17

/-- SEND and RECV (R188, R189); `sameJob k` says tile k belongs to the program's job. -/
def checkSend (t : Tile) (w : Nat) (sameJob : Nat → Bool) : List Fail :=
  let d := bits w 23 16
  rsvd w 63 ++ failIf (191 < d) 0x02 16 d ++ failIf (decide (d ≤ 191) && !(sameJob d)) 0x09 16 d
    ++ past (rebased (bits w 44 29) (t.ra w)) (32 * (bits w 58 45 + 1)) (storeSize (bits w 28 28)) 28

def checkRecv (t : Tile) (w : Nat) (sameJob : Nat → Bool) : List Fail :=
  let d := bits w 23 16
  rsvd w 64 ++ failIf (bit w 29 && !(bit w 28)) 0x01 28 29
    ++ failIf (191 < d) 0x02 16 d ++ failIf (decide (d ≤ 191) && !(sameJob d)) 0x09 16 d
    ++ past (rebased (bits w 45 30) (t.rb w)) (32 * (bits w 59 46 + 1)) (storeSize (bits w 28 28)) 28

def checkWait (w : Nat) : List Fail := rsvd w 52 ++ failIf (bits w 35 20 = 0) 0x02 20 20

def checkSignal (w : Nat) (sameJob : Nat → Bool) : List Fail :=
  let d := bits w 43 36
  rsvd w 45 ++ failIf (bits w 35 20 = 0) 0x02 20 20
    ++ failIf (191 < d && d < 255) 0x02 36 d ++ failIf (decide (d ≤ 191) && !(sameJob d)) 0x09 36 d

def checkFence (w : Nat) : List Fail := rsvd w 20 ++ failIf (bits w 19 16 = 0) 0x01 16 16

def Tile.opAt (t : Tile) (p : Nat) : Nat := bits (t.imem.getD p 0) 5 0

/-- The LOOP at p, if it is one: its body's first and last PC. -/
def Tile.loopBody (t : Tile) (p : Nat) : Option (Nat × Nat) :=
  if t.opAt p = 0x10 then some (p + 1, p + bits (t.imem.getD p 0) 25 16) else none

def checkMark (t : Tile) (w : Nat) : List Fail :=
  let len := bits w 29 20
  let first := t.pc + 1
  let last := t.pc + len
  let ps := (List.range len).map (· + first)
  let bad := decide (t.progLen ≤ last) || ps.any (fun p =>
    let o := t.opAt p
    o = 0x0E || o = 0x0F || o = 0x11 ||
      (match t.loopBody p with
        | some b => decide (last < b.2)
        | none => false))
  rsvd w 30 ++ failIf (len = 0) 0x02 20 20 ++ failIf bad 0x0B 20 20

def checkReplay (t : Tile) (w : Nat) : List Fail :=
  rsvd w 90 ++ failIf (!(t.ranges.has (bits w 19 16))) 0x0B 16 16

/-- LOOP (R172, R173). Inside a replay only the loops of the replayed range enclose the body. -/
def checkLoop (t : Tile) (w : Nat) : List Fail :=
  let len := bits w 25 16
  let last := t.pc + len
  let ps := (List.range len).map (· + (t.pc + 1))
  let depth := (t.replay.map (·.depth)).getD 0
  let enclosing := t.loops.take (t.loops.length - depth)
  let bad := decide (t.progLen ≤ last) || enclosing.any (fun f => decide (f.last < last)) || ps.any (fun p => t.opAt p = 0x11)
  rsvd w 90 ++ failIf (len = 0) 0x02 16 16 ++ failIf (bits w 41 26 = 0) 0x02 26 26
    ++ failIf bad 0x0B 16 16 ++ failIf (4 ≤ t.loops.length) 0x0C 16 16

def checkEnd (w : Nat) : List Fail := rsvd w 16

/-- The dispatch checks of an opcode (R165, R168). -/
def checkWord (t : Tile) (w : Nat) (sameJob : Nat → Bool) : List Fail :=
  failIf (bits w 15 10 != 0) 0x01 10 10 ++
  match bits w 5 0 with
  | 0x01 => checkMove t w false
  | 0x02 => checkMove t w true
  | 0x03 => checkFeed t w
  | 0x04 => checkHold t w
  | 0x05 => checkMma t w
  | 0x06 => checkConv t w
  | 0x07 => checkEw t w
  | 0x08 => if bit w 16 then checkApply t w else checkDefine w
  | 0x09 => checkSend t w sameJob
  | 0x0A => checkRecv t w sameJob
  | 0x0B => checkWait w
  | 0x0C => checkSignal w sameJob
  | 0x0D => checkFence w
  | 0x0E => checkMark t w
  | 0x0F => checkReplay t w
  | 0x10 => checkLoop t w
  | 0x11 => checkEnd w
  | _ => [⟨0x01, 0, 0⟩]

/-- Unit number of an opcode (Table 6-1, Table 6-16) and its queue depth. -/
def unitOf (w : Nat) : Nat :=
  match bits w 5 0 with
  | 0x03 => 1
  | 0x04 => 2
  | 0x05 | 0x06 => 3
  | 0x07 => 4
  | 0x08 => if bit w 16 then 4 else 0
  | 0x01 | 0x0A => 5
  | 0x02 | 0x09 => 6
  | _ => 0

def unitDepth : Nat → Nat
  | 1 => 2
  | 2 => 2
  | 3 => 4
  | 4 => 4
  | 5 => 8
  | 6 => 8
  | _ => 0

/-- Whether an instruction's unit has no free slot; an instruction keeps its slot until it is complete (log 75). -/
def Tile.unitFull (t : Tile) (w : Nat) : Bool :=
  let u := unitOf w
  u != 0 && decide (unitDepth u ≤ (t.inflight.filter (·.unit = u)).length)

/-- LOOP_LEFT, level 0 outermost. -/
def Tile.loopLeft (t : Tile) : List Nat := (t.loops.reverse.map (·.left))

/-- What a fault leaves in flight (R200): posted receives go, and so do SENDs and RECVs that wait (log 75); of a LOAD or STORE,
the requests issued. -/
def Inflight.afterFault (f : Inflight) : Option Inflight :=
  if f.xfer.isSome then none
  else
    match f.move with
    | some m =>
      if m.next = m.total then some f
      else if m.back < m.next then some { f with token := 0, move := some { m with total := m.next, cut := true } }
      else none
    | none => some f

/-- A fault or stop (R199 to R201): the first latches the record, stops dispatch and drops pending signals (log 75); one that
arrives while the tile is FAULTED is counted. -/
def Tile.raise (t : Tile) (tick code pc unit replayId instr detail status : Nat) : Tile :=
  match t.st with
  | .faulted => { t with faultRec := { t.faultRec with second := min 65535 (t.faultRec.second + 1) } }
  | _ =>
    { t with
      st := .faulted
      ending := false
      wait := none
      after := []
      inflight := t.inflight.filterMap Inflight.afterFault
      faultRec :=
        { code, pc, unit, replayId, second := 0, tick, instr, detail, fabricStatus := status
          loopLeft := t.loopLeft, rebase := [t.b1, t.b2, t.b3] } }

def Tile.replayNo (t : Tile) : Nat := (t.replay.map (·.id + 1)).getD 0

/-- After an instruction at `pc`: ends of loop bodies and of a replayed range (R172, R198). -/
def Tile.settle : Nat → Tile → Tile
  | 0, t => t
  | n + 1, t =>
    let depth := (t.replay.map (·.depth)).getD 0
    match t.loops with
    | f :: rest =>
      if depth < t.loops.length && t.pc = f.last + 1 then
        if 0 < f.left then
          { t with
            pc := f.first
            b1 := (t.b1 + f.steps.getD 0 0) % 65536
            b2 := (t.b2 + f.steps.getD 1 0) % 65536
            b3 := (t.b3 + f.steps.getD 2 0) % 65536
            loops := { f with left := f.left - 1 } :: rest }
        else
          Tile.settle n { t with
            b1 := f.saved.getD 0 0, b2 := f.saved.getD 1 0, b3 := f.saved.getD 2 0, loops := rest }
      else
        match t.replay with
        | some r => if t.pc = r.last + 1 then Tile.settle n { t with pc := r.ret, replay := none } else t
        | none => t
    | [] =>
      match t.replay with
      | some r => if t.pc = r.last + 1 then Tile.settle n { t with pc := r.ret, replay := none } else t
      | none => t

def Tile.advance (t : Tile) : Tile := Tile.settle 8 { t with pc := t.pc + 1 }

/-- Enter an instruction into its unit's queue, with its rebase sums. -/
def Tile.enqueue (t : Tile) (w token : Nat) (f : Inflight → Inflight) : Tile :=
  let cls := match bits w 5 0 with
    | 0x05 | 0x06 => 0
    | 0x09 => 2
    | 0x02 => 3
    | _ => 1
  let i : Inflight := f { id := t.nextId, unit := unitOf w, cls, pc := t.pc, word := w, replayId := t.replayNo, token, ra := t.ra w, rb := t.rb w }
  { t with inflight := t.inflight ++ [i], nextId := t.nextId + 1 }

/-- An addition to a token counter (R191, R192, R194): the counter saturates at 65,535; a WAIT whose tokens are
there is satisfied at once, before an overflow is raised (log 75); a shortfall counts LATE. -/
def Tile.addToken (t : Tile) (k n : Nat) : Tile :=
  let v := t.token k + n
  let t := { t with tokens := Tab.set k (min v 65535) t.tokens }
  let sf := t.shortfall.getD k 0
  let t := if 0 < sf then
      { t with late := w32 (t.late + 1), shortfall := Tab.set k (sf - n) t.shortfall } else t
  match t.wait with
  | some w =>
    if w.token = k && decide (w.count ≤ t.token k) then
      { t with tokens := Tab.set k (t.token k - w.count) t.tokens, wait := none }.advance
    else t
  | none => t

/-- The state TILE_RESET and a cold start leave, but for the stores (R105, R532). -/
def tileReset (n : Nat) (t : Tile) : Tile :=
  { t with
    st := .idle, rows := [], holdFmt := none, cells := [], tokens := [], glazes := [], ranges := []
    lanes := seedLanes n, gauge := 64, laneGauge := 64, loops := [], replay := none, wait := none
    after := [], inflight := [], stream := [], scaleQ := [], sinceDrain := 128, ending := false }

end Sys2Proof.Machine
end

