-- ==== Sys2Proof/Machine/TileOps.lean ====
section
/-! DEFINITION. The operations on tiles that other units use: faults with their events, tokens, loading, starting and
stopping a program (chapter 6). -/

namespace Sys2Proof.Machine

open Sys2Proof

/-- The fault record (Table 6-16). -/
def FaultRec.bytes (r : FaultRec) : List Byte :=
  leBytes 2 r.code ++ leBytes 2 r.pc ++ leBytes 1 r.unit ++ leBytes 1 r.replayId ++ leBytes 2 r.second ++ leBytes 8 r.tick
    ++ leBytes 16 r.instr ++ leBytes 8 r.detail ++ leBytes 2 r.fabricStatus
    ++ (List.range 4).flatMap (fun i => leBytes 2 (r.loopLeft.getD i 0))
    ++ (List.range 3).flatMap (fun i => leBytes 2 (r.rebase.getD i 0)) ++ zeros 8

/-- A fault as it is raised: code, PC, unit, REPLAY_ID, INSTR, DETAIL, FABRIC_STATUS. -/
structure Raised where
  code : Nat
  pc : Nat
  unit : Nat
  replayId : Nat := 0
  instr : Nat := 0
  detail : Nat := 0
  status : Nat := 0

def Inflight.raised (f : Inflight) (code detail status : Nat) : Raised :=
  ⟨code, f.pc, f.unit, f.replayId, f.word, detail, status⟩

namespace Ctl

def tileJob (c : Ctl) (n : Nat) : Nat := (c.jobOfTile n).getD 0

/-- Whether tiles n and k belong to one job (R189, R193). -/
def sameJob (c : Ctl) (n k : Nat) : Bool := (c.jobOfTile n).isSome && c.jobOfTile n = c.jobOfTile k

/-- Whom the tile's events go to: the session that started its program (R201, R535). -/
def starterOf (c : Ctl) (n : Nat) : To := { starter := some ((c.tile n).starter, c.tileJob n) }

/-- Raise a fault in a tile (R199 to R201). The first posts TILE_FAULT; a transfer in progress fails its partner with
MESH_ERROR (R189). -/
def tileRaise : Nat → Nat → Raised → Ctl → Ctl
  | 0, _, _, c => c
  | fuel + 1, n, r, c =>
    let t := c.tile n
    let t' := t.raise c.tick r.code r.pc r.unit r.replayId r.instr r.detail r.status
    let c := c.setTile n t'
    if t.st = .faulted then c
    else
      let c := c.event 0x0302 (encode [.n 1 n, .raw 8 t'.faultRec.bytes]) (c.starterOf n)
      (t.inflight.filterMap (·.xfer)).foldl (fun c x =>
        if !x.met then c
        else
          match (c.tile x.partner).inflight.find? fun g =>
              g.xfer.any fun y => y.met && y.partner = n && y.chan = x.chan with
          | some g =>
            tileRaise fuel x.partner (g.raised 0x09 n 0)
              (c.updTile x.partner fun p => { p with inflight := p.inflight.erase g })
          | none => c) c

def raiseTile (n : Nat) (r : Raised) (c : Ctl) : Ctl := tileRaise 192 n r c

/-- An addition to a token counter of a tile; one past 65,535 raises TOKEN_OVERFLOW there (R194;
the record's PC, UNIT and INSTR: log 75). -/
def addToken (n k count : Nat) (c : Ctl) : Ctl :=
  let t := c.tile n
  let c := c.setTile n (t.addToken k count)
  if 65535 < t.token k + count then c.raiseTile n { code := 0x0A, pc := t.pc, unit := 0, replayId := t.replayNo }
  else c

def sendSignal (n : Nat) (a : AfterSignal) (c : Ctl) : Ctl := c.addToken (if a.dest = 255 then n else a.dest) a.token a.count

/-- Line requests of a tile outstanding on the fabric (R167). -/
def outstanding (c : Ctl) (n : Nat) : Nat :=
  (c.fabric.txns.filter fun x => match x.2.who with
    | .tile k _ _ => k = n
    | _ => false).length

end Ctl

/-- What TILE_START leaves (R172, R199). -/
def Tile.start (pc session : Nat) (t : Tile) : Tile :=
  { t with
    st := .running, pc, b1 := 0, b2 := 0, b3 := 0, loops := [], replay := none, faultRec := {}, starter := session
    wait := none, after := [], ending := false }

/-- Stop a tile with STOPPED (R199). -/
def Ctl.stopTile (n : Nat) (c : Ctl) : Ctl :=
  let t := c.tile n
  c.raiseTile n ⟨0x0E, t.pc, 0, t.replayNo, t.imem.getD t.pc 0, 0, 0⟩

end Sys2Proof.Machine
end

