-- ==== Sys2Proof/Machine/TileUnits.lean ====
section
/-! DEFINITION. The units of a tile at work, step by step: feeder, hold mover, stream buffer, array, drain latches and element
lanes (chapter 5). -/

namespace Sys2Proof.Machine

open Sys2Proof

/-! What an instruction in flight asks of its unit. -/

/-- The arguments of an MMA or CONV in flight (Tables 6-6 and 6-7). -/
def Inflight.array (f : Inflight) : ArrayArgs :=
  let w := f.word
  if bits w 5 0 = 0x05 then
    { conv := false, fh := bits w 19 16, fv := bits w 23 20, k := bits w 32 24 + 1, rowCount := bits w 39 33 + 1
      accStart := bits w 85 84, accEnd := bits w 87 86, loadSlot := bits w 89 88, drainSlot := bits w 91 90
      colBlock := bits w 112 109, addr := rebased (bits w 55 40) f.ra, pitch := bits w 67 56 * 32
      scaleAddr := rebased (bits w 83 68) f.ra, tr := bit w 92, trStart := bits w 121 113 }
  else
    { conv := true, fh := bits w 19 16, fv := bits w 23 20, k := convTaps w, rowCount := bits w 76 70 + 1
      accStart := bits w 110 109, accEnd := bits w 112 111, loadSlot := bits w 114 113, drainSlot := bits w 116 115
      colBlock := bits w 127 124, addr := rebased (bits w 92 77) f.ra, pitch := 0
      scaleAddr := rebased (bits w 108 93) f.ra, tr := false, trStart := 0 }

/-- The held index that column j meets at k (R138, R152). -/
def Inflight.heldAt (f : Inflight) (k j : Nat) : Nat :=
  if bits f.word 5 0 = 0x05 then bits f.word 108 100 + k else convIndex f.word k j

/-- Rows that a FEED or a HOLD names. -/
def Inflight.rows (f : Inflight) : Nat := (if f.unit = 1 then bits f.word 58 52 else bits f.word 22 16) + 1

/-- Fetches that a FEED has issued for row i (R142). -/
def Inflight.fetchedOf (f : Inflight) (i : Nat) : Nat := f.issued / f.rows + b2n (i < f.issued % f.rows)

/-- Whether rows of a draining instruction wait to be read out (R156). -/
def Inflight.draining (f : Inflight) : Bool :=
  f.unit = 3 && f.array.accEnd != 0 && decide (f.outRows < f.array.rowCount)

/-- Whether the instruction has work left for the element lanes: an EW, a glaze, or the bind-off phase of an MMA or CONV
(R161). -/
def Inflight.laning (f : Inflight) : Bool :=
  (f.unit = 4 && decide (f.laneDone < f.laneRows)) || (f.draining && f.array.accEnd = 2)

/-- Whether the instruction uses the element lanes at some time (Table 6-1). -/
def Inflight.onLanes (f : Inflight) : Bool := f.unit = 4 || (f.unit = 3 && f.array.accEnd = 2)

/-- Slots of the accumulator store that n bytes from offset o touch. -/
def slotsOf (o n : Nat) : List Nat := (List.range 4).filter fun q => q * 131072 < o + n && o < (q + 1) * 131072

/-- The slots that the instruction has still to read or write (R122). -/
def Inflight.slots (n : Nat) (f : Inflight) : List Nat :=
  if f.unit = 3 then
    let a := f.array
    (if a.accStart = 2 && f.issued = 0 && decide (f.loaded.length < 128) then [a.loadSlot] else [])
      ++ (if f.draining then [a.drainSlot] else [])
  else if f.unit = 4 then
    if bits f.word 5 0 = 0x08 && decide (f.laneDone < f.laneRows) then [bits f.word 21 20] else []
  else
    match f.move, f.xfer with
    | some m, _ =>
      if bit f.word 123 && decide (m.back < m.total) then
        (List.range 4).filter fun q => (List.range (m.total / m.lines)).any fun r =>
          (slotsOf (m.os - accBase n + r * m.osPitch) (64 * m.lines)).contains q
      else []
    | none, some x => if bit f.word 28 && !x.met then slotsOf (x.addr - accBase n) x.len else []
    | none, none => []

namespace Tile

/-- Whether every access that earlier instructions make to a slot is complete (R122). -/
def slotOpen (n id q : Nat) (t : Tile) : Bool := t.inflight.all fun g => decide (id ≤ g.id) || !(g.slots n).contains q

/-- Whether an instruction of the mesh units may touch the slots it names (R122). -/
def slotsOpen (n : Nat) (f : Inflight) (t : Tile) : Bool := (f.slots n).all fun q => t.slotOpen n f.id q

/-- Replace the instruction of number id in flight. -/
def setInst (f : Inflight) (t : Tile) : Tile := { t with inflight := t.inflight.map fun g => if g.id = f.id then f else g }

/-- Take an instruction out of its unit, with what was fetched for it. -/
def dropInst (id : Nat) (t : Tile) : Tile :=
  { t with
    inflight := t.inflight.filter (·.id != id)
    stream := t.stream.filter (·.id != id)
    scaleQ := t.scaleQ.filter (·.id != id) }

/-! Commitment (R179, R286, R287). -/

/-- Formats of the entries that dispatched FEEDs have still to fetch for row i. -/
def coming (i : Nat) (t : Tile) : List Nat :=
  (t.inflight.filter fun f => f.unit = 1 && decide (i < f.rows)).flatMap fun f =>
    List.replicate (f.total / f.rows - f.fetchedOf i) f.fmt

/-- Entries that the HOLDs dispatched up to number id have still to move in row i. -/
def owed (i id : Nat) (t : Tile) : Nat :=
  ((t.inflight.filter fun f => f.unit = 2 && decide (i < f.rows) && decide (f.id ≤ id)).map fun f => f.total - f.issued).sum

/-- The counts that the dispatch checks are made against, from what is held and what dispatched instructions will still do
(R179, R180). -/
def recount (t : Tile) : Tile :=
  let holds := t.inflight.filter (·.unit = 2)
  { t with
    holdFmt := match holds.getLast? with
      | some h => some h.fmt
      | none => (t.row 0).hold.head?.map (·.fmt)
    rows := t.rows.map fun (x : Nat × RowState) => (x.1, { x.2 with
      committed := ((x.2.queue ++ x.2.fly).map (·.fmt) ++ t.coming x.1).drop (t.owed x.1 t.nextId)
      holdN := match (holds.filter fun h => decide (x.1 < h.rows)).getLast? with
        | some h => h.total
        | none => x.2.hold.length }) }

/-- A FEED commits n entries of each row it names (R179). -/
def commit (rows fmt n : Nat) (t : Tile) : Tile :=
  { t with rows := (List.range rows).foldl (fun rs i =>
      Tab.upd i {} (fun r => { r with committed := r.committed ++ List.replicate n fmt }) rs) t.rows }

/-- A HOLD takes n committed entries of each row it names (R179, R180). -/
def takeCommitted (rows n fmt : Nat) (t : Tile) : Tile :=
  { t with
    holdFmt := some fmt
    rows := (List.range rows).foldl (fun rs i =>
      Tab.upd i {} (fun r => { r with committed := r.committed.drop n, holdN := n }) rs) t.rows }

/-- A HOLD whose entries will not come leaves its unit, and so do the array instructions after it (log 74). -/
def dropHold (id : Nat) (t : Tile) : Tile :=
  ((t.inflight.filter fun g => g.id = id || (g.unit = 3 && decide (id < g.id))).map (·.id)).foldl (fun t i => t.dropInst i) t

/-- Every feeder queue emptied, with every row at E = 16 and a committed count of 0 (R287). -/
def emptyFeeders (t : Tile) : Tile :=
  let t := (t.inflight.filter (·.unit = 2)).foldl (fun t f => t.dropHold f.id) t
  let t := (t.inflight.filter (·.unit = 1)).foldl (fun t f => t.dropInst f.id) t
  { t with rows := t.rows.map fun (x : Nat × RowState) => (x.1, { x.2 with queue := [], fly := [] }) }.recount

/-- What a FEED leaves that has met poison in round e (R202): the entries of rounds below k stay committed, k being free between
what HOLD has moved and e. -/
def feedPoisoned (f : Inflight) (e free : Nat) (t : Tile) : Tile :=
  let kept := fun (i : Nat) => ((t.row i).queue ++ (t.row i).fly).countP (·.feed = f.id)
  let moved := (List.range f.rows).foldl (fun m i => max m (f.fetchedOf i - kept i)) 0
  let lo := min moved e
  let k := lo + free % (e - lo + 1)
  let stays := fun (x : FeedEntry) => !(x.feed = f.id && decide (k ≤ x.idx))
  let t := { t with rows := t.rows.map fun (x : Nat × RowState) => (x.1, { x.2 with
    queue := x.2.queue.filter stays
    fly := x.2.fly.filter stays }) }.dropInst f.id
  let t := (t.inflight.filter (·.unit = 2)).foldl (fun t h =>
    if (List.range h.rows).any fun i =>
        decide ((t.row i).queue.length + (t.row i).fly.length + (t.coming i).length < t.owed i h.id) then t.dropHold h.id
    else t) t
  t.recount

/-- What TILE_LOAD_PROGRAM leaves (R183, R190, R197, R199, R287). -/
def loadProgram (prog bases : List Byte) (t : Tile) : Tile :=
  let n := prog.length / 16
  { t.emptyFeeders with
    st := .idle, progLen := n, tokens := [], glazes := [], ranges := [], loops := [], replay := none
    gauge := 64, laneGauge := 64
    imem := (List.range n).foldl (fun m p => Tab.set p (fieldAt prog (16 * p) 16) m) t.imem
    bases := (List.range 16).map fun j => (j, fieldAt bases (16 * j) 8, fieldAt bases (16 * j + 8) 3) }

/-! Steps that touch the tile alone. -/

/-- A step begins: fetches in flight arrive, and the steps since each last issue step are counted. -/
def tickStep (t : Tile) : Tile :=
  { t with
    sinceDrain := min 128 (t.sinceDrain + 1)
    rows := t.rows.map fun (x : Nat × RowState) => (x.1, { x.2 with queue := x.2.queue ++ x.2.fly, fly := [] })
    inflight := t.inflight.map fun f =>
      if f.unit = 3 && f.issued = f.total then { f with since := min 1024 (f.since + 1) } else f }

/-- HOLD moves one entry of every row it names, once they have arrived; it starts after the last issue step of every earlier MMA
or CONV (R144). -/
def holdStep (t : Tile) : Tile :=
  match t.inflight.find? fun f => f.unit = 2 && decide (f.issued < f.total) with
  | none => t
  | some h =>
    if (h.issued = 0 && t.inflight.any fun g => g.unit = 3 && decide (g.id < h.id) && decide (g.issued < g.total))
        || (List.range h.rows).any fun i => (t.row i).queue.isEmpty then t
    else
      { t with rows := (List.range h.rows).foldl (fun rs i => Tab.upd i {} (fun r => { r with
          queue := r.queue.drop 1
          hold := (if h.issued = 0 then [] else r.hold) ++ r.queue.take 1 }) rs) t.rows }.setInst { h with issued := h.issued + 1 }

/-- Whether the hold buffers give what issue step p of f needs (R144): every earlier HOLD has begun, and the elements have
moved. -/
def holdReady (f : Inflight) (a : ArrayArgs) (p : IssueStep) (t : Tile) : Bool :=
  (t.inflight.all fun g => g.unit != 2 || decide (f.id < g.id) || decide (0 < g.issued))
    && (List.range a.rowCount).all fun i => (List.range p.kn).all fun d =>
      decide (f.heldAt (p.k0 + d) (p.c0 + p.cn - 1) < entryElems a.fh (t.row i).hold.length)

/-- Whether the next issue step of f has its feeder row, its pacing token and its place (R51, R141, R157, R158). -/
def stepReady (f : Inflight) (t : Tile) : Bool :=
  let a := f.array
  let m := entriesPer a.fh
  decide (0 < t.gauge) && decide (m ≤ t.stream.length) && (t.stream.take m).all (·.id = f.id)
    && (a.blocks = 0 || (t.scaleQ.head?.any (·.id = f.id))) && t.holdReady f a (issueStep a.fh a.fv a.k f.issued)
    && (a.accStart != 2 || f.issued != 0 || f.loaded.length = 128)
    && (a.accEnd = 0 || decide (f.issued + 1 < f.total)
      || (t.sinceDrain = 128 && t.inflight.all fun g => decide (f.id ≤ g.id) || !g.draining || decide (0 < g.outRows)))

/-- An issue step of f (R138 to R141): its products enter the cells, and its token, its stream entries and a finished block's
scales are gone. After the last one of a draining instruction the latches hold the pairs (R156). The wavefront's delays are not
seen by any other unit, so the products are applied at once (log 76). -/
def issue (f : Inflight) (t : Tile) : Tile :=
  let a := f.array
  let m := entriesPer a.fh
  let p := issueStep a.fh a.fv a.k f.issued
  let data := (t.stream.take m).flatMap (·.data)
  let scales := (t.scaleQ.head?.map (·.data)).getD []
  let first : Bool := p.pass = 0 && p.k0 = 0
  let rows := (List.range a.rowCount).map fun i =>
    let start := fun (j : Nat) =>
      if !first || a.accStart = 1 then t.cell i j
      else if a.accStart = 0 then Pair32.zero
      else (f.loaded.getD i []).getD j Pair32.zero
    arrayRow p.c0 p.cn start fun j =>
      cellEntry a.fh a.fv p (fun d => holdElem a.fh (t.row i) (f.heldAt (p.k0 + d) j)) (fun d => a.streamed p data scales d j)
  let t' := (rows.zipIdx).foldl (fun t r =>
    { t with cells := setCells r.2 p.c0 r.1.1 t.cells }.count 0 r.1.2.2 r.1.2.1) t
  let last : Bool := f.issued + 1 = f.total
  let ends : Bool := last || (issueStep a.fh a.fv a.k (f.issued + 1)).k0 / 32 != p.k0 / 32
  let drains : Bool := last && a.accEnd != 0
  { t' with
    gauge := t'.gauge - 1
    stream := t'.stream.drop m
    scaleQ := if a.blocks != 0 && ends then t'.scaleQ.drop 1 else t'.scaleQ
    sinceDrain := if drains then 0 else t'.sinceDrain }.setInst { f with
    issued := f.issued + 1
    loaded := []
    since := 0
    latched := if drains then (List.range a.rowCount).map fun i => (List.range 128).map (t'.cell i) else [] }

/-- The array's step: the first instruction that still owes one issues it if it can. -/
def arrayStep (t : Tile) : Tile :=
  match t.inflight.find? fun f => f.unit = 3 && decide (f.issued < f.total) with
  | some f => if t.stepReady f then t.issue f else t
  | none => t

/-- The instruction whose turn the element lanes are (R161, Table 6-1). -/
def laneTurn (t : Tile) : Option Inflight := t.inflight.find? (·.laning)

end Tile

/-! Steps that read or write the stores. -/

/-- A fault of an instruction in its unit: it leaves the unit, and the tile is FAULTED (R200, R201). -/
def W.instFault (n : Nat) (f : Inflight) (unit : Nat) (e : Nat × Nat) (w : W) : W :=
  (w.on fun c => c.updTile n (Tile.dropInst f.id)).on (Ctl.raiseTile n ⟨e.1, f.pc, unit, f.replayId, f.word, e.2, 0⟩)

/-- Fetches of the feeder, round by round, until a row's queue has no free slot (R142). -/
def W.feedPump (n : Nat) : Nat → W → W
  | 0, w => w
  | fuel + 1, w =>
    let t := w.c.tile n
    match t.inflight.find? fun f => f.unit = 1 && decide (f.issued < f.total) with
    | none => w
    | some f =>
      let e := f.issued / f.rows
      let i := f.issued % f.rows
      let x := f.word
      let addr := rebased (bits x 35 20) f.ra
      let pitch := bits x 47 36 * 32
      let scales := rebased (bits x 74 59) f.ra
      if (t.row i).free = 0 then w
      else
        match feedPoison n f.fmt addr pitch scales (bit x 75) (bits x 84 76) i e w.b with
        | some a =>
          let r := w.c.fresh
          W.feedPump n fuel (({ w with c := r.2 }.on fun c => c.updTile n (Tile.feedPoisoned f e r.1)).instFault n f 1 (0x07, a))
        | none =>
          let entry := feedEntry n f.id f.fmt addr pitch scales (bit x 75) (bits x 84 76) i e w.b
          W.feedPump n fuel (w.on fun c => c.updTile n fun t =>
            { t with rows := Tab.upd i {} (fun r => { r with fly := r.fly ++ [entry] }) t.rows }.setInst
              { f with issued := f.issued + 1 })

/-- Fetches of the stream buffer and the scale queue, in program order, while they have room: up to 64 and 16 entries ahead of
the array (R149). -/
def W.streamPump (n : Nat) : Nat → W → W
  | 0, w => w
  | fuel + 1, w =>
    let t := w.c.tile n
    let next := t.inflight.find? fun f => f.unit = 3 && decide (f.fetched < f.total * entriesPer f.array.fh)
    let nextScale := t.inflight.find? fun f => f.unit = 3 && decide (f.scaled < f.array.blocks)
    match next.filter fun _ => decide (t.stream.length < 64), nextScale.filter fun _ => decide (t.scaleQ.length < 16) with
    | some f, _ =>
      match f.array.entry n f.fetched w.b with
      | .error e => W.streamPump n fuel (w.instFault n f 3 e)
      | .ok d => W.streamPump n fuel (w.on fun c => c.updTile n fun t =>
          { t with stream := t.stream ++ [StreamEntry.mk f.id d] }.setInst { f with fetched := f.fetched + 1 })
    | none, some f =>
      match f.array.scales n f.scaled w.b with
      | .error e => W.streamPump n fuel (w.instFault n f 3 e)
      | .ok d => W.streamPump n fuel (w.on fun c => c.updTile n fun t =>
          { t with scaleQ := t.scaleQ ++ [ScaleEntry.mk f.id d] }.setInst { f with scaled := f.scaled + 1 })
    | none, none => w

/-- One row of a load-add's slot goes into the load latches (R158), once the earlier accesses to the slot are complete and the
latches are free. -/
def W.loadStep (n : Nat) (w : W) : W :=
  let t := w.c.tile n
  match t.inflight.find? fun f => f.unit = 3 && f.array.accStart = 2 && f.issued = 0 && decide (f.loaded.length < 128) with
  | none => w
  | some f =>
    let q := f.array.loadSlot
    let i := f.loaded.length
    if !t.slotOpen n f.id q || t.inflight.any fun g => g.unit = 3 && decide (g.id < f.id) && g.issued = 0 then w
    else if w.b.mem.anyPoison (accBase n + slotAddr q i) 1024 then w.instFault n f 3 (0x07, slotAddr q i)
    else w.on fun c => c.updTile n (Tile.setInst { f with loaded := f.loaded ++ [slotRow n q i w.b] })

/-- A row of the drain latches is read out (R156, R159): written to its slot, and of a bind-off glazed by the element lanes in the
same step, when their turn and token are there. -/
def W.drainStep (n : Nat) (w : W) : W :=
  let t := w.c.tile n
  match t.inflight.find? fun f => f.draining && f.issued = f.total with
  | none => w
  | some f =>
    let a := f.array
    let i := f.outRows
    let bind : Bool := a.accEnd = 2
    if f.since < 128 + i || !t.slotOpen n f.id a.drainSlot || (bind && (t.laneGauge = 0 || !(t.laneTurn.any (·.id = f.id)))) then w
    else
      let row := f.latched.headD []
      let b := w.b.write (accBase n + slotAddr a.drainSlot i) (row.flatMap Pair32.bytes)
      let t := { t with laneGauge := if bind then t.laneGauge - 1 else t.laneGauge }.count 0
        (row.filter fun (p : Pair32) => decide (dec32 p.s = Fp.nan)).length 0
      let f := { f with outRows := i + 1, latched := f.latched.drop 1 }
      let w := { w with b }.on fun c => c.setTile n (t.setInst f)
      if !bind then w
      else
        let cs : TileRes (List Byte) := match f.cs with
          | some l => .ok l
          | none => glazeScales n f.glaze a.colBlock f.ra b
        match cs.bind fun l => (glazeRow n f.glaze a.colBlock f.ra f.rb i l row t b).map fun r => (l, r) with
        | .error e => w.instFault n f 4 e
        | .ok (l, t', b') => { w with b := b' }.on fun c => c.setTile n (t'.setInst { f with cs := some l })

/-- A row of an EW or a GLAZE in apply form passes the element lanes (R160, R183, R187, R589). -/
def W.laneStep (n : Nat) (w : W) : W :=
  let t := w.c.tile n
  match t.laneTurn.filter fun f => f.unit = 4 && decide (0 < t.laneGauge) with
  | none => w
  | some f =>
    let x := f.word
    let r := f.laneDone
    let t := { t with laneGauge := t.laneGauge - 1 }
    if bits x 5 0 = 0x08 then
      let q := bits x 21 20
      if !t.slotOpen n f.id q then w
      else if w.b.mem.anyPoison (accBase n + slotAddr q r) 1024 then w.instFault n f 4 (0x07, slotAddr q r)
      else
        let cs : TileRes (List Byte) := match f.cs with
          | some l => .ok l
          | none => glazeScales n f.glaze (bits x 36 33) f.ra w.b
        match cs.bind fun l => (glazeRow n f.glaze (bits x 36 33) f.ra f.rb r l (slotRow n q r w.b) t w.b).map fun y => (l, y) with
        | .error e => w.instFault n f 4 e
        | .ok (l, t', b') => { w with b := b' }.on fun c => c.setTile n (t'.setInst { f with cs := some l, laneDone := r + 1 })
    else
      match ewRow n (ewArgs f.ra f.rb x) r f.acc t w.b with
      | .error e => w.instFault n f 4 e
      | .ok (acc, t', b') => { w with b := b' }.on fun c => c.setTile n (t'.setInst { f with acc, laneDone := r + 1 })

/-- One step of the tile: what was fetched arrives, a row is read out of the drain latches, a row passes the element lanes, the
array issues a step, HOLD moves an entry, the load latches take a row, and the fetches go on. The element lanes serve one row a
step. -/
def W.unitStep (n : Nat) (w : W) : W :=
  let w := w.on fun c => c.updTile n Tile.tickStep
  let lanes : Bool := (w.c.tile n).laneTurn.any (·.unit = 4)
  let w := w.drainStep n
  let w := if lanes then w.laneStep n else w
  let w := (w.on fun c => c.updTile n fun t => t.arrayStep.holdStep).loadStep n
  (w.feedPump n 4096).streamPump n 256

end Sys2Proof.Machine
end

