-- ==== Sys2Proof/Machine/ServeOps.lean ====
section
/-! DEFINITION. The serving engine at work: messages, delivery, stretches, the ends of sequences, pages, admission, and
the iterations (chapter 16). -/

namespace Sys2Proof.Machine

open Sys2Proof

namespace Ctl

def contract? (c : Ctl) (id : Nat) : Option Contract := c.serve.contracts.get? id

def updContract (id : Nat) (f : Contract → Contract) (c : Ctl) : Ctl :=
  c.onServe fun s => { s with contracts := s.contracts.map fun x => if x.1 = id then (id, f x.2) else x }

def seq? (c : Ctl) (k n : Nat) : Option Sequence := c.serve.seqs.find? fun q => q.contract = k && q.stream = n

def updSeq (k n : Nat) (f : Sequence → Sequence) (c : Ctl) : Ctl :=
  c.onServe fun s => { s with seqs := s.seqs.map fun q => if q.contract = k && q.stream = n then f q else q }

def updModel (f : Model → Model) (c : Ctl) : Ctl := c.onServe fun s => { s with model := s.model.map f }

/-- The resident sequences (R481). -/
def residents (c : Ctl) : List Sequence := c.serve.seqs.filter fun q => q.slot.isSome && q.done.isNone

/-- The sequences of the intake queue, in order (R481). -/
def intake (c : Ctl) : List Sequence := c.serve.seqs.filter fun q => q.slot.isNone && q.done.isNone

/-- The place of a sequence in the intake queue, from 1; 0 where it has been admitted. -/
def queuePos (c : Ctl) (k n : Nat) : Nat :=
  ((c.intake.findIdx? fun q => q.contract = k && q.stream = n).map (· + 1)).getD 0

/-- The engine's firmware runs (R36) and its function is usable. -/
def serving (c : Ctl) : Bool := c.rc.run = 3 && c.usable 19 && !c.locked && !c.alarms.gesso

/-! Messages (R472 to R478). -/

/-- Send a TSP message to a client on Ethernet, with the contract's next MSG_SEQ and its TAG (R473, R474). -/
def tspSend (k stream type : Nat) (who : Client) (payload : List Byte) (c : Ctl) : Ctl :=
  match who, c.contract? k with
  | .net port addr udp, some x =>
    let b := leBytes 1 0x10 ++ leBytes 1 type ++ leBytes 2 0 ++ leBytes 4 k ++ leBytes 8 stream ++ leBytes 4 x.txSeq
      ++ leBytes 2 payload.length ++ leBytes 2 0 ++ payload
    (c.updContract k fun x => { x with txSeq := add32 x.txSeq 1 }).ethSend port addr udp (b ++ kmac256 x.key b 128 "TSP")
  | _, _ => c

def refuseBytes (code : Nat) : List Byte := leBytes 2 code

def acceptBytes (pos : Nat) (q : Sequence) : List Byte :=
  leBytes 4 pos ++ leBytes 4 q.prompt.length ++ leBytes 8 q.seedUsed

def doneBytes (reason : Nat) (q : Sequence) : List Byte :=
  leBytes 1 reason ++ zeros 3 ++ leBytes 4 q.sent ++ leBytes 4 q.prompt.length ++ leBytes 4 q.lastStretch

def tokensBytes (first : Nat) (toks : List Nat) (text : List Byte) : List Byte :=
  leBytes 4 first ++ leBytes 2 toks.length ++ leBytes 2 text.length ++ toks.flatMap (leBytes 4) ++ text

/-- An event with a TSP payload for the session that asked (R502). -/
def serveEvent (code : Nat) (q : Sequence) (session : Nat) (payload : List Byte) (c : Ctl) : Ctl :=
  c.event code (encodeEv [.n 4 q.contract, .n 8 q.stream, .raw 8 payload])
    { starter := some (session, ((c.contract? q.contract).map (·.job)).getD 0) }

/-- Whether an event of n payload bytes finds room in the ring of a session (R478, R536). -/
def ringRoom (c : Ctl) (session n : Nat) : Bool :=
  match c.pairs.find? fun x => x.2.session.any (·.id = session) with
  | some (_, p) =>
    (match p.remote with
      | some r => decide (r.unacked.length < 256)
      | none => decide (unitsOf (16 + n) ≤ p.evtN - diff32 p.evtPi p.evtCi))
  | none => false

/-- The byte string of a token in a contract's table (R480). -/
def tokenText (c : Ctl) (k t : Nat) : List Byte :=
  match c.contract? k with
  | some x => ((c.serve.tables.get? x.a.tokeniser).bind fun y => y.entries[t]?).getD []
  | none => []

/-- Text with what waits before it, cut at a character boundary: what goes and what waits (R480). -/
def textCut (l : List Byte) : List Byte × List Byte :=
  let n := utf8Whole l.length (l.map (·.toNat))
  (l.take n, l.drop n)

/-- To OWNER and the contract's or model's TENANT session (R503). -/
def serveTo (job : Nat) : To := { owner := true, tenant := [job] }

/-! Stretches and records (R499 to R501). -/

/-- The body of a delivery record (Table 16-11). -/
def recordBody (id n reason : Nat) (s : Stretch) : List Byte :=
  leBytes 4 id ++ leBytes 4 n ++ leBytes 8 s.decode ++ leBytes 8 s.prefill ++ leBytes 8 s.first ++ leBytes 8 s.last
    ++ leBytes 1 reason ++ zeros 3 ++ leBytes 4 s.ended ++ zeros 16 ++ s.digest

/-- Close a contract's open stretch: its record enters the queue; while the queue is full the stretch stays open. A record
leaves the engine while the Tally entry is READY (R569). -/
def closeStretch (id reason : Nat) (c : Ctl) : Ctl :=
  match c.contract? id with
  | none => c
  | some k =>
    match k.stretch with
    | none => c
    | some st =>
      let why := st.due.getD reason
      if 256 ≤ c.serve.queue.length then c.updContract id fun k => { k with stretch := some { st with due := some why } }
      else
        let q : Queued := ⟨id, k.stretchSeq, recordBody id k.stretchSeq why st, if c.stateOf 15 = 2 then some c.tick else none⟩
        (c.updContract id fun k => { k with stretch := none, stretchSeq := k.stretchSeq + 1 }).onServe fun s =>
          { s with queue := s.queue ++ [q] }

/-- Close a stretch that must close, if it can. -/
def retryClose (id : Nat) (c : Ctl) : Ctl :=
  if (c.contract? id).any fun k => k.stretch.any (·.due.isSome) then c.closeStretch id 0 else c

/-- Whether a contract hands no token to the network (R500). -/
def heldBack (c : Ctl) (id : Nat) : Bool := (c.contract? id).any fun k => k.stretch.any (·.due.isSome)

/-- Note that tokens are held back: SERVE_TALLY_STALL once per window (R503). -/
def noteStall (id : Nat) (c : Ctl) : Ctl :=
  match c.contract? id with
  | none => c
  | some k =>
    let c' := c.updContract id fun k => { k with win := { k.win with stalled := true, cause := k.win.cause ||| 8 } }
    if k.win.stalled then c' else c'.event 0x0604 (encodeEv [.n 4 id]) (serveTo k.job)

/-- Send the records that have not left the engine (R569). -/
def sendRecords (c : Ctl) : Ctl :=
  if c.stateOf 15 = 2 then
    c.onServe fun s => { s with queue := s.queue.map fun q => if q.sentAt.isNone then { q with sentAt := some c.tick } else q }
  else c

/-! Delivery (R478, R493, R494). -/

/-- Add a reserved sequence's time in decode to its window and count on from now, or stop (Table 16-9, SEQ_MS). -/
def countTime (k n : Nat) (on : Bool) (c : Ctl) : Ctl :=
  match c.seq? k n with
  | none => c
  | some q =>
    let c := match q.from_ with
      | some t => if q.reserved then c.updContract k fun x => { x with win := { x.win with seqNs := x.win.seqNs + (c.tick - t) } } else c
      | none => c
    c.updSeq k n fun q => { q with from_ := if on then some c.tick else none }

/-- Count a delivered token: its stretch, and for a reserved sequence its latency and deadline. -/
def countDelivery (k n : Nat) (c : Ctl) : Ctl :=
  match c.seq? k n, c.contract? k with
  | some q, some x =>
    let t := c.tick
    let st := x.stretch.getD { digest := (c.serve.model.map (·.digest)).getD (zeros 64), first := t }
    let st := { st with
      decode := st.decode + 1
      prefill := st.prefill + (if q.sent = 0 then q.prompt.length else 0)
      last := t }
    let hist := match q.lastTick with
      | some l => if q.reserved && !q.skipLat then Tab.upd (bucketOf (t - l)) 0 (· + 1) x.win.hist else x.win.hist
      | none => x.win.hist
    let c := c.updContract k fun x => { x with
      stretch := some st
      win := { x.win with hist, tokens := if q.reserved then x.win.tokens + 1 else x.win.tokens } }
    let c := c.updSeq k n fun q => { q with
      lastTick := some t
      skipLat := false
      overdue := false
      lastStretch := x.stretchSeq
      deadline := if q.reserved && x.a.p999 != 0 then some (t + x.a.p999) else none }
    let c := if q.overdue then c.onServe fun s => { s with late := inc32 s.late } else c
    if x.a.stretchTokens ≤ st.decode then c.closeStretch k 0 else c
  | _, _ => c

/-- Hand the next token of a sequence over: none while it must wait (no Ethernet port READY, R558), else whether it counts
as delivered (R478), and its message. -/
def handToken (q : Sequence) (t : Nat) (c : Ctl) : Option (Bool × Ctl) :=
  match q.client with
  | .net port _ _ =>
    if c.stateOf (52 + port) != 2 then none
    else
      let x := if q.r.textOut then textCut (q.text ++ c.tokenText q.contract t) else ([], [])
      some (true, (c.updSeq q.contract q.stream fun q => { q with text := x.2 }).tspSend q.contract q.stream 0x82 q.client
        (tokensBytes q.sent [t] x.1))
  | .mailbox _ session =>
    let b := tokensBytes q.sent [t] []
    some (c.ringRoom session (16 + b.length), c.serveEvent 0x0600 q session b)

/-- Free the pages of a sequence. -/
def freePages (q : Sequence) (c : Ctl) : Ctl :=
  c.updModel fun m => { m with
    pools := Tab.mapVals (fun s p => { p with used := p.used.filter fun g => !q.pages.contains (s, g) }) m.pools }

/-- A sequence ends: its last bytes of text, DONE, its pages and its slot (R476, R480, R486). -/
def endSeq (k n reason : Nat) (c : Ctl) : Ctl :=
  match c.seq? k n with
  | none => c
  | some q =>
    let c := (c.countTime k n false).freePages q
    let c := match q.client with
      | .net .. =>
        (if q.text.isEmpty then c else c.tspSend k n 0x82 q.client (tokensBytes q.sent [] q.text)).tspSend k n 0x83 q.client
          (doneBytes reason q)
      | .mailbox _ session => c.serveEvent 0x0601 q session (doneBytes reason q)
    let c := c.updContract k fun x => { x with stretch := x.stretch.map fun s => { s with ended := s.ended + 1 } }
    c.updSeq k n fun q => { q with
      done := some reason
      doneTick := c.tick
      slot := none
      pages := []
      text := []
      deadline := none
      paused := false }

/-- Deliver what a sequence has sampled, as far as R500 and the port allow; then it ends if it is to end, or pauses with
4,096 tokens unacknowledged (R477). -/
def streamOut : Nat → Nat → Nat → Ctl → Ctl
  | 0, _, _, c => c
  | f + 1, k, n, c =>
    match c.seq? k n with
    | none => c
    | some q =>
      if q.done.isSome then c
      else
        match q.out[q.sent]? with
        | none =>
          match q.ending with
          | some r => c.endSeq k n r
          | none => c
        | some t =>
          let c := c.retryClose k
          if c.heldBack k then c.noteStall k
          else
            match c.handToken q t with
            | none => c
            | some (counts, c) =>
              let c := if counts then c.countDelivery k n else c
              let c := c.updSeq k n fun q => { q with
                sent := q.sent + 1
                acked := match q.client with
                  | .mailbox .. => q.sent + 1
                  | .net .. => q.acked }
              let full := (c.seq? k n).any fun q => decide (4096 ≤ q.sent - q.acked) && !q.paused
              let c := if full then (c.countTime k n false).updSeq k n fun q => { q with paused := true } else c
              streamOut f k n c

def deliverSeq (k n : Nat) (c : Ctl) : Ctl := c.streamOut (((c.seq? k n).map fun q => q.out.length + 1).getD 0) k n

def deliverAll (c : Ctl) : Ctl := c.residents.foldl (fun c q => c.deliverSeq q.contract q.stream) c

/-- End the sequences that satisfy a condition, at once. -/
def endWhere (p : Sequence → Bool) (reason : Nat) (c : Ctl) : Ctl :=
  (c.serve.seqs.filter fun q => q.done.isNone && p q).foldl (fun c q => c.endSeq q.contract q.stream reason) c

/-! Floors and windows (R482, R495, R498). -/

def reservedSum (c : Ctl) : Nat := c.serve.contracts.vals.foldl (fun n k => n + k.a.seqReserved) 0

def ctxSum (c : Ctl) : Nat := c.serve.contracts.vals.foldl (fun n k => n + k.a.seqReserved * k.a.ctxLimit) 0

/-- Whether every open contract passes with b resident sequences. -/
def floorsHold (c : Ctl) (a : ModelArgs) (b : Nat) : Bool :=
  let r := c.reservedSum
  let top := c.serve.contracts.vals.foldl (fun n k => max n k.a.ctxLimit) 0
  c.serve.contracts.vals.all fun k => targetsHold k.a (guaranteedTime a b (c.ctxSum + (b - r) * top) k.a.floorStep)

/-- MAX_RESIDENT (R482). -/
def newMaxResident (c : Ctl) : Ctl :=
  match c.serve.model with
  | none => c
  | some m =>
    c.onServe fun s => { s with
      maxResident := (((List.range 1025).reverse).find? fun b => decide (c.reservedSum ≤ b) && c.floorsHold m.a b).getD 0 }

/-- Readiness entries that the loaded model uses (Table 19-4): the stacks of its regions and the Canvases of its tiles. -/
def modelEntries (c : Ctl) : List Nat :=
  match c.serve.model with
  | none => []
  | some m =>
    let sts := (m.a.weights ++ m.a.pools ++ [m.a.logits]).filterMap fun n => (c.fabric.regions.get? n).bind fun r =>
      if r.space = 2 then some (7 + stackOf r.base) else none
    let cvs := ((c.jobs.get? m.a.job).map (·.tiles)).getD [] |>.map fun t => 3 + t / 48
    (sts ++ cvs).eraseDups

/-- CAUSE of a contract as things stand: bits 0, 2 and 4 (Table 16-9). -/
def causeNow (c : Ctl) (k : Contract) : Nat :=
  let e := c.modelEntries
  let mine := (c.serve.model.map (·.a.job)).getD 0
  let shared := c.fabric.regions.vals.any fun r => r.space = 2 && r.job != mine && e.contains (7 + stackOf r.base)
  b2n (decide (k.a.floorStep < c.power.step)) + (if e.any fun i => c.stateOf i != 2 then 4 else 0) + (if shared then 16 else 0)

def noteCauses (c : Ctl) : Ctl :=
  c.onServe fun s => { s with
    contracts := Tab.mapVals (fun _ k => { k with
      win := { k.win with cause := k.win.cause ||| c.causeNow k, clMax := max k.win.clMax c.power.step } }) s.contracts }

def newWindow (c : Ctl) (k : Contract) (n : Nat) : Window :=
  { seq := n, start := c.tick, cause := c.causeNow k, clMax := c.power.step }

/-! Pages (R486, R487). -/

def poolFree (p : Pool) : Nat := p.limit - (p.used.filter (· < p.limit)).length

def freeTotal (c : Ctl) : Nat := (c.serve.model.map fun m => m.pools.vals.foldl (fun n p => n + poolFree p) 0).getD 0

/-- Set-aside pages that their contracts do not use. -/
def asideLeft (c : Ctl) : Nat :=
  c.serve.contracts.foldl (fun n (x : Nat × Contract) =>
    n + (x.2.setAside - (c.residents.filter fun q => q.contract = x.1 && q.reserved).foldl (fun m q => m + q.pages.length) 0)) 0

/-- Take a page from the stack with the most free pages, the lower number on a tie. -/
def takePage (k n : Nat) (c : Ctl) : Option (Nat × Nat × Ctl) :=
  match c.serve.model with
  | none => none
  | some m =>
    let best := m.pools.foldl (fun (b : Option (Nat × Pool)) (x : Nat × Pool) =>
      match b with
      | none => if poolFree x.2 = 0 then none else some x
      | some y => if poolFree y.2 < poolFree x.2 then some x else b) none
    best.bind fun x =>
      ((List.range x.2.limit).find? fun g => !x.2.used.contains g).map fun g =>
        (x.1, g, (c.updModel fun m => { m with pools := Tab.upd x.1 x.2 (fun p => { p with used := p.used ++ [g] }) m.pools }).updSeq
          k n fun q => { q with pages := q.pages ++ [(x.1, g)] })

/-- The slack of a sequence in ns (R484); none where its contract sets no ITL_P99. -/
def slackOf (c : Ctl) (q : Sequence) : Option Int :=
  match c.contract? q.contract with
  | some k => if k.a.p99 = 0 then none else some (((q.lastTick.getD q.admitTick) + k.a.p99 : Nat) - (c.tick : Int))
  | none => none

/-- Order by slack; no slack is the greatest. -/
def slackLe : Option Int → Option Int → Bool
  | some a, some b => decide (a ≤ b)
  | none, some _ => false
  | _, none => true

/-- The best-effort sequence with the greatest slack, the later admitted on a tie. -/
def victim (c : Ctl) : Option Sequence :=
  (c.residents.filter (!·.reserved)).foldl (fun (b : Option Sequence) q =>
    match b with
    | none => some q
    | some y =>
      let a := c.slackOf y
      let d := c.slackOf q
      if slackLe a d && (!slackLe d a || decide (y.order < q.order)) then some q else b) none

/-- The generator's state of a sequence after the draws of its first n tokens (R491). -/
def drawsDone (q : Sequence) (n : Nat) : Nat :=
  if q.r.mode = 0 then q.rng else (List.range n).foldl (fun v _ => (drawU v).2) (seedState q.seedUsed)

/-- Preempt a sequence: its pages are free and it stands at the head of the intake queue; it continues from the next token index
with that token's draw (R487, R491). -/
def preempt (q : Sequence) (c : Ctl) : Ctl :=
  let c := (c.countTime q.contract q.stream false).freePages q
  let lost := decide (q.sent < q.out.length)
  c.onServe fun s => { s with
    seqs := { q with
        slot := none, inDecode := false, out := q.out.take q.sent, pos := 0, pages := [], from_ := none
        rng := if lost then drawsDone q q.sent else q.rng
        ending := if lost && q.ending != some 3 then none else q.ending }
      :: s.seqs.filter fun x => !(x.contract = q.contract && x.stream = q.stream) }

/-- Make the pages of the pools reach the set-aside pages of the contracts. -/
def preemptFor : Nat → Ctl → Ctl
  | 0, c => c
  | f + 1, c =>
    if c.asideLeft ≤ c.freeTotal then c
    else
      match c.victim with
      | some q => preemptFor f (c.preempt q)
      | none => c

/-! Faults and reloads (R489). -/

/-- Put the model's programs on its tiles again and start them at word 0. -/
def reloadModel (c : Ctl) : Ctl :=
  match c.serve.model with
  | none => c
  | some m =>
    m.progs.foldl (fun c (x : Nat × Prog) =>
      let c := if (c.tile x.1).st = .running then c.stopTile x.1 else c
      c.updTile x.1 fun t =>
        let t := t.loadProgram [] []
        ({ t with imem := x.2.imem, progLen := x.2.len, bases := x.2.bases }).start 0 m.session) c

/-- A fault of the model ends every resident sequence, and the programs are loaded again (R489). -/
def serveFault (c : Ctl) : Ctl :=
  match c.serve.model with
  | none => c
  | some m =>
    let c := (c.endWhere (·.slot.isSome) 4).event 0x0603 (encodeEv [.n 4 0xFFFFFFFF]) (serveTo m.a.job)
    (c.updModel fun m => { m with waiting := false, stored := false, batch := [], appends := [] }).reloadModel

end Ctl

/-! Admission (R481). -/

/-- Hub SRAM offsets of the engine's page tables and of the tokens of prefill chunks (log 21). -/
def tableOffset (slot : Nat) : Nat := 0xB000000 + 8192 * slot
def chunkOffset : Nat := 0xB800000

/-- Bytes of the page table of a slot on a stack. -/
def tableBytes (a : ModelArgs) : Nat := roundUp (4 * ceilDiv a.maxContext 64) 64

/-- Offsets on its stack of a pool's page tables, KV staging area and move list, which lie behind its pages (log 21). -/
def poolTable (a : ModelArgs) (p : Pool) (slot : Nat) : Nat := p.base + p.pages * 64 * a.kvBytes + slot * tableBytes a
def poolStage (a : ModelArgs) (p : Pool) : Nat := poolTable a p 1024
def poolMoves (a : ModelArgs) (p : Pool) : Nat := poolStage a p + 1536 * a.kvBytes

/-- Pages of a pool region of len bytes. -/
def poolPages (a : ModelArgs) (len : Nat) : Nat := (len - (1024 * tableBytes a + 1536 * a.kvBytes + 16384)) / (64 * a.kvBytes)

/-- Write an entry of a slot's page tables, in hub SRAM and on the page's stack. -/
def W.writePte (slot i st page : Nat) (w : W) : W :=
  match w.c.serve.model with
  | none => w
  | some m =>
    let w := { w with b := w.b.write (hubBase + tableOffset slot + 4 * i) (leBytes 4 page) }
    match m.pools.get? st with
    | some p => w.stackStore st (poolTable m.a p slot + 4 * i) (leBytes 4 page) 0
    | none => w

/-- Set a slot's page tables unallocated (R486). -/
def W.clearTables (slot n : Nat) (w : W) : W :=
  match w.c.serve.model with
  | none => w
  | some m =>
    let e := List.replicate (4 * n) (0xFF : Byte)
    let w := { w with b := w.b.write (hubBase + tableOffset slot) e }
    m.pools.foldl (fun (w : W) (x : Nat × Pool) => w.stackStore x.1 (poolTable m.a x.2 slot) e 0) w

/-- The next sequence to admit, and whether it is reserved. -/
def Ctl.nextAdmit (c : Ctl) : Option (Sequence × Bool) :=
  let res := c.residents
  if 1024 ≤ res.length then none
  else
    let short := fun (q : Sequence) => (c.contract? q.contract).any fun k =>
      decide ((res.filter fun r => r.contract = q.contract).length < k.a.seqReserved)
    match c.intake.find? short with
    | some q => some (q, true)
    | none => if res.length < c.serve.maxResident then c.intake.head?.map fun q => (q, false) else none

def W.admitAll : Nat → W → W
  | 0, w => w
  | f + 1, w =>
    match w.c.nextAdmit with
    | none => w
    | some (q, reserved) =>
      let taken := w.c.residents.filterMap (·.slot)
      match (List.range 1024).find? fun s => !taken.contains s with
      | none => w
      | some slot =>
        let ctx := ((w.c.contract? q.contract).map (·.a.ctxLimit)).getD 0
        let w := w.clearTables slot (ceilDiv ctx 64)
        W.admitAll f (w.on fun c =>
          let c := c.updSeq q.contract q.stream fun q => { q with
            slot := some slot
            reserved
            told := true
            admitTick := c.tick
            order := c.serve.order
            target := q.prompt.length + q.out.length
            inDecode := false
            pos := 0 }
          let c := c.onServe fun s => { s with order := s.order + 1 }
          if q.told then c else c.tspSend q.contract q.stream 0x81 q.client (Ctl.acceptBytes 0 q))

/-! Iterations (R471, R483 to R489). -/

/-- Give a sequence pages for its first n positions; a best-effort one preempts where the pool has none for it. -/
def W.givePages : Nat → Nat → Nat → Nat → W → W
  | 0, _, _, _, w => w
  | f + 1, k, n, upTo, w =>
    match w.c.seq? k n with
    | none => w
    | some q =>
      match q.slot with
      | none => w
      | some slot =>
        if upTo ≤ 64 * q.pages.length then w
        else if q.reserved || w.c.asideLeft < w.c.freeTotal then
          match w.c.takePage k n with
          | some (st, g, c) => W.givePages f k n upTo ({ w with c := c }.writePte slot q.pages.length st g)
          | none => w
        else
          match w.c.victim with
          | some v => W.givePages f k n upTo (w.on (Ctl.preempt v))
          | none => w

/-- Whether a sequence has its pages for n positions and is still resident. -/
def Ctl.placed (c : Ctl) (k n upTo : Nat) : Bool := (c.seq? k n).any fun q => q.slot.isSome && decide (upTo ≤ 64 * q.pages.length)

/-- Decode entries in the order of R484. -/
def Ctl.decodeOrder (c : Ctl) : List Sequence :=
  let l := c.residents.filter fun q => q.inDecode && !q.paused && q.ending.isNone
  let go := fun (l : List Sequence) => l.insertionSort fun a b => Ctl.slackLe (c.slackOf a) (c.slackOf b) = true
  go (l.filter (·.reserved)) ++ go (l.filter (!·.reserved))

/-- Prompt tokens that an iteration with d decode entries may carry (R483, log 22). -/
def Ctl.prefillBudget (c : Ctl) (m : Model) (d : Nat) : Nat :=
  if d = 0 then 128
  else if c.residents.any fun q => q.reserved && (c.slackOf q).any fun s => decide (s < 2 * (m.lastTime : Int)) then 0
  else m.a.prefillShare * ceilDiv d 128 * 128 / 100

/-- The prefill entries: sequences in admission order with the tokens of each. -/
def Ctl.prefillPlan (c : Ctl) (budget : Nat) : List (Sequence × Nat) :=
  let l := (c.residents.filter fun q => !q.inDecode && !q.paused && q.ending.isNone && decide (q.pos < q.target)).insertionSort fun a b =>
    a.order ≤ b.order
  (l.foldl (fun (st : Nat × List (Sequence × Nat)) q =>
    let n := min st.1 (q.target - q.pos)
    if n = 0 then st else (st.1 - n, st.2 ++ [(q, n)])) (budget, [])).2

/-- The tokens of a sequence by position. -/
def seqTokens (q : Sequence) : List Nat := q.prompt ++ q.out

/-- Issue an iteration: the descriptor at BATCH_ADDR and TOK15 of every model tile (R471, Table 16-2). -/
def W.issue (w : W) : W :=
  match w.c.serve.model with
  | none => w
  | some m =>
    let dec := w.c.decodeOrder
    let plan := w.c.prefillPlan (w.c.prefillBudget m dec.length)
    let w := dec.foldl (fun (w : W) q => w.givePages 2049 q.contract q.stream (q.pos + 1)) w
    let w := plan.foldl (fun (w : W) (x : Sequence × Nat) => w.givePages 4096 x.1.contract x.1.stream (x.1.pos + x.2)) w
    let dec := dec.filter fun q => w.c.placed q.contract q.stream (q.pos + 1)
    let plan := plan.filter fun x => w.c.placed x.1.contract x.1.stream (x.1.pos + x.2)
    if dec.isEmpty && plan.isEmpty then w
    else
      let slotOf := fun (q : Sequence) => ((w.c.seq? q.contract q.stream).bind (·.slot)).getD 0
      let entry := fun (slot chunk pos input : Nat) =>
        leBytes 2 slot ++ leBytes 2 chunk ++ leBytes 4 pos ++ leBytes 4 (tableOffset slot) ++ leBytes 4 input
      let decB := dec.flatMap fun q => entry (slotOf q) 0 q.pos ((seqTokens q).getLastD 0)
      let decL := dec.zipIdx.map fun (x : Sequence × Nat) => (⟨x.1.contract, x.1.stream, 0, x.1.pos, x.2⟩ : Batch)
      let pre := plan.foldl (fun (st : Nat × List Byte × List Nat × List Batch) (x : Sequence × Nat) =>
        (st.1 + x.2, st.2.1 ++ entry (slotOf x.1) x.2 x.1.pos (chunkOffset + 4 * st.1),
          st.2.2.1 ++ ((seqTokens x.1).drop x.1.pos).take x.2,
          st.2.2.2 ++ [(⟨x.1.contract, x.1.stream, x.2, x.1.pos, dec.length + st.1⟩ : Batch)])) (0, [], [], [])
      let space := match w.c.fabric.regions.get? m.a.logits with
        | some r => r.space * 2 ^ 44 + r.base
        | none => 0
      let head := leBytes 4 m.iter ++ leBytes 2 dec.length ++ leBytes 2 plan.length ++ leBytes 4 pre.1 ++ leBytes 4 0
        ++ leBytes 8 (w.c.selfModule * 2 ^ 48 + space) ++ zeros 40
      let w := { w with b := w.b.write (hubBase + m.a.batchAddr) (head ++ decB ++ pre.2.1) }
      let w := if pre.1 = 0 then w else { w with b := w.b.write (hubBase + chunkOffset) (pre.2.2.1.flatMap (leBytes 4)) }
      w.on fun c =>
        let c := c.updModel fun m => { m with
          iter := Ctl.add32 m.iter 1
          waiting := true
          stored := false
          batch := decL ++ pre.2.2.2
          startTick := c.tick }
        m.progs.keys.foldl (fun c t => c.addToken t 15 1) c

/-- A KV_APPEND of n tokens at a position, from a row of the staging area (R257, R471). -/
def appendCmd (a : ModelArgs) (p : Pool) (slot tile pos n row : Nat) : List Byte :=
  leBytes 1 7 ++ leBytes 1 2 ++ leBytes 2 0 ++ leBytes 1 tile ++ leBytes 1 14 ++ leBytes 2 0 ++ leBytes 4 n ++ zeros 4
    ++ leBytes 8 (poolStage a p + row * a.kvBytes) ++ leBytes 8 (poolTable a p slot) ++ leBytes 8 p.base
    ++ leBytes 8 (pos + (a.kvBytes / 64 - 1) * 2 ^ 32) ++ leBytes 8 p.pages ++ zeros 8

/-- The KV_APPEND commands of an entry: one for each page it writes, on the page's stack. -/
def entryAppends (m : Model) (q : Sequence) (slot n row : Nat) : List (Nat × List Byte) :=
  (List.range ((q.pos + n - 1) / 64 - q.pos / 64 + 1)).filterMap fun i =>
    let g := q.pos / 64 + i
    let lo := max q.pos (64 * g)
    let hi := min (q.pos + n) (64 * g + 64)
    match q.pages[g]? with
    | some (st, _) => (m.pools.get? st).map fun p => (st, appendCmd m.a p slot ((m.progs.keys.head?).getD 0) lo (hi - lo) (row + (lo - q.pos)))
    | none => none

/-- Enqueue the KV_APPEND commands that find a place in their queues, each stack's in order. -/
def Ctl.pumpAppends (c : Ctl) : Ctl :=
  match c.serve.model with
  | none => c
  | some m =>
    let r := m.appends.foldl (fun (st : Ctl × List (Nat × List Byte) × List Nat) (x : Nat × List Byte) =>
      let q := ((m.pools.get? x.1).map (·.queue)).getD 32
      let room := (st.1.palQueue x.1 q).any (fun y => decide (Ctl.slotsUsed y < 64)) && st.1.easelReaches 2 (x.1 * 2 ^ 37)
      if st.2.2.contains x.1 || !room then (st.1, st.2.1 ++ [x], x.1 :: st.2.2)
      else ((st.1.palAccept x.1 q x.2).2, st.2.1, st.2.2)) (c, [], [])
    r.1.updModel fun m => { m with appends := r.2.1 }

/-- Row e of the logits as binary32 codes, read by the sampler; none where the row cannot be read. -/
def W.logitsRow (m : Model) (e : Nat) (w : W) : Option (List Nat) × W :=
  match w.c.fabric.regions.get? m.a.logits with
  | none => (none, w)
  | some r =>
    let n := if m.a.logitFmt = 0 then 4 else 2
    let off := r.base + e * m.a.vocab * n
    if !w.c.easelReaches r.space off then (none, w)
    else
      let x := w.readRange r.space off (m.a.vocab * n) 0
      (if x.1.2 != 0 then none
       else some ((List.range m.a.vocab).map fun i => fieldAt x.1.1 (n * i) n * (if n = 4 then 1 else 65536)), x.2)

/-- Sample the next token of a sequence, stream it, and end the sequence where the token ends it (R485, R490). Row none is a
sampler fault. -/
def W.sampleSeq (m : Model) (k n e : Nat) (w : W) : Bool × W :=
  match w.c.seq? k n with
  | none => (true, w)
  | some q =>
    let x := w.logitsRow m e
    match x.1.bind (sampleRow q.r q.rng) with
    | none => (false, x.2)
    | some (t, rng) =>
      (true, x.2.on fun c =>
        let out := q.out ++ [t]
        let ctx := ((c.contract? k).map (·.a.ctxLimit)).getD 0
        let ending := if q.r.maxNew ≤ out.length then some 0 else if q.r.stops.contains t then some 1
          else if ctx ≤ q.prompt.length + out.length then some 2 else none
        let c := c.updSeq k n fun q => { q with out, rng, ending, inDecode := true }
        let c := if q.from_.isNone then c.countTime k n true else c
        c.deliverSeq k n)

/-- Whether a stack that the engine is to read or to command trains, or a link on the way to one retrains: what is to follow on the end
of an iteration waits for it (log 78). -/
def Ctl.serveHeld (c : Ctl) : Bool :=
  c.serve.model.any fun m =>
    let logits := match c.fabric.regions.get? m.a.logits with
      | some r => if r.space = 2 then [stackOf r.base] else []
      | none => []
    (m.pools.keys ++ logits).any fun st =>
      c.stateOf (7 + st) = 1 || ((c.easelWay (st / 2)).isSome && !c.wayUp (c.easelWay (st / 2)))

/-- The end of an iteration: the appends are enqueued, each entry's positions are written, and the sequences in decode and
those whose prefill is finished sample, in the order of the entries. -/
def W.finishIteration (w : W) : W :=
  match w.c.serve.model with
  | none => w
  | some m =>
    let w := w.on (Ctl.updModel fun m => { m with waiting := false, stored := false, batch := [], lastTime := w.c.tick - m.startTick })
    let r := m.batch.zipIdx.foldl (fun (st : W × Bool) (x : Batch × Nat) =>
      let b := x.1
      if st.2 then st
      else
        match st.1.c.seq? b.contract b.stream with
        | none => st
        | some q =>
          match q.slot with
          | none => st
          | some slot =>
            if q.pos != b.position then st
            else
              let n := max 1 b.chunk
              let w := st.1.on fun c =>
                (c.updModel fun y => { y with appends := y.appends ++ entryAppends m q slot n b.row }).updSeq b.contract b.stream
                  fun q => { q with pos := q.pos + n }
              if q.ending.isSome || (b.chunk != 0 && q.pos + n < q.target) then (w, false)
              else
                let y := w.sampleSeq m b.contract b.stream x.2
                (y.2, !y.1)) (w, false)
    if r.2 then r.1.on Ctl.serveFault else r.1.on Ctl.pumpAppends

/-- Carry on with the closing of contracts (R502): between iterations their resident sequences end and their stretches
close; with the final record queued the contract is gone. -/
def Ctl.closeContracts (c : Ctl) : Ctl :=
  (c.serve.contracts.filter fun x => x.2.closing).foldl (fun c (x : Nat × Contract) =>
    let c := (c.endWhere (fun q => q.contract = x.1) 6).closeStretch x.1 2
    if c.heldBack x.1 then c
    else
      let c := c.onServe fun s => { s with contracts := Tab.del x.1 s.contracts, parts := s.parts.filter (·.contract != x.1) }
      ((c.event 0x0605 (encodeEv [.n 4 x.1]) (Ctl.serveTo x.2.job)).finishOne (.contract x.1) 0 []).newMaxResident) c

/-! The moves of SERVE_POOL_SHRINK (R488). -/

/-- Full live pages of a stack at or above its limit: sequence's slot, place in its page table, page. -/
def Ctl.pagesAbove (c : Ctl) (st limit : Nat) (full : Bool) : List (Nat × Nat × Nat) :=
  c.residents.flatMap fun q => (q.pages.zipIdx.filter fun x =>
    x.1.1 = st && decide (limit ≤ x.1.2) && (!full || decide (64 * (x.2 + 1) ≤ q.pos))).map fun x => (q.slot.getD 0, x.2, x.1.2)

/-- Start the moves of a stack that has none under way: the move list and one KV_COMPACT. -/
def W.movePump (st : Nat) (w : W) : W :=
  match w.c.serve.model with
  | none => w
  | some m =>
    match m.pools.get? st with
    | none => w
    | some p =>
      let room := (w.c.palQueue st p.queue).any (fun y => decide (Ctl.slotsUsed y < 64)) && w.c.easelReaches 2 (st * 2 ^ 37)
      let free := (List.range p.limit).filter fun g => !p.used.contains g
      let l := ((w.c.pagesAbove st p.limit true).take 1024).zip free
      if !room || l.isEmpty || w.c.serve.moving.any (·.1 = st) then w
      else
        let list := l.flatMap fun x => leBytes 4 x.1.2.2 ++ leBytes 4 x.2 ++ leBytes 8 (poolTable m.a p x.1.1 + 4 * x.1.2.1)
        let cmd := leBytes 1 8 ++ zeros 7 ++ leBytes 4 l.length ++ zeros 4 ++ leBytes 8 (poolMoves m.a p) ++ zeros 8 ++ leBytes 8 p.base
          ++ leBytes 8 ((m.a.kvBytes / 64 - 1) * 2 ^ 32) ++ leBytes 8 p.pages ++ zeros 8
        let w := w.stackStore st (poolMoves m.a p) list 0
        w.on fun c =>
          let c := (c.palAccept st p.queue cmd).2
          let c := c.updModel fun m => { m with
            pools := Tab.upd st p (fun p => { p with used := p.used ++ l.map (·.2) }) m.pools }
          c.onServe fun s => { s with moving := s.moving ++ (l.map fun x => (st, x.1.2.2, x.2)) }

/-- SERVE_POOL_SHRINK returns once no live page lies above a limit. -/
def Ctl.poolShrunk (c : Ctl) : Ctl :=
  match c.serve.model with
  | none => c.finishOne .pool 0 []
  | some m =>
    if m.pools.any fun x => !(c.pagesAbove x.1 x.2.limit false).isEmpty then c else c.finishOne .pool 0 []

def W.movePumpAll (w : W) : W :=
  ((List.range 8).foldl (fun (w : W) st => w.movePump st) w).on Ctl.poolShrunk

/-- The moves of a stack's KV_COMPACT have ended: a page whose table entry was replaced has moved, another is tried again. -/
def W.movesDone (st : Nat) (w : W) : W :=
  match w.c.serve.model with
  | none => w
  | some m =>
    match m.pools.get? st with
    | none => w
    | some p =>
      let mine := w.c.serve.moving.filter (·.1 = st)
      let w := w.on (Ctl.onServe fun s => { s with moving := s.moving.filter (·.1 != st) })
      let w := mine.foldl (fun (w : W) (x : Nat × Nat × Nat) =>
        let free := fun (g : Nat) (c : Ctl) => c.updModel fun m => { m with
          pools := Tab.upd st p (fun p => { p with used := p.used.filter (· != g) }) m.pools }
        match w.c.residents.find? fun q => q.pages.contains (st, x.2.1) with
        | none => w.on (free x.2.2)
        | some q =>
          let i := q.pages.findIdx (· = (st, x.2.1))
          let slot := q.slot.getD 0
          if ofLE (w.b.mem.readBytes (stackKey st (poolTable m.a p slot + 4 * i)) 4) = x.2.2 then
            ({ w with b := w.b.write (hubBase + tableOffset slot + 4 * i) (leBytes 4 x.2.2) }.on (free x.2.1)).on fun c =>
              c.updSeq q.contract q.stream fun q => { q with pages := q.pages.set i (st, x.2.2) }
          else w.on (free x.2.2)) w
      w.movePumpAll

/-- Let the engine go on: deliver, finish the iteration whose number has been stored, close, admit, and issue the next
iteration without delay (R483). -/
def W.serveKick (w : W) : W :=
  if !w.c.serving then w
  else
    let w := w.on Ctl.deliverAll
    let w := if w.c.serve.model.any (·.stored) then w.finishIteration else w
    let w := w.movePumpAll
    let busy := w.c.serve.model.any (·.waiting)
    let w := (if busy then w else w.on Ctl.closeContracts).admitAll 1024
    if busy || w.c.serve.model.isNone then w else w.issue

/-! What other units cause. -/

/-- After an RC restart: every open stretch is recorded, then every resident sequence ends (R501). -/
def Ctl.serveRestart (c : Ctl) : Ctl :=
  let c := c.serve.contracts.keys.foldl (fun (c : Ctl) id => c.closeStretch id 4) c
  let c := c.endWhere (·.slot.isSome) 5
  let c := c.updModel fun m => { m with waiting := false, stored := false, batch := [], appends := [] }
  c.onServe fun s => { s with
    contracts := Tab.mapVals (fun _ k => { k with win := { k.win with cause := k.win.cause ||| 2 } }) s.contracts }

/-- Reactions of the engine to a change of the module: its step and functions enter the open windows (Table 16-9), the
Tally entry lets records leave, a model tile that faults ends the resident sequences (R489). -/
def W.serveReact (old : Ctl) (w : W) : W :=
  let c := w.c
  let c := if c.power.step != old.power.step || c.ready != old.ready then c.noteCauses else c
  let c := if c.rc.run = 3 && c.stateOf 15 = 2 && old.stateOf 15 != 2 then c.sendRecords else c
  let hit := c.rc.run = 3 && !c.locked && !c.alarms.gesso && (c.serve.model.any fun m => m.progs.keys.any fun t =>
    (c.tile t).st = .faulted && (old.tile t).st != .faulted)
  let c := if hit then c.serveFault else c
  if hit || c.ready != old.ready then W.serveKick { w with c := c } else { w with c := c }

end Sys2Proof.Machine
end

