-- ==== Sys2Proof/Machine/React.lean ====
section
/-! DEFINITION. What follows at once from a change that another unit makes: the shape of a collective, frogs, rollback
and the abort triggers (chapter 15), the serving engine, the readiness of the engines (Table 19-4), and the run of a meaning over the
state. -/

namespace Sys2Proof

/-- Table 15-1 and Table 15-2. -/
def CollArgs.reduces (a : CollArgs) : Bool := a.op = 1 || a.op = 2
def CollArgs.direct (a : CollArgs) : Bool := a.algorithm = 1

/-- Buffers of a collective on this module (R440). -/
def CollArgs.buffers (a : CollArgs) : List Nat :=
  [a.bufIn, a.out0, a.out1] ++ a.work0.toList ++ a.work1.toList ++ a.carry0.toList ++ a.carry1.toList

end Sys2Proof

namespace Sys2Proof.Machine

open Sys2Proof

/-- Key of a fabric address on this module, for the spaces that hold memory. -/
def memKey (addr : Nat) : Nat := bits addr 47 44 * 2 ^ 44 + bits addr 43 0

/-! The shape of a collective (R432, R433). -/

def collDims (t : RouteTable) (mask : Nat) : List CDim :=
  ((List.range t.lens.length).filter fun d => bit mask d).map fun d => ⟨d, t.len d, t.me d, t.ring d⟩

/-- Members along the dimensions before the i-th. -/
def strideOf (ds : List CDim) (i : Nat) : Nat := (ds.take i).foldl (fun n d => n * d.len) 1

/-- C. -/
def collSize (ds : List CDim) : Nat := strideOf ds ds.length

/-- Coordinate in the i-th masked dimension of member index r. -/
def digitOf (ds : List CDim) (i r : Nat) : Nat := r / strideOf ds i % ((ds[i]?.map (·.len)).getD 1)

/-- This module's member index. -/
def selfIndex (ds : List CDim) : Nat := (List.range ds.length).foldl (fun r i => r + ((ds[i]?.map (·.me)).getD 0) * strideOf ds i) 0

/-- The member of this member's line in the i-th masked dimension at coordinate j. -/
def peerIndex (ds : List CDim) (i j : Nat) : Nat := selfIndex ds - ((ds[i]?.map (·.me)).getD 0) * strideOf ds i + j * strideOf ds i

/-- The module at a coordinate of a routing table. -/
def moduleAt (t : RouteTable) (x : List Nat) : Nat :=
  t.members.getD ((List.range t.lens.length).foldl (fun (st : Nat × Nat) d => (st.1 + x.getD d 0 * st.2, st.2 * t.len d)) (0, 1)).1 0xFFFF

/-- Modules of the members in the order of their indices. -/
def collMembers (t : RouteTable) (ds : List CDim) : List Nat :=
  (List.range (collSize ds)).map fun r =>
    moduleAt t ((List.range t.lens.length).map fun d =>
      match ds.findIdx? (·.dim = d) with
      | some i => digitOf ds i r
      | none => t.me d)

/-- The collective neighbours: module, dimension and direction (R433). -/
def nbrDirs (t : RouteTable) (mask : Nat) : List (Nat × Nat × Nat) :=
  (collDims t mask).flatMap fun d =>
    if d.len < 2 then []
    else
      let go : Nat → Nat → Nat × Nat × Nat := fun dir x =>
        (moduleAt t ((List.range t.lens.length).map fun e => if e = d.dim then x else t.me e), d.dim, dir)
      (if d.ring || d.me + 1 < d.len then [go 0 ((d.me + 1) % d.len)] else [])
        ++ (if d.ring || 0 < d.me then [go 1 ((d.me + d.len - 1) % d.len)] else [])

/-- Blocks: the vector of n elements in C parts (R432); part p. -/
def blockLo (n c p : Nat) : Nat := p * n / c
def blockLen (n c p : Nat) : Nat := blockLo n c (p + 1) - blockLo n c p

/-- Blocks of chunk j of the slice in the i-th masked dimension: those whose coordinates before i are this member's own
and whose i-th is j. -/
def chunkOf (ds : List CDim) (i j : Nat) : List Nat :=
  (List.range (collSize ds)).filter fun p =>
    ((List.range i).all fun e => digitOf ds e p = ((ds[e]?.map (·.me)).getD 0)) && digitOf ds i p = j

/-- The member's reduced chunk that a CARRY buffer holds: its chunk in the first masked dimension with more than one
member (R440). -/
def carryBlocks (ds : List CDim) : List Nat :=
  match ds.findIdx? fun d => decide (1 < d.len) with
  | some i => chunkOf ds i ((ds[i]?.map (·.me)).getD 0)
  | none => List.range (collSize ds)

def blocksLen (n c : Nat) (l : List Nat) : Nat := l.foldl (fun s p => s + blockLen n c p) 0

namespace Ctl

def updColl (id : Nat) (f : Coll → Coll) (c : Ctl) : Ctl :=
  c.onColls fun x => { x with colls := x.colls.map fun y => if y.1 = id then (y.1, f y.2) else y }

def updPipe (id : Nat) (f : Pipe → Pipe) (c : Ctl) : Ctl :=
  c.onColls fun x => { x with pipes := x.pipes.map fun y => if y.1 = id then (y.1, f y.2) else y }

/-- The engine cancels transactions: their tags linger (R453), and their packets stay unacknowledged. -/
def cancelTxns (f : Txn → Bool) (c : Ctl) : Ctl :=
  (c.fabric.txns.filter fun x => f x.2).foldl (fun c x => c.retire x.1 false) c

/-! Frogs (R449, R451, R452). -/

/-- Count a frog sending for its object. -/
def countFrog (pipe : Bool) (id : Nat) (c : Ctl) : Ctl :=
  if pipe then c.updPipe id fun x => { x with cnt := { x.cnt with frogs := inc32 x.cnt.frogs } }
  else c.updColl id fun x => { x with cnt := { x.cnt with frogs := inc32 x.cnt.frogs } }

/-- Send a frog on every port of the masks toward its neighbour (R451), armed for 20 µs (R452). -/
def frogCopy (tag : Nat) (c : Ctl) : Ctl :=
  match c.fabric.txns.get? tag with
  | some t =>
    match t.who with
    | .frog pipe id nbr =>
      let p := if t.copies = 0 then t.pkt else { t.pkt with flags := t.pkt.flags ||| 2 }
      let dirs : List (RouteTable × Nat × Nat) := match c.router.tables.get? p.job with
        | some r => if pipe then [] else ((nbrDirs r 7).filter fun (x : Nat × Nat × Nat) => x.1 = nbr).map fun (x : Nat × Nat × Nat) => (r, x.2)
        | none => []
      let ports := dirs.flatMap fun (x : RouteTable × Nat × Nat) =>
        ((bitList (x.1.mask x.2.1 x.2.2) 32).filter c.portUp).map fun q => (q, x.1.nextVc none { p with vc := 6 } x.2.1 x.2.2)
      let c := (c.onFabric fun f => { f with
        txns := Tab.set tag { t with
          copies := t.copies + 1
          sent := t.sent + max 1 ports.length
          nakWait := false
          sentAt := c.tick
          due := c.tick + 20000 } f.txns }).countFrog pipe id
      if ports.isEmpty then c.inject p
      else ports.foldl (fun c (x : Nat × Nat) => c.sendOn x.1 32 { p with vc := x.2, hopLimit := 191, src := c.selfModule }) c
    | _ => c
  | none => c

/-- Give a frog its tag and number and send it; none while no tag is free, or its flow has no window slot (R279). -/
def frogOpen (pipe : Bool) (id : Nat) (p : Pkt) (c : Ctl) : Option Ctl :=
  let k := flowKey p.dest p.type
  let fl := c.fabric.flows.getD k {}
  if 512 ≤ fl.unacked then none
  else
    (c.free32 (.frog pipe id p.dest)).map fun tag =>
      let t : Txn := { who := .frog pipe id p.dest, pkt := { p with tag, src := c.selfModule, flowSeq := fl.next } }
      (c.onFabric fun f => { f with
        flows := Tab.set k { fl with next := (fl.next + 1) % 2 ^ 32, unacked := fl.unacked + 1 } f.flows
        txns := Tab.set tag t f.txns }).frogCopy tag

/-- A FROG packet (Table 15-4). -/
def frogPkt (c : Ctl) (pipe all : Bool) (id job gen attempt cause origin nbr : Nat) : Pkt :=
  { type := 0x30, flags := 0, dest := nbr, src := c.selfModule, flowSeq := 0, gen, job, tag := 0, vc := 6, hopLimit := 192
    mcDim := 0, mcPlus := 0, mcMinus := 0, key := 0
    typeArg := id + b2n pipe * 64 + b2n all * 128 + cause % 256 * 256 + attempt % 256 * 65536
    payload := leBytes 2 origin ++ List.replicate 6 0, crcOk := true, rsvdZero := true }

/-- Recipients of a multicast (R394): the other members of this member's line. -/
def mcastWant (c : Ctl) (p : Pkt) : List Nat :=
  if !p.mcast then []
  else
    match c.router.tables.get? p.job with
    | none => []
    | some t =>
      let ds := collDims t (2 ^ p.mcDim)
      (collMembers t ds).filter (· != c.selfModule)

/-- Send the packets of a collective that wait for a tag. -/
def pumpColl : Nat → Nat → Ctl → Ctl
  | 0, _, c => c
  | f + 1, id, c =>
    match c.colls.colls.get? id with
    | none => c
    | some k =>
      match k.outq with
      | [] => c
      | p :: rest =>
        let r := if p.type = 0x30 then c.frogOpen false id p
          else (c.request (if p.type = 2 then .record else .coll id p.gen (bits p.typeArg 23 16)) p (c.mcastWant p)).map (·.2)
        match r with
        | some c => pumpColl f id (c.updColl id fun k => { k with outq := rest })
        | none => c

def pumpPipe : Nat → Nat → Ctl → Ctl
  | 0, _, c => c
  | f + 1, id, c =>
    match c.colls.pipes.get? id with
    | none => c
    | some k =>
      match k.outq with
      | [] => c
      | p :: rest =>
        let r := if p.type = 0x30 then c.frogOpen true id p
          else (c.request (if p.type = 2 then .record else .pipe id (bits p.typeArg 11 6)) p []).map (·.2)
        match r with
        | some c => pumpPipe f id (c.updPipe id fun k => { k with outq := rest })
        | none => c

def sendColl (id : Nat) (ps : List Pkt) (c : Ctl) : Ctl :=
  let c := c.updColl id fun k => { k with outq := k.outq ++ ps }
  c.pumpColl (((c.colls.colls.get? id).map (·.outq.length)).getD 0) id

def sendPipe (id : Nat) (ps : List Pkt) (c : Ctl) : Ctl :=
  let c := c.updPipe id fun k => { k with outq := k.outq ++ ps }
  c.pumpPipe (((c.colls.pipes.get? id).map (·.outq.length)).getD 0) id

/-! Records (R466, Table 15-9). -/

def collRecordBytes (id kind status live phase gen attempt cause micro late carried dropped tick : Nat) : List Byte :=
  leBytes 1 id ++ leBytes 1 kind ++ leBytes 1 status ++ leBytes 1 (live + 2 * phase) ++ leBytes 4 gen ++ leBytes 1 attempt
    ++ leBytes 1 cause ++ leBytes 2 micro ++ leBytes 4 late ++ leBytes 4 carried ++ leBytes 4 dropped ++ leBytes 8 tick

/-- The write of record n of a ring of 64. -/
def ringWrite (ring : Option (Nat × Nat)) (job n : Nat) (rec_ : List Byte) : List Pkt :=
  match ring with
  | some (a, k) => [reqPkt 2 job (a + 32 * (n % 64)) k 0 rec_]
  | none => []

def collRecord (id kind status cause : Nat) (c : Ctl) : Ctl :=
  match c.colls.colls.get? id with
  | none => c
  | some k =>
    let live := if kind = 0 && k.a.commitMode = 0 then k.gen % 2 else 0
    let b := collRecordBytes id kind status live ((k.records / 64 + 1) % 2) k.gen (k.attempt % 256) cause 0 k.genLate k.genCarried
      k.genDropped c.tick
    (c.updColl id fun k => { k with records := k.records + 1 }).sendColl id (ringWrite k.a.ring k.a.job k.records b)

def pipeRecord (id kind status cause gen micro : Nat) (c : Ctl) : Ctl :=
  match c.colls.pipes.get? id with
  | none => c
  | some k =>
    let b := collRecordBytes id kind status 0 ((k.records / 64 + 1) % 2) gen (if gen = k.gen then k.attempt % 256 else 0) cause micro 0 0 0 c.tick
    (c.updPipe id fun k => { k with records := k.records + 1 }).sendPipe id (ringWrite k.a.ring k.a.job k.records b)

/-- COLL_FROGGED and its kin go to the TENANT sessions of the job and to FABRIC_ADMIN (R469). -/
def toJob (job : Nat) : To := { fabric := true, tenant := [job] }

/-- Answer the aborts whose objects have rolled back or committed (Table 15-10). -/
def collWaits (c : Ctl) : Ctl :=
  let busy := fun (k : Coll) => (k.st = .running || k.st = .voting) && !k.committing
  c.finish fun x =>
    match x with
    | .coll id => if (c.colls.colls.get? id).any busy then none else some (0, [])
    | .collJob job => if c.colls.colls.vals.any (fun (k : Coll) => k.a.job = job && busy k) then none else some (0, [])
    | _ => none

/-! Rollback (R452, R460). -/

/-- Roll a channel back: micro-batches of its generation are discarded and its sends stop. -/
def pipeRollback (id cause : Nat) (c : Ctl) : Ctl :=
  match c.colls.pipes.get? id with
  | none => c
  | some k =>
    let g := k.gen
    let keep := fun (l : List (Nat × Nat)) => l.filter (·.1 != g)
    let c := c.cancelTxns fun t => (match t.who with
      | .pipe n _ => n = id
      | _ => false) && t.pkt.gen = g
    (c.updPipe id fun k => { k with
      stopped := true
      busy := keep k.busy
      waiting := keep k.waiting
      sending := keep k.sending
      sent := keep k.sent
      parts := k.parts.filter (·.gen != g)
      full := keep k.full
      outq := k.outq.filter fun p => p.type = 2 || p.type = 0x30 || p.gen != g }).pipeRecord id 3 1 cause g 0

end Ctl

/-- Roll a collective back: its generation's work is discarded and it is ABORTED (R452). -/
def W.collRollback (id : Nat) (w : W) : W :=
  match w.c.colls.colls.get? id with
  | none => w
  | some k =>
    let w := match if k.gen % 2 = 0 then k.a.carry1 else k.a.carry0 with
      | some a => w.zeroAt a (8 * blocksLen k.a.count (collSize k.dims) (carryBlocks k.dims))
      | none => w
    w.on fun c =>
      let c := c.cancelTxns fun t => match t.who with
        | .coll n _ _ => n = id
        | _ => false
      let c := c.updColl id fun k => { k with
        st := .aborted
        begun := false
        parts := []
        early := []
        outq := k.outq.filter fun p => p.type = 2 || p.type = 0x30
        stepDue := none
        hold := none
        grace := none
        owed := k.owed.filter fun x => x.1 != k.gen }
      let c := c.collRecord id 3 1 k.cause.1
      let c := (c.colls.pipes.filter fun (x : Nat × Pipe) => x.2.a.job = k.a.job && x.2.a.anchor = id && !x.2.stopped).foldl
        (fun (c : Ctl) (x : Nat × Pipe) => c.pipeRollback x.1 k.cause.1) c
      (c.event 0x0512 (encode [.n 1 id, .n 4 k.gen, .n 1 (k.attempt % 256), .n 1 k.cause.1, .n 2 k.cause.2]) (Ctl.toJob k.a.job)).collWaits

/-- An abort trigger of Table 15-5 at a collective: it frogs, and it rolls back at once unless it is VOTING (R451). -/
def W.collTrigger (id cause origin : Nat) (all : Bool) (w : W) : W :=
  match w.c.colls.colls.get? id with
  | none => w
  | some k =>
    if k.st = .aborted || k.st = .failed || k.frogged || k.committing then w
    else
      let w := w.on (Ctl.updColl id fun k => { k with frogged := true, cause := (cause, origin) })
      let w := if k.st = .voting then w.on (Ctl.updColl id fun k => { k with grace := some (w.c.tick + 1000000) })
        else w.collRollback id
      w.on fun c =>
        let nbrs : List (Nat × Nat × Nat) := (match c.router.tables.get? k.a.job with
          | some t => nbrDirs t k.a.dimMask
          | none => [])
        c.sendColl id ((nbrs.map (·.1)).eraseDups.map fun n => c.frogPkt false all id k.a.job k.gen k.attempt cause origin n)

/-- An abort trigger at a pipeline channel: it frogs its peer and rolls back. -/
def Ctl.pipeTrigger (id cause origin : Nat) (all : Bool) (c : Ctl) : Ctl :=
  match c.colls.pipes.get? id with
  | none => c
  | some k =>
    if k.stopped then c
    else
      let c := c.pipeRollback id cause
      c.sendPipe id [c.frogPkt true all id k.a.job k.gen k.attempt cause origin k.a.peer]

/-- A trigger at the collectives and channels that satisfy a condition. -/
def W.triggerWhere (cause origin : Nat) (all : Bool) (pc : Coll → Bool) (pp : Pipe → Bool) (w : W) : W :=
  let w1 := (w.c.colls.colls.filter fun (x : Nat × Coll) => pc x.2).foldl
    (fun (w : W) (x : Nat × Coll) => w.collTrigger x.1 cause origin all) w
  (w.c.colls.pipes.filter fun (x : Nat × Pipe) => pp x.2).foldl (fun (w : W) (x : Nat × Pipe) => w.on (Ctl.pipeTrigger x.1 cause origin all)) w1

/-! Reactions. -/

/-- Whether an address lies on one of the stacks. -/
def onStacks (l : List Nat) (a : Nat) : Bool := bits a 47 44 = 2 && l.contains (stackOf (bits a 43 0))

/-- The directions of a job that are lost: newly reported broken, or a port of the mask newly FAILED with no other
usable (Table 15-5). -/
def lostDirs (old c : Ctl) : List (Nat × Nat × Nat) :=
  let fresh := c.router.broken.filter fun b => !old.router.broken.contains b
  let ports := (List.range 32).filter fun p => c.stateOf (20 + p) = 4 && old.stateOf (20 + p) != 4
  fresh ++ if ports.isEmpty then []
    else c.router.tables.flatMap fun (x : Nat × RouteTable) =>
      (List.range x.2.lens.length).flatMap fun d => ([0, 1].filter fun dir =>
        (ports.any fun p => bit (x.2.mask d dir) p) && !c.usableDir x.2 d dir).map fun dir => (x.1, d, dir)

/-- Whether a channel sends or receives through a direction. -/
def Ctl.pipeUses (c : Ctl) (k : Pipe) (d dir : Nat) : Bool :=
  match c.router.tables.get? k.a.job with
  | some t => (t.coord k.a.peer).any fun x => (List.range t.lens.length).any fun e =>
      e = d && x.getD d 0 != t.me d && (t.hop ((List.range t.lens.length).map fun e => if e = d then x.getD d 0 else t.me e)).any fun h => h.2 = dir
  | none => false

/-- The abort triggers that other units raise (Table 15-5): a stack that posts FAILED, a port or route lost. -/
def W.collReact : Nat → Ctl → W → W
  | 0, _, w => w
  | f + 1, old, w =>
    let sts := (List.range 8).filter fun st => w.c.stateOf (7 + st) = 4 && old.stateOf (7 + st) != 4
    let dirs := lostDirs old w.c
    if sts.isEmpty && dirs.isEmpty then w
    else
      let now := w.c
      let w := if sts.isEmpty then w
        else w.triggerWhere 1 now.selfModule false (fun k => k.a.buffers.any (onStacks sts)) fun k => onStacks sts k.a.buffer
      let w := dirs.foldl (fun (w : W) (x : Nat × Nat × Nat) =>
        w.triggerWhere 2 now.selfModule false (fun k => k.a.job = x.1 && bit k.a.dimMask x.2.1)
          fun k => k.a.job = x.1 && now.pipeUses k x.2.1 x.2.2) w
      collReact f now w

namespace Ctl

/-- Whether a collective uses a port. -/
def collPort (c : Ctl) (p : Nat) : Bool :=
  c.colls.colls.vals.any fun (k : Coll) =>
    match c.router.tables.get? k.a.job with
    | some t => (List.range t.lens.length).any fun d => bit k.a.dimMask d && (bit (t.mask d 0) p || bit (t.mask d 1) p)
    | none => false

/-- The entry that a serving engine with the RC ready shows (Table 19-4). -/
def serveEntry (c : Ctl) : Nat × Nat :=
  if !(([3, 4, 5, 6].any c.usable) && ([7, 8, 9, 10, 11, 12, 13, 14].any c.usable)) then (1, 4)
  else
    match c.modelEntries.find? fun i => c.stateOf i = 3 with
    | some i => (3, (c.shown i).2)
    | none => (2, 0)

/-- The entry of a collective engine with the RC ready. -/
def collEntry (c : Ctl) : Nat × Nat :=
  match (List.range 32).find? fun p => c.stateOf (20 + p) = 3 && c.collPort p with
  | some p => (3, (c.shown (20 + p)).2)
  | none => (2, 0)

/-- Post the collective and serving engines by what they depend on, once they have started (Table 19-4). -/
def engineEntries (c : Ctl) : Ctl :=
  let e := c.entry 17
  let x := c.collEntry
  let c := if (e.st = 2 || e.st = 3) && (e.st, e.reason) != x then c.post 17 x.1 x.2 else c
  let e := c.entry 19
  let x := c.serveEntry
  if (e.st = 1 || e.st = 2 || e.st = 3) && (e.st, e.reason) != x then c.post 19 x.1 x.2 else c

/-- Answer the commands that wait for an entry's new state (R572) or for the rails: every Canvas and every stack has posted
(Table 20-5, log 24). -/
def entryWaits (c : Ctl) : Ctl :=
  let up := ([3, 4, 5, 6, 7, 8, 9, 10, 11, 12, 13, 14].all fun i => (c.entry i).st != 0 && (c.entry i).st != 1)
  c.finish fun x =>
    match x with
    | .entry i => if (c.entry i).restarting then none else some (0, encode [.n 1 (c.stateOf i)])
    | .rails => if up then some (0, []) else none
    | _ => none

/-- Whether nothing has changed that a reaction depends on. -/
def calm (old c : Ctl) : Bool :=
  c.ready = old.ready && c.router.broken = old.router.broken && c.colls.colls.keys = old.colls.colls.keys
    && c.serve.model.isSome = old.serve.model.isSome && c.power.step = old.power.step
    && (c.serve.model.isNone || c.tiles = old.tiles)

end Ctl

/-- What follows from the changes since a state of the module. -/
def W.react (old : Ctl) (w : W) : W :=
  if old.calm w.c then w else ((w.collReact 64 old).on fun c => c.engineEntries.entryWaits).serveReact old

/-- The module as a meaning finds it. -/
def State.world (s : State) : W := { c := s.ctl, b := { mem := s.mem }, ty := s.tally }

/-- The module after a meaning and what follows from it. Memory changes by the meaning's list of operations, each of
which keeps the canonical form; the Tally and the queue do not change. -/
def State.land (s : State) (w : W) : State :=
  let w := w.react s.ctl
  { s with ctl := w.c, mem := s.mem.run w.b.ops }

/-- Run a meaning over the module. -/
def State.act (s : State) (f : W → W) : State := s.land (f s.world)

end Sys2Proof.Machine
end

