-- ==== Sys2Proof/Machine/Mbx.lean ====
section
/-! DEFINITION. The mailbox: when a command starts, the order of its checks, its response (R512 to R528). -/

namespace Sys2Proof.Machine

/-- What the catalogue says of a command: opcode, the session roles of its Role column (0 OWNER, 1 TENANT,
2 FABRIC_ADMIN, 3 VERIFIER), whether NEGOTIATED is enough, and whether it is accepted at A2 (R604) and after
gesso (R608). -/
structure Cmd where
  op : Nat
  roles : List Nat := [0, 1, 2, 3]
  any : Bool := false
  lock : Bool := false
  gesso : Bool := false
  deriving DecidableEq, Repr

/-- The session a command runs in; role 4 where it has none. -/
structure Ctx where
  n : Nat
  role : Nat
  sid : Nat
  cred : Nat
  jobs : List Nat
  deriving DecidableEq, Repr

/-- Whether the session may act on an object of that job (R522). -/
def Ctx.owns (x : Ctx) (job : Nat) : Bool := x.role != 1 || x.jobs.contains job

/-- What the checks and the effect of a command's own chapter answer: a refusal with STATUS and DETAIL; a refusal that leaves a trace
(a failed open, a signature failure); results;
results and what follows once the response is written, in the controller or in the whole module; or a wait. -/
inductive Res where
  | fail (status detail : Nat)
  | failWith (status detail : Nat) (w : W)
  | ok (body : List Byte) (w : W)
  | okThen (body : List Byte) (w : W) (after : Ctl → Ctl)
  | okAfter (body : List Byte) (w : W) (after : W → W)
  | wait (what : WaitFor) (w : W)

namespace Ctl

def ctxOf (c : Ctl) (n : Nat) : Ctx :=
  match (c.pair n).session with
  | some s => ⟨n, s.role, s.id, s.cred, s.jobs⟩
  | none => ⟨n, 4, 0, 0, []⟩

/-- Units of one message on a pair (R513, R540). -/
def unitLimit (c : Ctl) (n : Nat) : Nat :=
  match (c.pair n).remote with
  | some r => if (c.ethPort r.port).cfg.jumbo = 1 then 64 else 22
  | none => 64

/-- The RC takes the command now: it runs, the command is the pair's next and lies whole in the ring (or has
come on the remote mailbox), and no limit of R525 or R527 holds it. -/
def mbxReady (h : Hdr) (c : Ctl) : Bool :=
  let p := c.pair h.pair
  (c.rc.run = 3 || c.rc.run = 5) && p.st != .unbound && decide (p.held.length < 64) && decide (p.started < 64)
    && decide (c.rc.waits.length < 1024)
    && (match p.remote with
        | some r => r.ready.contains h.seq && h.seq = p.expSeq
        | none => decide (1 ≤ h.units) && decide (h.units ≤ diff32 p.cmdPi p.cmdCi))

/-- The RC takes the message out of the ring. -/
def consume (k : Cmd) (h : Hdr) (c : Ctl) : Ctl :=
  c.updPair h.pair fun p => { p with
    cmdCi := add32 p.cmdCi (if p.remote.isSome then 0 else h.units)
    expSeq := if k.op = 0x0100 then (if h.seq = 0 then 1 else p.expSeq)
      else if h.seq = p.expSeq then add32 p.expSeq 1 else p.expSeq
    remote := p.remote.map fun r => { r with ready := r.ready.filter (· != h.seq) } }

/-- Bytes that inline blocks reach to. -/
def inlineEnd (refs : List Ref) : Nat := refs.foldl (fun m r => if r.kind = 0 then max m (r.addr + r.len) else m) 0

/-- The first failed check of R523, items 1 to 7: STATUS and DETAIL. -/
def refusal (k : Cmd) (h : Hdr) (args : List Arg) (refs : List Ref) (c : Ctl) : Option (Nat × Nat) :=
  let p := c.pair h.pair
  if h.units != unitsOf (max (argEnd args) (inlineEnd refs)) || decide (c.unitLimit h.pair < h.units) then some (0x0104, 0)
  else if (if k.op = 0x0100 then h.seq != 0 else h.seq != p.expSeq) then some (0x0106, 0)
  else if p.st = .bound && k.op != 0x0100 then some (0x0201, 0)
  else if c.alarms.gesso && !k.gesso then some (0x0407, 0)
  else if p.session.isNone && !k.any && !(c.alarms.gesso && k.gesso) then
    some (if p.ended then 0x0401 else 0x0202, 0)
  else if c.locked && !k.lock then some (0x0407, 0)
  else if !k.any && !(c.alarms.gesso && k.gesso) && !(p.session.any fun s => k.roles.contains s.role) then some (0x0403, 0)
  else argFail args h.rsvdAt

def answer (k : Cmd) (h : Hdr) (status detail : Nat) (body : List Byte) (c : Ctl) : Ctl :=
  c.respond h.pair k.op h.seq h.corr status detail body

end Ctl

/-- One mailbox command (R523 to R528): nothing until it can start; else it is taken, checked, and refused
with its status or carried out. -/
def mbx (k : Cmd) (h : Hdr) (args : List Arg) (refs : List Ref) (f : Ctx → W → Res) (w : W) : W :=
  if w.c.mbxReady h then
    let w1 := w.on (Ctl.consume k h)
    match w.c.refusal k h args refs with
    | some (st, d) => w1.on (Ctl.answer k h st d [])
    | none =>
      match f (w.c.ctxOf h.pair) w1 with
      | .fail st d => w1.on (Ctl.answer k h st d [])
      | .failWith st d w2 => w2.on (Ctl.answer k h st d [])
      | .ok body w2 => w2.on (Ctl.answer k h 0 0 body)
      | .okThen body w2 g => (w2.on (Ctl.answer k h 0 0 body)).on g
      | .okAfter body w2 g => g (w2.on (Ctl.answer k h 0 0 body))
      | .wait what w2 => w2.on fun c =>
          (c.updPair h.pair fun p => { p with started := p.started + 1 }).onRc fun r =>
            { r with waits := r.waits ++ [⟨some h.pair, k.op, h.seq, h.corr, what⟩] }
  else w

/-- A header names one of the 256 pairs. -/
def hdrOk (h : Hdr) : Bool := h.pair < 256

/-- The meaning of a mailbox row. -/
def mbxRow (k : Cmd) (h : Hdr) (args : List Arg) (refs : List Ref) (s : State) (f : Ctx → W → Res) :
    Host.Outcome State Fault Refusal :=
  ret (hdrOk h) (s.act (mbx k h args refs f))

/-- Byte offset of argument i. -/
def offOf (args : List Arg) (i : Nat) : Nat := ((argOffsets args)[i]?.map (·.1)).getD 0

/-- Refuse with FIELD_RANGE at argument i. -/
def badArg (args : List Arg) (i : Nat) : Res := .fail 0x0102 (offOf args i)

/-- Entries of a result list that fit in a message after n bytes of other results. -/
def fitting (n : Nat) (l : List (List Byte)) : List (List Byte) :=
  (l.foldl (fun (st : Nat × List (List Byte)) e =>
    let m := st.1 + roundUp e.length 8
    if m ≤ 4032 then (m, st.2 ++ [e]) else (5000, st.2)) (n, [])).2

/-- A list argument of n entries of 2 bytes (R514 item 7): inline up to 4 entries, else one reference. -/
def listArgs (n : Nat) (ok : Bool) : List Arg :=
  if 4 < n then [Arg.ref true]
  else if n = 0 then [Arg.num 2 true] else [Arg.num 2 true, Arg.blk (8 * (n - 1) + 2) ok]

/-! References (Table 17-8). -/

/-- The references of a command whose operands do not say where its blocks lie (log 7): inline behind its arguments where UNITS_M1
counts them there, else in host memory or a region. -/
def inlineBlocks (h : Hdr) (args : List Arg) (lens : List Nat) : List Ref :=
  if h.units = unitsOf (argEnd args) then []
  else (lens.foldl (fun (st : Nat × List Ref) n =>
    (roundUp st.1 8 + n, st.2 ++ [⟨0, 0, roundUp st.1 8, n, [], true⟩])) (argEnd args, [])).2

/-- The block of a list of n entries of 2 bytes, where it is one (R514 item 7). -/
def listBlocks (n : Nat) : List Nat := if 4 < n then [8 * n + 2] else []

/-- Whether the RC can read a block: inline always; host memory on a PCIe pair; a fabric address on this module under
its key (R411). -/
def refOk (s : State) (h : Hdr) (r : Ref) : Bool :=
  match r.kind with
  | 0 => decide (1 ≤ r.len)
  | 1 => (s.ctl.pair h.pair).remote.isNone && r.readable && decide (1 ≤ r.len)
  | 2 =>
    decide (1 ≤ r.len) && bits r.addr 63 48 = s.ctl.selfModule &&
      (match s.ctl.fabric.regions.find? fun x => !x.2.zeroing && x.2.space = bits r.addr 47 44 && x.2.base ≤ bits r.addr 43 0
          && bits r.addr 43 0 < x.2.base + x.2.len with
        | some (_, g) => g.key = r.key && bit g.perm 0 && decide (bits r.addr 43 0 + r.len ≤ g.base + g.len)
            && ((s.ctl.ctxOf h.pair).owns g.job || g.opn = 1) && !s.mem.anyPoison (memKey r.addr) r.len
        | none => false)
  | _ => false

/-- The bytes of a block. -/
def refBlock (s : State) (r : Ref) : List Byte := if r.kind = 2 then s.mem.readBytes (memKey r.addr) r.len else bytesAt r.block 0 r.len

def refArg (s : State) (h : Hdr) (r : Ref) : Arg := Arg.ref (refOk s h r)

/-- Refuse a job for a command that creates an object of it or sets a value of it (R533, R430). -/
def jobCheck (c : Ctl) (x : Ctx) (job detail : Nat) : Option (Nat × Nat) :=
  if !c.jobLive job then some (0x0102, detail)
  else if !x.owns job then some (0x0404, 0)
  else if c.jobEnding job then some (0x0206, 0)
  else none

end Sys2Proof.Machine
end

