-- ==== Sys2Proof/Machine/Alarm.lean ====
section
/-! DEFINITION. The alarm element's record of an alarm (R601, R602). What levels A2 and A3 do to the module follows in
Security. -/

namespace Sys2Proof.Machine

namespace Ctl

/-- The module level: the highest standing; A1 within the last 24 h, A2 until it is cleared, A3 for good (R602, R605,
Table 21-3). -/
def alarmLevel (c : Ctl) : Nat :=
  if c.alarms.gesso then 3
  else c.alarms.standing.vals.foldl max
    (if c.alarms.a2 then 2 else if c.alarms.lastA1.any fun t => c.tick < t + 86400000000000 then 1 else 0)

/-- An alarm of a source at a level (R602): its record, ALARM in both functions, the event, and the source stands where it
has a clearing condition (Table 21-4). -/
def alarm (src level detail : Nat) (c : Ctl) : Ctl :=
  let c := c.onAlarms fun a => { a with
    standing := if [3, 6, 7, 9, 10].contains src then Tab.upd src 0 (max level) a.standing else a.standing
    a2 := a.a2 || level = 2
    log := lastN 256 (a.log ++ [⟨a.seq, src, level, detail, c.tick, c.rc.epoch⟩])
    seq := a.seq + 1
    lastA1 := if level = 1 then some c.tick else a.lastA1 }
  (c.intBoth 2).event 0x0801 (encodeEv [.n 1 level, .n 1 src]) { owner := true, fabric := true, verifier := true }

/-- A source no longer stands. -/
def clearAlarm (src : Nat) : Ctl → Ctl := onAlarms fun a => { a with standing := Tab.del src a.standing }

end Ctl

end Sys2Proof.Machine
end

