-- ==== Sys2Proof/Machine/Home.lean ====
section
/-! DEFINITION. The rows of the home and of the regions, replica maps and the router's own step (chapters 13 and
14). -/

namespace Sys2Proof.Machine

open Sys2Proof

/-- Operands of a packet are within their fields (Table 13-2). -/
def pktOk (p : Pkt) : Bool :=
  p.type < 256 && p.flags < 256 && p.dest < 65536 && p.src < 65536 && decide (p.flowSeq < 2 ^ 32)
    && decide (p.gen < 2 ^ 32) && p.job < 65536 && p.tag < 65536 && p.vc < 8 && p.hopLimit < 256 && p.mcDim < 4
    && p.mcPlus < 64 && p.mcMinus < 64 && decide (p.key < 2 ^ 24) && decide (p.typeArg < 2 ^ 32)

/-- The done line of the loaded model, in hub SRAM (R471). -/
def Ctl.doneLine (c : Ctl) : Option Nat := c.serve.model.map fun m => bits m.a.batchAddr 43 0 + 32768

/-- Whether a WRITE names plain memory only. -/
def Ctl.plainWrite (c : Ctl) (p : Pkt) : Bool :=
  c.useOf p = .plain && p.space != 3 && !(p.space = 1 && c.doneLine = some (p.offset / 64 * 64))

/-- READ (R415): applied at the home and answered with READ_RESP. Symbols of the stack that have gone wrong come with it (R211). -/
def execFabricRead (p : Pkt) (flips : List Flip) (s : State) : Host.Outcome State Fault Refusal :=
  ret (pktOk p && flipsOk flips) (s.act fun w =>
    (w.strike (stackOf p.offset) flips).atHome 1 p fun _ => W.applyRead p)

/-- WRITE (R416): applied line by line and acknowledged. The rows of windows, start lines, release lines and the done
line take the writes to those. -/
def execFabricWrite (p : Pkt) (s : State) : Host.Outcome State Fault Refusal :=
  ret (pktOk p) (s.act fun w => if w.c.plainWrite p then w.atHome 2 p fun _ => W.applyWrite p else w)

/-- ATOMIC (R413, R416): one read-modify-write, answered with the old value. -/
def execFabricAtomic (p : Pkt) (s : State) : Host.Outcome State Fault Refusal :=
  ret (pktOk p) (s.act (W.atHome 3 p fun _ => W.applyAtomic p))

/-- SYNC_READ (R427). -/
def execSyncRead (p : Pkt) (flips : List Flip) (s : State) : Host.Outcome State Fault Refusal :=
  ret (pktOk p && flipsOk flips) (s.act fun w =>
    (w.strike (stackOf p.offset) flips).atHome 4 p fun es => W.applySyncRead p es)

/-- SYNC_ADD (R427): every fresh entry's addend in one read-modify-write. -/
def execSyncAdd (p : Pkt) (s : State) : Host.Outcome State Fault Refusal :=
  ret (pktOk p) (s.act (W.atHome 5 p fun es => W.applySyncAdd p es))

/-- FLOW_RECORD_EVICT (R420): with no record free, the record idle longest goes once it has been idle for 1 s. -/
def execFlowRecordEvict (src cls : Nat) (s : State) : Host.Outcome State Fault Refusal :=
  ret (src < 65536 && cls < 4) (s.act (W.on fun c =>
    let k := 4 * src + cls
    match c.fabric.recs.get? k with
    | some r =>
      if 16384 ≤ c.fabric.recs.length && r.last + 1000000000 ≤ c.tick && c.fabric.recs.vals.all (r.last ≤ ·.last) then
        c.onFabric fun f => { f with recs := Tab.del k f.recs }
      else c
    | none => c))

/-- Whether a packet would find the home's ingress full (R418). -/
def Ctl.ingressFull (c : Ctl) (p : Pkt) : Bool :=
  Ctl.isRequest p && decide (2048 ≤ c.ingressUsed)

/-- Take the packet that waits first on its VC of an input port, and give its slots back (R275, R386). -/
def Ctl.takeInput (q : Nat) (p : Pkt) (c : Ctl) : Ctl :=
  c.updPort q fun x =>
    match x.inq.find? (·.1 = p) with
    | none => x
    | some y => { x with inq := x.inq.erase y, rx := x.rx.free p.vc y.2 }

/-- PACKET_ROUTE (R387 to R396): the router takes the packet first on its VC of an input port, or one of the module's
own units, and routes, multicasts, merges or drops it. A memory request that finds the ingress full waits, with all
behind it, and so does a multicast whose next hop cannot take it (R395). -/
def execPacketRoute (src : Option Nat) (p : Pkt) (s : State) : Host.Outcome State Fault Refusal :=
  ret (pktOk p && (src.map fun q => decide (q < 32)).getD true) (s.act (W.on fun c =>
    match src with
    | none => if p.src = c.selfModule then c.inject p else c
    | some q =>
      if ((c.port q).inq.find? fun x => x.1.vc = p.vc).map (·.1) != some p then c
      else if c.routeOf (some q) p = .here && c.ingressFull p then c
      else if c.copyWaits (some q) p then c
      else (c.takeInput q p).route (some q) p))

/-! Regions (R410 to R412, R423). -/

/-- A 24-bit key that no live region has, from the random source (R410). -/
def Ctl.newKey (c : Ctl) : Nat × Ctl :=
  let d := c.draw
  let r := d.1.toNat % (2 ^ 24 - 1)
  let used := c.fabric.regions.vals.map (·.key)
  ((((List.range 4097).map fun i => (r + i) % (2 ^ 24 - 1) + 1).find? fun k => !used.contains k).getD 1, d.2)

/-- Enter a region, under an identity of its own; its number and key, or none while all 4,096 are held. -/
def Ctl.addRegion (r : Region) (c : Ctl) : Option (Nat × Nat × Ctl) :=
  (c.fabric.regions.firstFree 0 4096).map fun n =>
    let k := c.newKey
    (n, k.1, k.2.onFabric fun f => { f with
      regions := Tab.set n { r with key := k.1, id := f.regionSeq } f.regions, regionSeq := f.regionSeq + 1 })

/-- The range rules of R410 for spaces 0x1 and 0x2. -/
def rangeOk (a : RegionArgs) : Bool :=
  if a.space = 1 then decide (a.base + a.len ≤ 0xA000000)
  else a.space = 2 && stackMapped a.base && stackMapped (a.base + a.len - 1) && stackOf a.base = stackOf (a.base + a.len - 1)
    && decide (a.base + a.len ≤ 2 ^ 40)

def overlaps (space base len : Nat) (r : Region) : Bool :=
  r.space = space && decide (base < r.base + r.len) && decide (r.base < base + len)

/-- Carry out REGION_CREATE where no zeroing stands in its way: status and results. -/
def Ctl.makeRegion (a : RegionArgs) (c : Ctl) : (Nat × List Byte) × Ctl :=
  if c.fabric.regions.vals.any (overlaps a.space a.base a.len) then ((0x0107, []), c)
  else
    match c.addRegion { space := a.space, base := a.base, len := a.len, job := a.job, perm := a.perm, opn := a.opn, repl := a.repl, key := 0 } with
    | none => ((0x0301, []), c)
    | some (n, k, c) => ((0, encode [.n 2 n, .n 4 k]), c)

/-- REGION_CREATE (R410, R412): it waits for memory that is still being zeroed. -/
def execRegionCreate (h : Hdr) (a : RegionArgs) (s : State) : Host.Outcome State Fault Refusal :=
  let args := [Arg.num 1 (a.space = 1 || a.space = 2), Arg.num 8 (a.base % 64 = 0 && decide (a.base < 2 ^ 44)),
    Arg.num 8 (a.len % 64 = 0 && 64 ≤ a.len && decide (a.len ≤ 2 ^ 40)), Arg.num 2 (1 ≤ a.job && a.job < 65536),
    Arg.num 1 (decide (a.perm < 8)), Arg.num 1 (decide (a.opn < 2)), Arg.num 1 (decide (a.repl < 2))]
  mbxRow { op := 0x0260, roles := [0, 1] } h args [] s fun x w =>
    match jobCheck w.c x a.job (offOf args 3) with
    | some (st, d) => .fail st d
    | none =>
      if !rangeOk a then badArg args 1
      else
        let hit := w.c.fabric.regions.vals.filter (overlaps a.space a.base a.len)
        if hit.any (!·.zeroing) then .fail 0x0107 (offOf args 1)
        else if !hit.isEmpty then .wait (.regionMake a) w
        else
          let r := w.c.makeRegion a
          if r.1.1 = 0 then .ok r.1.2 { w with c := r.2 } else .fail r.1.1 0

/-- Look a region up for a command: NO_REGION where the number holds none, NOT_OWNED for another's (R412, R522). -/
def regionFor (c : Ctl) (x : Ctx) (n : Nat) : Except Nat Region :=
  match c.fabric.regions.get? n with
  | none => .error 0x0503
  | some r => if x.owns r.job then .ok r else .error 0x0404

def regionArg (n : Nat) : Arg := Arg.num 2 (decide (n < 4096))

/-- Refuse every request to a region from now on, and begin to zero it once the admitted ones are applied (R412). -/
def Ctl.dropRegion (n : Nat) (c : Ctl) : Ctl :=
  c.onFabric fun f => { f with regions := f.regions.map fun x => if x.1 = n then (x.1, { x.2 with zeroing := true }) else x }

/-- REGION_DESTROY (R412). -/
def execRegionDestroy (h : Hdr) (n : Nat) (s : State) : Host.Outcome State Fault Refusal :=
  mbxRow { op := 0x0261, roles := [0, 1] } h [regionArg n] [] s fun x w =>
    match regionFor w.c x n with
    | .error e => .fail e 0
    | .ok r =>
      if r.zeroing then .fail 0x0204 0
      else
        let w := w.on (Ctl.dropRegion n)
        if w.c.regionBusy r then .wait (.region n) w else .ok [] w

/-- REGION_FLAGS_SET (R423). -/
def execRegionFlagsSet (h : Hdr) (n opn repl : Nat) (s : State) : Host.Outcome State Fault Refusal :=
  mbxRow { op := 0x0262, roles := [0, 1] } h [regionArg n, Arg.num 1 (decide (opn < 2)), Arg.num 1 (decide (repl < 2))] [] s
    fun x w =>
    match regionFor w.c x n with
    | .error e => .fail e 0
    | .ok r =>
      if r.zeroing then .fail 0x0204 0
      else
        .ok (encode [.n 1 opn, .n 1 repl])
          (w.on (Ctl.onFabric fun f => { f with regions := Tab.set n { r with opn, repl } f.regions }))

/-- REGION_STATUS (R412): the fields without KEY, KEY_MISMATCH, zeroing in progress. -/
def execRegionStatus (h : Hdr) (n : Nat) (s : State) : Host.Outcome State Fault Refusal :=
  mbxRow { op := 0x0263, roles := [0, 1], lock := true } h [regionArg n] [] s fun x w =>
    match regionFor w.c x n with
    | .error e => .fail e 0
    | .ok r =>
      .ok (encode [.n 2 n, .n 1 r.space, .n 8 r.base, .n 8 r.len, .n 2 r.job, .n 1 r.perm, .n 1 r.opn, .n 1 r.repl,
        .n 4 r.mismatch, .n 1 (b2n r.zeroing)]) w

/-- Create the regions that waited for memory to be zeroed. -/
def Ctl.retryRegions (c : Ctl) : Ctl :=
  c.rc.waits.foldl (fun c x =>
    match x.what with
    | .regionMake a =>
      if c.fabric.regions.vals.any fun r => r.zeroing && overlaps a.space a.base a.len r then c
      else
        let r := if c.jobEnding a.job then ((0x0206, []), c) else c.makeRegion a
        r.2.finishOne x.what r.1.1 r.1.2
    | _ => c) c

/-- The number of a region is free, and what was granted under it has gone. -/
def Ctl.freeRegion (n : Nat) (c : Ctl) : Ctl :=
  ({ (c.onFabric fun f => { f with regions := Tab.del n f.regions }) with
    guest := { c.guest with grants := Tab.del n c.guest.grants } }).retryRegions

/-- REGION_ZEROING_COMPLETE (R412): the memory is zeros, and the number is free. A stack in write stop takes no
zeros. -/
def execRegionZeroingComplete (n : Nat) (s : State) : Host.Outcome State Fault Refusal :=
  ret (n < 4096) (s.act fun w =>
    match w.c.fabric.regions.get? n with
    | some r =>
      if !r.zeroing || w.c.regionBusy r || (r.space = 2 && (w.c.stack (stackOf r.base)).band = 4) then w
      else
        let w := if r.space = 3 then w else { w with b := w.b.op (.zero (r.space * 2 ^ 44 + r.base) r.len) }
        w.on (Ctl.freeRegion n)
    | none => w)

/-! Replica maps, timeouts, status (R421, R424, R431). -/

def replicaRangeOk (r : ReplicaRange) : Bool :=
  r.home < 65536 && (r.space = 1 || r.space = 2) && decide (r.base + r.len ≤ 2 ^ 44) && 1 ≤ r.len && r.replicas.length ≤ 15
    && r.replicas.all fun x => x.module < 65536 && decide (x.base < 2 ^ 44) && decide (x.key < 2 ^ 24)

def rangesApart : List ReplicaRange → Bool
  | [] => true
  | r :: t => (t.all fun x => !(x.home = r.home && x.space = r.space && decide (x.base < r.base + r.len)
      && decide (r.base < x.base + x.len))) && rangesApart t

/-- A map as a result (R514): a list of its ranges, where it fits in a message (log 7). -/
def replicaBody (ranges : List ReplicaRange) : List Byte :=
  let b := encode [.list (ranges.map fun r => encodeAt 0 [.n 2 r.home, .n 1 r.space, .n 8 r.base, .n 8 r.len,
    .inl (r.replicas.map fun x => encodeAt 0 [.n 2 x.module, .n 8 x.base, .n 4 x.key])])]
  if b.length ≤ 4064 then b else []

/-- REPLICA_MAP_SET (R424, R425). Ranges that overlap contradict one another. -/
def execReplicaMapSet (h : Hdr) (job : Nat) (block : Ref) (ranges : List ReplicaRange) (s : State) :
    Host.Outcome State Fault Refusal :=
  let args := [Arg.num 2 (1 ≤ job && job < 65536), refArg s h block]
  mbxRow { op := 0x0264, roles := [0, 1] } h args [block] s fun x w =>
    match jobCheck w.c x job 16 with
    | some (st, d) => .fail st d
    | none =>
      if 64 < ranges.length || !ranges.all replicaRangeOk then badArg args 1
      else if !rangesApart ranges then .fail 0x0107 (offOf args 1)
      else .ok (replicaBody ranges) (w.on (Ctl.onFabric fun f => { f with maps := Tab.set job ranges f.maps }))

/-- REPLICA_MAP_CLEAR (R431). -/
def execReplicaMapClear (h : Hdr) (job : Nat) (s : State) : Host.Outcome State Fault Refusal :=
  mbxRow { op := 0x0265, roles := [0, 1] } h [Arg.num 2 (1 ≤ job && job < 65536)] [] s fun x w =>
    if !w.c.jobLive job then .fail 0x0102 16
    else if !x.owns job then .fail 0x0404 0
    else .ok [] (w.on (Ctl.onFabric fun f => { f with maps := Tab.del job f.maps }))

/-- FABRIC_TIMEOUT_SET (R421): 2 µs to 10 ms. -/
def execFabricTimeoutSet (h : Hdr) (job timeout : Nat) (s : State) : Host.Outcome State Fault Refusal :=
  mbxRow { op := 0x0266, roles := [0, 1] } h
    [Arg.num 2 (1 ≤ job && job < 65536), Arg.num 8 (2000 ≤ timeout && timeout ≤ 10000000)] [] s fun x w =>
    match jobCheck w.c x job 16 with
    | some (st, d) => .fail st d
    | none =>
      .ok (encode [.n 8 timeout]) (w.on fun c => { c with jobs := c.jobs.map fun j => if j.1 = job then (j.1, { j.2 with timeout }) else j })

/-- The sixteen largest KEY_MISMATCH counts by source module. -/
def topSources (t : Tab Nat) : List (Nat × Nat) := (t.insertionSort fun a b => b.2 ≤ a.2).take 16

/-- FABRIC_STATUS (R431, Table 14-8). -/
def execFabricStatus (h : Hdr) (s : State) : Host.Outcome State Fault Refusal :=
  mbxRow { op := 0x0267, roles := [0, 2], lock := true } h [] [] s fun _ w =>
    let f := w.c.fabric
    .ok (encode [.n 2 w.c.ingressUsed,
      .n 8 (f.fullTicks + (match f.fullFrom with
        | some t => w.c.tick - t
        | none => 0)),
      .n 2 f.recs.length, .n 4 f.duplicates, .n 4 f.combined, .n 4 f.fallback, .n 4 f.targetDead,
      .list ((topSources f.mismatchSrc).map fun x => encodeAt 0 [.n 2 x.1, .n 4 x.2])]) w

/-- SYS_STAGE_WRITE (R648): a fabric WRITE by the RC into a region of this module. It is taken while the RC has a tag
free. -/
def execSysStageWrite (h : Hdr) (region key offset : Nat) (data : List Byte) (s : State) :
    Host.Outcome State Fault Refusal :=
  if (s.ctl.free32 (.rc 0)).isNone then ret (hdrOk h) s
  else
    let n := data.length
    let args := [regionArg region, Arg.num 4 (decide (key < 2 ^ 24)), Arg.num 8 (decide (offset < 2 ^ 44))]
      ++ [if 256 < n then Arg.ref (decide (n ≤ 1024)) else ⟨2 + n, 2, if n = 0 then sFieldRange else 0⟩]
    let refs := inlineBlocks h args (if 256 < n then [n] else [])
    mbxRow { op := 0x0107, roles := [0, 1, 2] } h args refs s fun x w =>
      match w.c.fabric.regions.get? region with
      | none => .fail 0x0503 0
      | some r =>
        let job := if x.role = 0 || (x.role = 1 && x.jobs.contains r.job) then r.job else 0
        let addr := w.c.selfModule * 2 ^ 48 + r.space * 2 ^ 44 + (r.base + offset) % 2 ^ 44
        match w.c.request (.rc 0) (Ctl.reqPkt 2 job addr key 0 data) [] with
        | some (tag, c) => .wait (.stage tag) { w with c }
        | none => .fail 0x0301 0

end Sys2Proof.Machine
end

