-- ==== Sys2Proof/Machine/Links.lean ====
section
/-! DEFINITION. The sender and the receiver of a link, the die-to-die links, and the guest site with its firewall
(chapters 9 and 10). -/

namespace Sys2Proof.Machine

open Sys2Proof

/-! The sender of a link direction. -/

/-- ACK_SEQ covers the unacknowledged flits up to it (R301, R379); where the timeout had expired, the acknowledgement is late
(R73, R74). -/
def LinkTx.ack (seq tick : Nat) (t : LinkTx) : LinkTx :=
  match t.unacked.findIdx? (·.1 = seq) with
  | some i => { t with
      unacked := t.unacked.drop (i + 1), run := 0, lastAdv := tick, overdue := false
      late := if t.overdue then inc32 t.late else t.late }
  | none => t

/-- CR_TOTAL of a channel: credits come back by its difference from the last total applied (R299). -/
def LinkTx.credit (vc total : Nat) (t : LinkTx) : LinkTx :=
  let d := (total + 65536 - t.crSeen.getD vc 0) % 65536
  { t with used := Tab.upd vc 0 (· - d) t.used, crSeen := Tab.set vc (total % 65536) t.crSeen }

/-- A replay from the oldest unacknowledged flit (R301, R379). -/
def LinkTx.replay (tick : Nat) (t : LinkTx) : LinkTx :=
  if t.unacked.isEmpty then t else { t with run := t.run + 1, replays := inc32 t.replays, lastAdv := tick }

/-- The acknowledgement timeout is won by its expiry (R73, R74). -/
def LinkTx.expire (tick : Nat) (t : LinkTx) : LinkTx :=
  { t with timeouts := inc32 t.timeouts, overdue := true, expired := some tick }

/-- Step 7 of Table 9-3: full credits; the flits up to the one that READY_MARK names are acknowledged. -/
def LinkTx.restore (lseq tick : Nat) (t : LinkTx) : LinkTx :=
  { t.ack lseq tick with used := [], txTotal := [], crSeen := [], run := 0 }

/-- The flits that are sent again after it take their credits. -/
def LinkTx.retake (t : LinkTx) : LinkTx :=
  { t with
    used := t.unacked.foldl (fun u f => Tab.upd f.2.1 0 (· + 1) u) t.used
    txTotal := t.unacked.foldl (fun u f => Tab.upd f.2.1 0 (· + 1) u) t.txTotal }

/-- Put a flit of a VC on a link: it takes a credit and a number (R276, R299). -/
def LinkTx.put (vc tick : Nat) (t : LinkTx) : LinkTx :=
  { t with
    unacked := t.unacked ++ [(t.next, vc, none)], next := (t.next + 1) % 65536, used := Tab.upd vc 0 (· + 1) t.used
    lastAdv := if t.unacked.isEmpty then tick else t.lastAdv }

/-- Whether a flit of a VC can go: a credit, and room in the replay buffer (R276, R301). -/
def LinkTx.open (vc bv cap : Nat) (t : LinkTx) : Bool := decide (t.used.getD vc 0 < bv) && decide (t.unacked.length < cap)

/-- Put the waiting link-control flits of a VC on a link while there are credits for them. -/
def LinkTx.pumpCtl (vc bv cap tick : Nat) : Nat → LinkTx → LinkTx
  | 0, t => t
  | n + 1, t => if t.ctl != 0 && t.open vc bv cap then LinkTx.pumpCtl vc bv cap tick n { t.put vc tick with ctl := t.ctl - 1 } else t

/-- A link-control flit of a VC for a link. -/
def LinkTx.control (vc bv cap tick : Nat) (t : LinkTx) : LinkTx :=
  LinkTx.pumpCtl vc bv cap tick (t.ctl + 1) { t with ctl := t.ctl + 1 }

/-! Die-to-die links (Table 10-1). -/

/-- Data lanes, groups, darning lanes and clock lane pairs of a direction. -/
def d2dShape (l : Nat) : Nat × Nat × Nat × Nat :=
  if l < 4 then (768, 12, 24, 3) else if l < 8 then (1024, 16, 32, 4) else if l < 16 then (256, 4, 8, 1) else (32, 1, 1, 1)

def d2dLanes (l : Nat) : Nat := (d2dShape l).1
def d2dGroups (l : Nat) : Nat := (d2dShape l).2.1
def d2dDarns (l : Nat) : Nat := (d2dShape l).2.2.1
def d2dClks (l : Nat) : Nat := (d2dShape l).2.2.2

/-- Slots of a VC of a die-to-die link (Table 9-2). -/
def d2dB : Nat := 128

def groupOf (lane : Nat) : Nat := lane / 64

def D2dLink.dir (x : D2dLink) (d : Nat) : D2dDir := if d = 0 then x.dir0 else x.dir1
def D2dLink.setDir (d : Nat) (y : D2dDir) (x : D2dLink) : D2dLink := if d = 0 then { x with dir0 := y } else { x with dir1 := y }
def D2dLink.updDir (d : Nat) (f : D2dDir → D2dDir) (x : D2dLink) : D2dLink := x.setDir d (f (x.dir d))

/-- Clock pairs with lane loss m of a direction. -/
def clkLost (y : D2dDir) (m : Nat) : Nat := (y.clk.filter (·.2 = m)).length

def d2dDead (l : Nat) (x : D2dLink) : Bool :=
  [x.dir0, x.dir1].any fun y => y.clk.vals.contains 3 || decide (d2dGroups l ≤ y.retired.length)

/-- The state of a link that is up (R307). -/
def d2dUp (l : Nat) (x : D2dLink) : Nat :=
  if d2dDead l x then 4
  else if [x.dir0, x.dir1].any fun y => !y.retired.isEmpty || y.clk.vals.any (· != 0) then 3 else 2

namespace Ctl

/-! What the links' states do to readiness (Table 10-4). -/

/-- DEGRADED by a link: reason 0x0B where only clock lanes are lost. -/
def linkReason (x : D2dLink) : Nat := if x.st != 4 && x.dir0.retired.isEmpty && x.dir1.retired.isEmpty then 0x0B else 0x09

/-- What a link counts as while it retrains: the state of its groups and clocks (R568). -/
def linkLevel (c : Ctl) (l : Nat) : Nat := if (c.link l).st = 1 && (c.link l).retrain then d2dUp l (c.link l) else (c.link l).st

/-- The state and reason that its three links give a Canvas that is up. -/
def canvasTarget (c : Ctl) (k : Nat) : Nat × Nat :=
  if c.noClock k then (4, 0x0E)
  else
    match [k, 4 + k, 4 + (k + 3) % 4].find? fun l => c.linkLevel l = 3 || c.linkLevel l = 4 with
    | some l => (3, linkReason (c.link l))
    | none => (2, 0)

/-- Post what its links give a Canvas in use. -/
def settleCanvas (k : Nat) (c : Ctl) : Ctl :=
  let e := c.entry (3 + k)
  if e.st = 2 || e.st = 3 then
    let t := c.canvasTarget k
    c.post (3 + k) t.1 t.2
  else c

/-! The quads of a port and the fibre pairs that carry them (R366). -/

def fibre (c : Ctl) (f dir : Nat) : FibreDir := if dir = 0 then (c.oport f).tx else (c.oport f).rx

/-- The fibre pairs that carry quads of a port. -/
def portFibres (c : Ctl) (p : Nat) : List Nat := (List.range 32).filter fun f => (List.range 4).any fun q => (c.oport p).place.getD q p = f

/-- The ports that have a quad on a fibre pair (R366). -/
def portsOn (c : Ctl) (f : Nat) : List Nat :=
  (List.range 32).filter fun p => (List.range 4).any fun q => (c.oport p).place.getD q p = f

/-- The port whose quad lies on quad slot q of a fibre pair. -/
def portOfQuad (c : Ctl) (f q : Nat) : Option Nat := (List.range 32).find? fun p => (c.oport p).place.getD q p = f

/-- The lowest-numbered free spare of a direction: not in use, not retired, a margin of 1.5 dB at the last test
(R357). -/
def freeSlot (d : FibreDir) : Option Nat :=
  [16, 17].find? fun w => (d.grid.getD w {}).st = 0 && 6 ≤ (d.grid.getD w {}).margin

/-- CAL_SUSPENDED: no spare is free, and none is lent to a calibration (R358). -/
def calPaused (d : FibreDir) : Bool := (freeSlot d).isNone && !d.copy.any (·.cal)

/-- WARN_WAITING: a changeover waits or runs on a fibre pair of a port (R360). -/
def warnWaiting (c : Ctl) (p : Nat) : Bool := (c.portFibres p).any fun f => !(c.fibre f 0).warn.isEmpty

/-- The grid slots whose light belongs to a port: those of its quads, and the spares of the fibre pairs that carry them. -/
def litSlots (c : Ctl) (p : Nat) : Nat :=
  ((c.portFibres p).map fun f => ((List.range 18).filter fun w =>
    ((c.fibre f 1).grid.getD w {}).lit && (decide (16 ≤ w) || (c.oport p).place.getD (w / 4) p = f)).length).sum

/-- Grid slots that carry data slots of port p in a direction: the data slots in service (R351, R366). -/
def portWidth (c : Ctl) (p dir : Nat) : Nat :=
  let o := c.oport p
  ((List.range 4).map fun q =>
    let f := o.place.getD q p
    if 32 ≤ f then 0
    else
      let y := c.oport f
      let d := if dir = 0 then y.tx else y.rx
      ((List.range 4).filter fun i => Tab.has d.map (4 * q + i)).length).foldl (· + ·) 0

/-- Data slots of the quads of a port that are not parked. -/
def placedSlots (c : Ctl) (p : Nat) : Nat := 4 * ((List.range 4).filter fun q => (c.oport p).place.getD q p < 32).length

def quadParked (c : Ctl) (p : Nat) : Bool := (c.oport p).place.vals.any (32 ≤ ·)

/-- A direction of a port has fewer than 4 data slots in service (R352, R363). -/
def portNarrow (c : Ctl) (p : Nat) : Bool := c.portWidth p 0 < 4 || c.portWidth p 1 < 4

/-- The state and reason of a port's entry (R308, R352, R363, R370, R398, Table 13-8); FAILED comes before TRAINING (R563). -/
def portTarget (c : Ctl) (p : Nat) : Nat × Nat :=
  let x := c.port p
  let o := c.oport p
  let sk := c.link (8 + p / 4)
  if !bit c.power.rails 5 then (0, 1)
  else if sk.st = 4 then (4, 0x0E)
  else if x.dead != 0 then (4, x.dead)
  else if o.swatch then (1, 5)
  else if (x.retrain || x.outcome = 1) && c.portNarrow p then (4, 0x0E)
  else if x.retrain then (1, 6)
  else
    match x.outcome with
    | 2 => (4, 0x10)
    | 3 => (4, 0x0F)
    | 4 => (0, 2)
    | 5 => (4, 0x11)
    | 6 => (0, 2)
    | 1 =>
      let t := c.portWidth p 0
      let r := c.portWidth p 1
      if t < c.placedSlots p || r < c.placedSlots p then (3, 9)
      else if c.quadParked p then (3, 0x0C)
      else if c.linkLevel (8 + p / 4) = 3 then (3, linkReason sk)
      else (2, 0)
    | _ => if c.router.plan.isNone then (1, 7) else (1, 5)

end Ctl

/-- The status bytes of a port (Table 12-6). -/
def optMap (c : Ctl) (p dir : Nat) : List Byte :=
  (List.range 16).flatMap fun j =>
    let f := (c.oport p).place.getD (j / 4) p
    if 32 ≤ f then leBytes 1 0xFE
    else leBytes 1 ((if dir = 0 then (c.oport f).tx else (c.oport f).rx).map.getD j 0xFF)

/-- A placement in the coding of QUAD_PLACE: 0 to 3 a fibre pair of the port's skein, 4 to 7 of the paired skein. -/
def placeCode (p f : Nat) : Nat := if 32 ≤ f then 15 else if f / 4 = p / 4 then f % 4 else 4 + f % 4

/-- Margins of the grid slots that carry data in a direction of a port. -/
def liveMargins (c : Ctl) (p dir : Nat) : List Nat :=
  (List.range 16).filterMap fun j =>
    let f := (c.oport p).place.getD (j / 4) p
    if 32 ≤ f then none
    else
      let d := if dir = 0 then (c.oport f).tx else (c.oport f).rx
      (d.map.get? j).map fun g => (d.grid.getD g {}).margin

def Ctl.optStatus (c : Ctl) (p : Nat) : List Byte :=
  let o := c.oport p
  let paused := fun (dir : Nat) => (c.portFibres p).any fun f => Ctl.calPaused (c.fibre f dir)
  let flags := b2n (paused 0) + 2 * b2n (paused 1) + 4 * b2n (c.quadParked p) + 8 * b2n (c.warnWaiting p) + 16 * b2n o.noLight
  leBytes 1 (c.stateOf (20 + p)) ++ leBytes 1 (c.portWidth p 0) ++ leBytes 1 (c.portWidth p 1) ++ leBytes 1 flags
    ++ optMap c p 0 ++ optMap c p 1
    ++ leBytes 1 ((liveMargins c p 0 ++ liveMargins c p 1).foldl min 24)
    ++ leBytes 2 ((List.range 4).foldl (fun a q => a + placeCode p (o.place.getD q p) * 16 ^ q) 0) ++ leBytes 1 0
    ++ leBytes 8 o.fecCorrected ++ leBytes 8 o.fecUncorrectable ++ leBytes 4 o.moves ++ leBytes 4 o.cals

namespace Ctl

/-- An optical event (Table 17-17): port, direction, data slot, grid slot, status. -/
def optEvent (code p dir slot grid : Nat) (c : Ctl) : Ctl :=
  c.event code (encodeEv [.n 1 p, .n 1 dir, .n 1 slot, .n 1 grid, .raw 8 (c.optStatus p)]) { owner := true, fabric := true }

/-- A steer is done once none of its ports retrains (R367, R375). -/
def steerDone (m : Nat) (c : Ctl) : Ctl :=
  match c.optics.steering.get? m with
  | some id =>
    if (List.range 8).all fun i => !(c.port (8 * m + i)).retrain then
      (({ c with optics := { c.optics with steering := Tab.del m c.optics.steering } }).optEvent 0x0443 (8 * m) 0xFF 0xFF
        0xFF).finishOne (.steer id) 0 []
    else c
  | none => c

/-- OPTIC_PORT_STATE for each port whose entry now shows another state or reason than in `old` (R375). -/
def notePorts (old c : Ctl) : Ctl :=
  (List.range 32).foldl (fun d p =>
    if d.shown (20 + p) = old.shown (20 + p) then d else d.optEvent 0x0440 p 0xFF 0xFF 0xFF) c

/-- Post a port's entry as it stands; every change of it is an OPTIC_PORT_STATE (R375), and directions may be usable
again. The outcome of a swatch test answers OPTIC_SWATCH_RUN (Table 12-8), and the end of the last retrain a steer (R367). -/
def settlePort (p : Nat) (c : Ctl) : Ctl :=
  let old := c.shown (20 + p)
  let t := c.portTarget p
  let c := c.post (20 + p) t.1 t.2
  let c := if c.shown (20 + p) = old then c else c.optEvent 0x0440 p 0xFF 0xFF 0xFF
  let c := if t.1 = 1 then c else c.finishOne (.swatch p) 0 (encode [.n 1 (c.stateOf (20 + p))])
  c.refreshBroken.steerDone (p / 8)

/-- The entries that a link's state moves (Table 10-4). -/
def settleLink (l : Nat) (c : Ctl) : Ctl :=
  if l < 4 then c.settleCanvas l
  else if l < 8 then (c.settleCanvas (l - 4)).settleCanvas ((l - 3) % 4)
  else if l < 16 then (List.range 4).foldl (fun c f => c.settlePort (4 * (l - 8) + f)) c
  else if (c.link 16).st = 4 then
    [52, 53].foldl (fun c i => if (c.entry i).st = 0 then c else c.post i 4 0x0E) c
  else c

/-- A change of a link's state: logged and sent as D2D_LINK (R307). A failed link's flits are lost. -/
def setLinkSt (l st : Nat) (c : Ctl) : Ctl :=
  let x := c.link l
  if x.st = st then c
  else
    let c := c.updLink l fun x =>
      let x := { x with st := st }
      if st = 4 then
        (x.updDir 0 fun y => { y with tx := { y.tx with unacked := [], held := [], ctl := 0 } }).updDir 1 fun y =>
          { y with tx := { y.tx with unacked := [], held := [], ctl := 0 } }
      else x
    let groups := fun (y : D2dDir) => d2dGroups l - y.retired.length
    let c := c.event 0x0420 (encodeEv [.n 1 l, .n 1 st, .n 1 (groups x.dir0), .n 1 (groups x.dir1)]) { owner := true }
    c.settleLink l

/-- Both directions enter retrain (R277). -/
def retrainLink (l : Nat) (c : Ctl) : Ctl :=
  let x := c.link l
  if d2dDead l x then c.setLinkSt l 4
  else if x.st = 2 || x.st = 3 || x.st = 1 then
    (c.updLink l fun x =>
      ({ x with retrain := x.retrain || x.st != 1, trained := false }.updDir 0 fun y =>
        { y with markSent := false, markTaken := false }).updDir 1 fun y => { y with markSent := false, markTaken := false }).setLinkSt l 1
  else c

/-- The state of a link that carries flits, after a loss. -/
def judgeLink (l : Nat) (c : Ctl) : Ctl :=
  let x := c.link l
  if x.st = 4 then c.settleLink l
  else if d2dDead l x then c.setLinkSt l 4
  else if x.st = 2 || x.st = 3 then c.setLinkSt l (d2dUp l x) else c

/-- The data lane whose bits a lane carries, where it is in service. -/
def carries (l : Nat) (y : D2dDir) (lane : Nat) : Option Nat :=
  if lane < d2dLanes l then
    if y.darns.has lane || y.failed.contains lane || (l != 16 && y.retired.contains (groupOf lane)) then none else some lane
  else (y.darns.find? (·.2 = lane)).map (·.1)

/-- The lowest-numbered free darning lane. -/
def freeDarn (l : Nat) (y : D2dDir) : Option Nat :=
  ((List.range (d2dDarns l)).map (· + d2dLanes l)).find? fun k => !y.usedDarn.contains k && !y.failed.contains k

/-- Retire the group of a data lane (R305). -/
def retireGroup (l d lane : Nat) (c : Ctl) : Ctl :=
  let g := if l = 16 then 0 else groupOf lane
  c.updLink l fun x => x.updDir d fun y => { y with
    retired := insNat g y.retired
    darns := y.darns.filter fun m => l != 16 && groupOf m.1 != g }

/-- Declare a lane failed on a link in use (R302 to R305): darned by a DARN from the receiver, or its group retires and
the link retrains. -/
def declareD2d (l d lane : Nat) (c : Ctl) : Ctl :=
  let y := (c.link l).dir d
  if y.failed.contains lane then c
  else
    let c := c.updLink l fun x => x.updDir d fun y => { y with
      failed := insNat lane y.failed, darns := y.darns.filter (·.2 != lane)
      asked := y.asked.filter (·.2 != lane), acked := y.acked.filter (·.2 != lane) }
    let onWay := ((y.asked ++ y.acked).find? (·.2 = lane)).map (·.1)
    match if onWay.isSome then onWay else carries l y lane with
    | none => c
    | some data =>
      match freeDarn l ((c.link l).dir d) with
      | some k =>
        c.updLink l fun x => (x.updDir d fun y => { y with
          usedDarn := insNat k y.usedDarn, asked := y.asked ++ [(data, k)] }).updDir (1 - d) fun z =>
            { z with tx := z.tx.control 3 d2dB 2048 c.tick }
      | none => (c.retireGroup l d data).retrainLink l

/-- A lane that training finds failed is darned with no message, or its group retires (R302, R305). -/
def trainLane (l d lane : Nat) (c : Ctl) : Ctl :=
  let y := (c.link l).dir d
  if y.failed.contains lane then c
  else
    let c := c.updLink l fun x => x.updDir d fun y => { y with failed := insNat lane y.failed, darns := y.darns.filter (·.2 != lane) }
    match carries l y lane with
    | none => c
    | some data =>
      match freeDarn l ((c.link l).dir d) with
      | some k => c.updLink l fun x => x.updDir d fun y => { y with usedDarn := insNat k y.usedDarn, darns := Tab.set data k y.darns }
      | none => c.retireGroup l d data

/-- One differing bit on a lane (R302): declared failed once its count rises by 16 within any 1 s. -/
def laneError (l d lane : Nat) (c : Ctl) : Ctl :=
  let c := c.updLink l fun x => x.updDir d fun y => { y with
    laneErr := Tab.upd lane 0 (· + 1) y.laneErr
    errTicks := Tab.upd lane [] (fun t => lastN 16 (t ++ [c.tick])) y.errTicks }
  let t := ((c.link l).dir d).errTicks.getD lane []
  if t.length = 16 && c.tick ≤ t.headD 0 + 1000000000 then c.declareD2d l d lane else c

/-- A replay of a die-to-die sender; the 16th without progress is a retrain (R301). A NAK that comes with the expiry starts no
second one (R71). -/
def replayD2d (l d : Nat) (c : Ctl) : Ctl :=
  if ((c.link l).dir d).tx.expired = some c.tick then c
  else
    let c := c.updLink l fun x => x.updDir d fun y => { y with tx := y.tx.replay c.tick }
    if 16 ≤ ((c.link l).dir d).tx.run then c.retrainLink l else c

/-- The lane that carries bit i of the flits of a direction (R298): they are striped over the in-service data lanes in ascending
order, and a darning lane stands in the place of the lane it replaces. -/
def stripe (l : Nat) (y : D2dDir) (i : Nat) : Nat :=
  let lanes := (List.range (d2dLanes l)).filter fun k => l = 16 || !y.retired.contains (groupOf k)
  let k := lanes.getD (i % max 1 lanes.length) 0
  y.darns.getD k k

/-- The lanes that carried wrong bits, ascending. -/
def errLanes (l : Nat) (y : D2dDir) (bits : List Nat) : List Nat := bits.foldl (fun o i => insNat (stripe l y i) o) []

/-- Whether a flit is one that the sender of direction d has on the wire: a replay or the next data flit, with the header that
the state of its end gives (R299, R301); in a retrain, one sent before it (R277). -/
def onWire (c : Ctl) (l d : Nat) (f : Flit) : Bool :=
  let x := c.link l
  let t := (x.dir d).tx
  let r := (x.dir (1 - d)).rx
  let old := t.unacked.any fun u => u.1 = f.lseq && u.2.1 = f.vc
  if x.retrain then !x.trained && f.kind != 1 && old
  else
    f.ackSeq = (r.next + 65535) % 65536 && f.nak = r.nak && f.crVc = t.rot % 4 && f.crTotal = r.freed.getD f.crVc 0
      && (if f.kind = 1 then f.lseq = 0 && f.payload.isEmpty
        else old || (f.kind = 0 && f.lseq = t.next && t.open f.vc d2dB 2048))

/-- The sending of a flit outside retrain: a new one takes a credit and a number; each carries the next credit total in rotation and
the receiver's NAK (R299, R301). -/
def putFlit (l d : Nat) (f : Flit) (c : Ctl) : Ctl :=
  if (c.link l).retrain then c
  else
    c.updLink l fun x =>
      (x.updDir d fun y =>
        let old := y.tx.unacked.any fun u => u.1 = f.lseq && u.2.1 = f.vc
        let t := if f.kind = 1 || old then y.tx else y.tx.put f.vc c.tick
        { y with tx := { t with rot := (t.rot + 1) % 4 } }).updDir (1 - d) fun y =>
          { y with rx := { y.rx with nak := false, told := Tab.set f.crVc f.crTotal y.rx.told } }

/-- An accepted flit of a die-to-die link: its slot is free at once. The lanes of the copy of it that was discarded are in error
(R302), declared in ascending order (R304). -/
def d2dAccept (l d : Nat) (f : Flit) (c : Ctl) : Ctl :=
  let r := ((c.link l).dir d).rx
  let c := c.updLink l fun x => x.updDir d fun y => { y with
    rx := { y.rx.free f.vc 1 with next := (r.next + 1) % 65536, nak := false, copies := y.rx.copies.filter (·.1 != f.lseq) } }
  (((r.copies.filter (·.1 = f.lseq)).flatMap (·.2)).foldl (fun o n => insNat n o) []).foldl (fun c n => c.laneError l d n) c

end Ctl

/-- Whether the CRC is sure to find the wrong bits of a flit (R300): at most 5, or a burst of at most 32. -/
def crcFinds (bits : List Nat) : Bool :=
  !bits.isEmpty && (decide (bits.length ≤ 5) || decide (bits.foldl max 0 < bits.foldl min 2047 + 32))

/-- A flit's fields are in range, and wrong bits that the CRC is sure to find make it bad (R300). -/
def flitOk (f : Flit) : Bool :=
  f.lseq < 65536 && f.ackSeq < 65536 && f.kind < 3 && f.vc < 8 && f.crVc < 8 && f.crTotal < 65536 && f.txVc < 8
    && f.txTotal < 65536 && f.firstStart < 256 && f.errBits.all (· < 2048) && decide f.errBits.Nodup
    && (f.lost || !(crcFinds f.errBits))

/-- D2D_FLIT_RECEIVE (R298 to R302): a flit of direction d goes from its sender to its receiver; its credits and acknowledgement belong
to the other direction's sender. One with a bad CRC is discarded in full, and its copy kept; the slots of an accepted flit are free
at once. -/
def execD2dFlitReceive (l d : Nat) (f : Flit) (s : State) : Host.Outcome State Fault Refusal :=
  ret (l < 17 && d < 2 && flitOk f && f.vc < 4 && f.crVc < 4 && decide (f.payload.length ≤ 240)) (s.act (W.on fun c =>
    let x := c.link l
    if !(x.st = 2 || x.st = 3 || x.retrain) || !c.onWire l d f then c
    else
      let lanes := Ctl.errLanes l (x.dir d) f.errBits
      let c := c.putFlit l d f
      if f.lost then
        c.updLink l fun x => x.updDir d fun y => { y with
          rx := { y.rx with
            nak := true
            copies := if f.kind = 1 then y.rx.copies else (y.rx.copies.filter (·.1 != f.lseq)) ++ [(f.lseq, lanes)] } }
      else
        let c := if x.retrain then c else
          let c := c.updLink l fun x => x.updDir (1 - d) fun y =>
            let t := (y.tx.credit f.crVc f.crTotal).ack f.ackSeq c.tick
            { y with tx := LinkTx.pumpCtl 3 d2dB 2048 c.tick t.ctl t }
          if f.nak then
            (c.updLink l fun x => x.updDir (1 - d) fun y => { y with tx := { y.tx with naksRx := inc32 y.tx.naksRx } }).replayD2d l (1 - d)
          else c
        if f.kind = 1 then c
        else
          let r := ((c.link l).dir d).rx
          if f.lseq = r.next then c.d2dAccept l d f
          else if (f.lseq + 65536 - r.next) % 65536 < 32768 then
            c.updLink l fun x => x.updDir d fun y => { y with rx := { y.rx with nak := true } }
          else c.updLink l fun x => x.updDir d fun y => { y with rx := { y.rx with dup := inc32 y.rx.dup } }))

/-- D2D_ACK_TIMEOUT (R75, R301): 1 µs without an acknowledgement. -/
def execD2dAckTimeout (l d : Nat) (s : State) : Host.Outcome State Fault Refusal :=
  ret (l < 17 && d < 2) (s.act (W.on fun c =>
    let x := c.link l
    let t := (x.dir d).tx
    if (x.st = 2 || x.st = 3) && !t.unacked.isEmpty && t.lastAdv + 1000 ≤ c.tick then
      (c.replayD2d l d).updLink l fun x => x.updDir d fun y => { y with tx := y.tx.expire c.tick }
    else c))

/-- LANE_LOCK_LOSS (R302). -/
def execLaneLockLoss (l d lane : Nat) (s : State) : Host.Outcome State Fault Refusal :=
  ret (l < 17 && d < 2 && lane < d2dLanes l + d2dDarns l) (s.act (W.on fun c =>
    if (c.link l).st = 2 || (c.link l).st = 3 then c.declareD2d l d lane else c))

/-- The Canvas of a Canvas-Easel link has no clock left: no direction that it sends carries one (R297). -/
def Ctl.unclock (k : Nat) (c : Ctl) : Ctl :=
  if !c.noClock k then c
  else
    [(k, 0), (4 + k, 0), (4 + (k + 3) % 4, 1)].foldl (fun c (x : Nat × Nat) =>
      if (c.link x.1).st = 0 then c
      else (c.updLink x.1 fun z => z.updDir x.2 fun y => { y with clk := (List.range (d2dClks x.1)).map fun i => (i, 3) }).judgeLink x.1) c

/-- CLOCK_LANE_STOP (R296, R297, R307): the pair runs on its other lane, or the link fails. -/
def execClockLaneStop (l d pair lane : Nat) (s : State) : Host.Outcome State Fault Refusal :=
  ret (l < 17 && d < 2 && pair < d2dClks l && lane < 2) (s.act (W.on fun c =>
    if (c.link l).st = 0 then c
    else
      let c := (c.updLink l fun x => x.updDir d fun y => { y with clk := Tab.upd pair 0 (· ||| 2 ^ lane) y.clk }).judgeLink l
      if l < 4 then c.unclock l else c))

/-- DARN (R303): the sender drives the darning lane and answers. -/
def execLaneDarn (l d lane spare : Nat) (s : State) : Host.Outcome State Fault Refusal :=
  ret (l < 17 && d < 2) (s.act (W.on fun c =>
    let y := (c.link l).dir d
    if y.asked.contains (lane, spare) then
      c.updLink l fun x => x.updDir d fun y => { y with
        asked := y.asked.erase (lane, spare), acked := y.acked ++ [(lane, spare)], tx := y.tx.control 3 d2dB 2048 c.tick }
    else c))

/-- DARN_ACK (R303): from that flit the receiver reads the darning lane. -/
def execLaneDarnAck (l d : Nat) (s : State) : Host.Outcome State Fault Refusal :=
  ret (l < 17 && d < 2) (s.act (W.on fun c =>
    match ((c.link l).dir d).acked with
    | (lane, k) :: t => c.updLink l fun x => x.updDir d fun y => { y with acked := t, darns := Tab.set lane k y.darns }
    | [] => c))

/-! Commands of Table 10-9. -/

def linkArg (l : Nat) : Arg := Arg.num 1 (decide (l < 17))

/-- D2D_LINK_STATUS (Table 10-9): per direction, groups in service, darning lanes in use, clock pairs on one lane,
replays, NAKs, DUPLICATES; then LANE_ERR per lane, one byte each, at most 255. -/
def execD2dLinkStatus (h : Hdr) (l : Nat) (s : State) : Host.Outcome State Fault Refusal :=
  mbxRow { op := 0x0420, roles := [0, 1], lock := true } h [linkArg l] [] s fun _ w =>
    let x := w.c.link l
    let per := fun (y : D2dDir) => [Item.n 1 (d2dGroups l - y.retired.length), .n 1 y.darns.length,
      .n 1 (clkLost y 1 + clkLost y 2), .n 4 y.tx.replays, .n 4 y.tx.naksRx, .n 4 y.rx.dup]
    let errs := fun (y : D2dDir) => (List.range (d2dLanes l + d2dDarns l)).flatMap fun i => leBytes 1 (min 255 (y.laneErr.getD i 0))
    .ok (encode ([Item.n 1 x.st] ++ per x.dir0 ++ per x.dir1 ++ [.raw 1 (errs x.dir0 ++ errs x.dir1)])) w

/-- D2D_LANE_DARN (R302, Table 10-9): the darning lane chosen, or the group retired; all ones for the other. -/
def execD2dLaneDarn (h : Hdr) (l d lane : Nat) (s : State) : Host.Outcome State Fault Refusal :=
  let args := [linkArg l, Arg.num 1 (decide (d < 2)), Arg.num 2 (decide (lane < d2dLanes l + d2dDarns l))]
  mbxRow { op := 0x0421, roles := [0] } h args [] s fun _ w =>
    let x := w.c.link l
    let y := x.dir d
    if !(x.st = 2 || x.st = 3) || y.failed.contains lane then .fail 0x0204 0
    else
      let w := w.on (Ctl.declareD2d l d lane)
      let z := (w.c.link l).dir d
      .ok (encode [.n 2 ((z.usedDarn.find? fun k => !y.usedDarn.contains k).getD 0xFFFF),
        .n 1 ((z.retired.find? fun g => !y.retired.contains g).getD 0xFF)]) w

/-! The guest site (R310 to R317). -/

namespace Ctl

/-- A violation (R313, R316): threshold of them within 1 s raise the alarm and disable the guest. -/
def violation (c : Ctl) : Ctl :=
  let g := c.guest
  let recent := (g.recent.filter fun t => c.tick < t + 1000000000) ++ [c.tick]
  let c := { c with guest := { g with violations := inc32 g.violations, recent := lastN 65535 recent } }
  if g.threshold ≤ recent.length && g.enabled then
    ({ c with guest := { c.guest with enabled := false } }).alarm 8 1 recent.length
  else c

def guestErr (g : GuestReq) (code : Nat) (c : Ctl) : Ctl :=
  let c := c.guestAnswer (guestRefusal g code)
  if code ≤ 5 then c.violation else c

/-- The checks of Table 10-8 up to 0x07: the code of the first that fails, or the region. A disabled guest gets 0x06
whatever it asks (R316). -/
def guestCheck (c : Ctl) (g : GuestReq) : Except Nat Region :=
  if !c.guest.enabled then .error 6
  else if !(g.opcode = 1 || g.opcode = 2) || !g.rsvdZero then .error 1
  else
    match c.fabric.regions.get? g.region, c.guest.grants.get? g.region with
    | some r, some a =>
      if r.zeroing then .error 2
      else if g.key != r.key then .error 3
      else if g.len = 0 || 256 < g.len || r.len < g.offset + g.len then .error 4
      else if !bit a (g.opcode - 1) then .error 5
      else if (r.space = 2 && (c.stateOf (7 + stackOf r.base) = 4 || c.noClock (stackOf r.base / 2) || !c.easelPath (stackOf r.base / 2)))
          || c.locked || c.alarms.gesso then .error 7
      else .ok r
    | _, _ => .error 2

/-- Whether an admitted guest request is held: a write of a stack in write stop, or any of a stack in TRAINING (R231, R562). -/
def guestHeld (c : Ctl) (g : GuestReq) (r : Region) : Bool :=
  r.space = 2 && ((g.opcode = 2 && (c.stack (stackOf r.base)).band = 4) || c.stateOf (7 + stackOf r.base) = 1)

/-- Whether a guest request must wait at the firewall: for a token (R314), or for a link that retrains (Table 10-5). -/
def guestWaits (c : Ctl) (r : Region) : Bool :=
  c.guest.tokens = 0 || (r.space = 2 && !c.wayUp (c.easelWay (stackOf r.base / 2)))

/-- Whether the guest can send a request of a tag: it is among its 1,024 and not outstanding (R312), and a request credit is free,
since those that wait at the firewall keep theirs of the 32 (R311, R314). -/
def guestOpen (c : Ctl) (tag : Nat) : Bool :=
  c.guest.linkUp && decide (c.guest.waiting.length < 32) && !(c.guest.waiting.any fun x => x.tag = tag)
    && !(c.stackTab.vals.any fun s => s.held.any fun x => match x with
      | .guest y _ => y.tag = tag
      | _ => false)

end Ctl

/-- An admitted guest request: at its target, or held there (R231, R313, R314). -/
def W.guestDo (g : GuestReq) (r : Region) (w : W) : W :=
  if w.c.guestHeld g r then
    w.on (Ctl.updStack (stackOf r.base) fun s => { s with held := s.held ++ [.guest g (r.base + g.offset)] })
  else w.guestApply g r.space (r.base + g.offset)

/-- A guest request at the firewall: refused, admitted with a token, or waiting for one (R313, R314). -/
def W.guestRow (g : GuestReq) (w : W) : W :=
  match w.c.guestCheck g with
  | .error e => w.on (Ctl.guestErr g e)
  | .ok r =>
    if w.c.guestWaits r then w.on fun c => { c with guest := { c.guest with waiting := c.guest.waiting ++ [g] } }
    else (w.on fun c => { c with guest := { c.guest with tokens := c.guest.tokens - 1 } }).guestDo g r

def guestOk (g : GuestReq) : Bool := g.opcode < 256 && g.tag < 65536 && g.region < 65536 && g.len < 65536

/-- GUEST_READ (R312, R313): a request whose opcode is not WRITE's. -/
def execGuestRead (g : GuestReq) (s : State) : Host.Outcome State Fault Refusal :=
  ret (guestOk g && g.tag < 1024 && g.opcode != 2) (s.act fun w => if w.c.guestOpen g.tag then w.guestRow g else w)

/-- GUEST_WRITE (R312 to R314). -/
def execGuestWrite (g : GuestReq) (s : State) : Host.Outcome State Fault Refusal :=
  ret (guestOk g && g.tag < 1024 && g.opcode = 2) (s.act fun w => if w.c.guestOpen g.tag then w.guestRow g else w)

/-- GUEST_TOKEN_ADMIT (R314, R317): the waiting request of a tag is judged as things stand, and admitted. -/
def execGuestTokenAdmit (tag : Nat) (s : State) : Host.Outcome State Fault Refusal :=
  ret (tag < 1024) (s.act fun w =>
    match w.c.guest.waiting.find? (·.tag = tag) with
    | none => w
    | some g =>
      if w.c.guest.tokens = 0 || (match w.c.guestCheck g with
          | .ok r => w.c.guestWaits r
          | .error _ => false) then w
      else (w.on fun c => { c with guest := { c.guest with waiting := c.guest.waiting.erase g } }).guestRow g)

/-- GUEST_RESPONSE (R315): one that matches no request of the Easel is discarded and counted. -/
def execGuestResponse (g : GuestReq) (s : State) : Host.Outcome State Fault Refusal :=
  ret (guestOk g) (s.act (W.on fun c =>
    if !c.guest.linkUp then c
    else if c.guest.easelTags.contains g.tag then { c with guest := { c.guest with easelTags := c.guest.easelTags.erase g.tag } }
    else c.violation))

/-- A guest command is refused while the guest site is not usable, as it is on TK90-M640-OA (R318). -/
def guestCmd (op : Nat) (lock : Bool) (h : Hdr) (args : List Arg) (s : State) (f : W → Res) : Host.Outcome State Fault Refusal :=
  mbxRow { op, roles := [0], lock } h args [] s fun _ w => if w.c.usable 16 then f w else .fail 0x0205 0

/-- GUEST_REGION_GRANT (R315, R317): access bit 0 read, bit 1 write. A line in the RC's private part of the hub SRAM is never granted. -/
def execGuestRegionGrant (h : Hdr) (n access : Nat) (s : State) : Host.Outcome State Fault Refusal :=
  guestCmd 0x0428 false h [regionArg n, Arg.num 1 (1 ≤ access && access ≤ 3)] s fun w =>
    match w.c.fabric.regions.get? n with
    | none => .fail 0x0503 0
    | some r =>
      if r.zeroing then .fail 0x0204 0
      else if (r.space != 1 && r.space != 2) || (r.space = 1 && 0xA000000 ≤ r.base) then .fail 0x0404 0
      else .ok [] (w.on fun c => { c with guest := { c.guest with grants := Tab.set n access c.guest.grants } })

/-- GUEST_REGION_REVOKE (R317): no request is admitted from now on; it returns once every admitted one has completed. -/
def execGuestRegionRevoke (h : Hdr) (n : Nat) (s : State) : Host.Outcome State Fault Refusal :=
  guestCmd 0x0429 false h [regionArg n] s fun w =>
    if !w.c.guest.grants.has n then .fail 0x0204 0
    else
      let w := w.on fun c => { c with guest := { c.guest with grants := Tab.del n c.guest.grants } }
      if w.c.guestBusy n then .wait (.guestRevoke n) w else .ok [] w

/-- GUEST_GAUGE_SET (R314, R316). -/
def execGuestGaugeSet (h : Hdr) (rate threshold : Nat) (s : State) : Host.Outcome State Fault Refusal :=
  guestCmd 0x042A false h [Arg.num 2 (1 ≤ rate && rate ≤ 1024), Arg.num 2 (1 ≤ threshold && threshold ≤ 65535)] s fun w =>
    .ok (encode [.n 2 rate, .n 2 threshold]) (w.on fun c => { c with guest := { c.guest with rate, threshold } })

/-- GUEST_ENABLE (R316). -/
def execGuestEnable (h : Hdr) (s : State) : Host.Outcome State Fault Refusal :=
  guestCmd 0x042B false h [] s fun w => .ok [] (w.on fun c => { c with guest := { c.guest with enabled := true, recent := [] } })

/-- GUEST_STATUS (Table 10-9): state, lanes, rate in GT/s, violations, enabled flag, grants. -/
def execGuestStatus (h : Hdr) (s : State) : Host.Outcome State Fault Refusal :=
  guestCmd 0x042C true h [] s fun w =>
    let g := w.c.guest
    .ok (encode [.n 1 (w.c.stateOf 16), .n 1 (if g.linkUp then 16 else 0), .n 1 (if g.linkUp then 32 else 0), .n 4 g.violations,
      .n 1 (b2n g.enabled), .list (fitting 24 (g.grants.map fun x => leBytes 2 x.1 ++ leBytes 1 x.2))]) w

end Sys2Proof.Machine
end

