-- ==== Sys2Proof/Machine/OpticOps.lean ====
section
/-! DEFINITION. What the rows of the optical edge share (chapter 12): slot moves, copies onto a spare, light, the margins of a
swatch test and the lane map that they form. -/

namespace Sys2Proof.Machine

open Sys2Proof

/-- A LANE_MOVE names one of the two spares, or none, and a retired state of Table 12-7 (R361). -/
def laneMoveOk (m : LaneMove) : Bool := (m.spare = none || m.spare = some 16 || m.spare = some 17) && 4 ≤ m.cause && m.cause ≤ 6

namespace Ctl

def updFibre (f dir : Nat) (g : FibreDir → FibreDir) : Ctl → Ctl :=
  updOPort f fun o => if dir = 0 then { o with tx := g o.tx } else { o with rx := g o.rx }

def updGrid (f dir w : Nat) (g : Grid → Grid) : Ctl → Ctl :=
  updFibre f dir fun d => { d with grid := Tab.upd w {} g d.grid }

/-- The port that a data slot of a fibre pair belongs to; a parked quad slot counts as its own fibre pair's. -/
def slotPort (c : Ctl) (f j : Nat) : Nat := (c.portOfQuad f (j / 4)).getD f

/-- A port enters retrain (R277); it shows TRAINING meanwhile. -/
def retrainPort (p : Nat) (c : Ctl) : Ctl :=
  (c.updPort p fun x => { x with
    retrain := true, trained := false, markSent := false, markTaken := false, retrains := inc32 x.retrains }).settlePort p

/-- Move data slot j of a direction off its grid slot, which takes state st: onto the spare, or retired (R361, R363). What OWNER named
is answered with the spare and the new width (Table 12-8). -/
def moveSlot (f dir j st : Nat) (spare : Option Nat) (c : Ctl) : Ctl :=
  match (c.fibre f dir).map.get? j with
  | none => c
  | some w =>
    let c := c.updGrid f dir w fun g => { g with st := st, data := 255, last := j }
    let c := match spare with
      | some s =>
        (c.updGrid f dir s fun g => { g with st := 2, data := j }).updFibre f dir fun d => { d with map := Tab.set j s d.map }
      | none => c.updFibre f dir fun d => { d with map := Tab.del j d.map }
    let c := c.updFibre f dir fun d => { d with warn := Tab.del w d.warn, reported := d.reported.filter (· != j) }
    let p := c.slotPort f j
    let c := c.updOPort p fun o => { o with moves := inc32 o.moves }
    let c := c.optEvent 0x0442 p dir j (spare.getD 0xFF)
    let c := match spare, c.portOfQuad f (j / 4) with
      | none, some p => if (c.portTarget p).1 = 4 then c.settlePort p else c.retrainPort p
      | _, _ => c
    c.finishOne (.slotRetire f dir j) 0 (encode [.n 1 (spare.getD 0xFF), .n 1 (c.portWidth p dir)])

/-! A copy onto a spare (R357, R360, R365). -/

/-- Data slot j is sent on its grid slot and on the spare at once. -/
def startCopy (f dir : Nat) (k : SlotCopy) (c : Ctl) : Ctl :=
  ((c.updGrid f dir k.grid fun g => { g with st := 3 }).updGrid f dir k.spare fun g => { g with st := 3, data := k.slot }).updFibre f dir
    fun d => { d with copy := some k }

/-- The copy ends without a move: its slot stays where it was, and the spare takes state st. -/
def dropCopy (f dir st : Nat) (c : Ctl) : Ctl :=
  match (c.fibre f dir).copy with
  | none => c
  | some k =>
    ((c.updGrid f dir k.grid fun g => { g with st := if k.grid < 16 then 1 else 2 }).updGrid f dir k.spare fun g => { g with
      st := st, data := 255 }).updFibre f dir fun d => { d with copy := none }

/-- The copy ends as a move: the slot goes on on the spare, and its grid slot takes state st. -/
def finishCopy (f dir st : Nat) (c : Ctl) : Ctl :=
  match (c.fibre f dir).copy with
  | none => c
  | some k => (c.updFibre f dir fun d => { d with copy := none }).moveSlot f dir k.slot st (some k.spare)

/-- A calibration gives way to a use of the spare that it holds (R358). -/
def makeRoom (f dir : Nat) (c : Ctl) : Ctl :=
  if (freeSlot (c.fibre f dir)).isNone && (c.fibre f dir).copy.any (·.cal) then c.dropCopy f dir 0 else c

/-- A transmit data slot fails, or its laser is at the floor: it moves at once to a free spare; in a copy of it the move completes,
and in a changeover of another slot it waits (R358, R361, R365). -/
def failTx (f j st : Nat) (c : Ctl) : Ctl :=
  match (c.fibre f 0).copy with
  | some k =>
    if k.slot = j then c.finishCopy f 0 st
    else if k.cal then
      let c := c.makeRoom f 0
      c.moveSlot f 0 j st (freeSlot (c.fibre f 0))
    else c.updFibre f 0 fun d => { d with waiting := d.waiting ++ [(j, st)] }
  | none => c.moveSlot f 0 j st (freeSlot (c.fibre f 0))

/-- The events that waited for the end of a copy, in grant order (R365). -/
def drainWaiting (f : Nat) (c : Ctl) : Ctl :=
  if (c.fibre f 0).copy.isSome then c
  else
    (c.fibre f 0).waiting.foldl (fun c (x : Nat × Nat) => c.failTx f x.1 x.2) (c.updFibre f 0 fun d => { d with waiting := [] })

/-- A data slot fails (R361, R362): a transmit slot moves; a receive slot is reported to the far transmitter. -/
def failSlot (f dir j st : Nat) (c : Ctl) : Ctl :=
  if dir = 0 then (c.failTx f j st).drainWaiting f
  else if (c.fibre f 1).map.has j then c.updFibre f 1 fun d => { d with reported := insNat j d.reported }
  else c

/-- A grid slot fails: the spare of a copy ends the copy and is retired (R365), a data slot's fails the data slot, and a free spare is
retired. -/
def failGrid (f dir w st : Nat) (c : Ctl) : Ctl :=
  let d := c.fibre f dir
  if d.copy.any (·.spare = w) then (c.dropCopy f dir st).drainWaiting f
  else
    match d.map.find? (·.2 = w) with
    | some x => c.failSlot f dir x.1 st
    | none => if (d.grid.getD w {}).st = 0 then c.updGrid f dir w fun g => { g with st := st, last := 255 } else c

/-! What a receiver counts on its slots (R362), and its light (R371). -/

/-- The data slots in service that a port receives on, ascending: (fibre pair, data slot, grid slot). -/
def rxSlots (c : Ctl) (p : Nat) : List (Nat × Nat × Nat) :=
  (List.range 16).filterMap fun j =>
    let f := (c.oport p).place.getD (j / 4) p
    if 32 ≤ f then none else ((c.fibre f 1).map.get? j).map fun w => (f, j, w)

/-- The symbols in error of the codewords received, by the slot that each was dealt to (R344): more than 4,096 of a slot within 1 ms
fail it (R362). -/
def countErrors (p : Nat) (symbols : List (List Nat)) (c : Ctl) : Ctl :=
  if symbols.all (·.isEmpty) then c
  else
    let slots := c.rxSlots p
    slots.zipIdx.foldl (fun c (x : (Nat × Nat × Nat) × Nat) =>
      let n := (symbols.map fun l => (l.filter fun i => i % slots.length = x.2).length).sum
      if n = 0 then c
      else
        let c := c.updGrid x.1.1 1 x.1.2.2 fun g => { g with errs := (g.errs.filter fun e => c.tick < e.1 + 1000000) ++ [(c.tick, n)] }
        if 4096 < ((((c.fibre x.1.1 1).grid.getD x.1.2.2 {}).errs).map (·.2)).sum then c.failSlot x.1.1 1 x.1.2.1 6 else c) c

/-- What a filter ring finds of light; where that takes a port's lit slots across 4, the tick is kept (R371). -/
def setLit (f w : Nat) (lit : Bool) (c : Ctl) : Ctl :=
  if ((c.fibre f 1).grid.getD w {}).lit = lit then c
  else
    let old := c
    let c := c.updGrid f 1 w fun g => { g with lit := lit }
    (c.portsOn f).foldl (fun c p =>
      if decide (4 ≤ old.litSlots p) = decide (4 ≤ c.litSlots p) then c else c.updOPort p fun o => { o with lightAt := c.tick }) c

end Ctl

/-! The swatch test (R349 to R351). -/

/-- The margin of a grid slot in a sweep, in units of 0.25 dB: the last step up to which every ratio is at most 2.4 in 10,000. -/
def sweepMargin (s : Sweep) (key : Nat) : Nat := min 24 ((((s.slots.find? (·.1 = key)).map (·.2)).getD []).takeWhile (· ≤ 240)).length.pred

/-- Whether two sweeps agree within 0.25 dB on every slot that either measured. -/
def sweepAgree (a b : Sweep) : Bool :=
  (a.slots ++ b.slots).all fun x => sweepMargin a x.1 ≤ sweepMargin b x.1 + 1 && sweepMargin b x.1 ≤ sweepMargin a x.1 + 1

/-- Whether each sweep agrees with the one before it. -/
def agreements : List Sweep → List Bool
  | a :: b :: l => sweepAgree a b :: agreements (b :: l)
  | _ => []

/-- A test's sweeps end with the first that agrees with the one before it, or with the eighth; each slot has 25 steps (R350). -/
def sweepsOk (l : List Sweep) : Bool :=
  2 ≤ l.length && l.length ≤ 8 && l.all (fun s => s.slots.all fun x => x.1 < 576 && x.2.length = 25)
    && (agreements l).dropLast.all (!·) && ((agreements l).getLastD false || l.length = 8)

/-- The margin that a test finds: the last sweep's, or without agreement the lower of the last two (R350). -/
def finalMargin (l : List Sweep) (key : Nat) : Nat :=
  let last := sweepMargin (l.getLastD ⟨[]⟩) key
  if (agreements l).getLastD false then last else min last (sweepMargin (l.dropLast.getLastD ⟨[]⟩) key)

/-- A laser that has reached its warning threshold takes no part in a swatch test (R351); of a far laser the receiver knows it by the
state that its slot has taken. -/
def Grid.dead (g : Grid) : Bool := g.warned || g.floored || g.st = 4 || g.st = 5

namespace Ctl

/-- The lane map that a receiver forms for the data slots of `mine` on one fibre pair (R351). `m` gives the margins; a spare that another
port's slot uses is left alone. -/
def formMap (mine : Nat → Bool) (m : Nat → Nat) (now : Nat) (d : FibreDir) : FibreDir :=
  let busy := fun (w : Nat) => (d.map.any fun x => x.2 = w && !mine x.1) || d.copy.any (·.spare = w)
  let margin := fun (w : Nat) => if (d.grid.getD w {}).dead then 0 else m w
  let r := ((List.range 16).filter mine).foldl (fun (st : Tab Nat × List Nat) j =>
    if 6 ≤ margin j then (Tab.set j j st.1, st.2)
    else
      match st.2 with
      | s :: t => (Tab.set j s st.1, t)
      | [] => st) (d.map.filter fun x => !mine x.1, [16, 17].filter fun w => 6 ≤ margin w && !busy w)
  { d with
    map := r.1, warn := d.warn.filter fun x => busy x.1, reported := d.reported.filter fun j => !mine j
    calNext := 0, calDue := now + d.interval
    grid := ((List.range 18).filter fun w => (decide (16 ≤ w) || mine w) && !busy w).foldl (fun t w => Tab.upd w {} (fun g =>
      let data := ((r.1.find? (·.2 = w)).map (·.1)).getD 255
      { g with
        margin := margin w, data := data, out := 0, errs := [], owner := false
        st := if data < 16 then (if w < 16 then 1 else 2)
          else if r.2.contains w then 0
          else if g.st = 4 || g.st = 5 || g.st = 6 then g.st
          else 7 }) t) d.grid }

/-- Both directions of a port take the maps of their receivers (R351), on every fibre pair that carries its quads. -/
def formMaps (p : Nat) (tx rx : List Sweep) (c : Ctl) : Ctl :=
  (c.portFibres p).foldl (fun c f =>
    let mine := fun (w : Nat) => w < 16 && (c.oport p).place.getD (w / 4) p = f
    (c.updFibre f 0 (formMap mine (fun w => finalMargin tx (18 * f + w)) c.tick)).updFibre f 1
      (formMap mine (fun w => finalMargin rx (18 * f + w)) c.tick)) c

/-- The port of a skein whose test is in turn: the first from the turn on that is in test and has light (R349). -/
def swatchTurn (c : Ctl) (k : Nat) : Option Nat :=
  ((List.range 4).map fun i => 4 * k + (c.optics.turn.getD k 0 + i) % 4).find? fun p => (c.oport p).swatch && decide (0 < c.litSlots p)

/-- A skein passes on to the next port (R349). -/
def passTurn (p : Nat) (c : Ctl) : Ctl := { c with optics := { c.optics with turn := Tab.set (p / 4) ((p % 4 + 1) % 4) c.optics.turn } }

/-- The copies and waiting moves of a port's slots end, and what OWNER named of them is answered, as its swatch test begins. -/
def endMoves (p : Nat) (c : Ctl) : Ctl :=
  (c.portFibres p).foldl (fun c f => [0, 1].foldl (fun c dir =>
    let mine := fun (j : Nat) => (c.oport p).place.getD (j / 4) p = f
    let c := if (c.fibre f dir).copy.any fun k => mine k.slot then c.dropCopy f dir 0 else c
    let c := c.updFibre f dir fun d => { d with waiting := d.waiting.filter fun x => !mine x.1 }
    c.finish fun x => match x with
      | .slotRetire g e j => if g = f && e = dir && mine j then some (0x0204, []) else none
      | _ => none) c) c

/-- A port begins the swatch test (R349). Its lasers have settled, or will (R353). -/
def startSwatch (p : Nat) (c : Ctl) : Ctl :=
  (((c.endMoves p).updOPort p fun o => { o with swatch := true, noLight := false, lossDue := none, settled := max o.settled c.tick }).updPort
    p fun x => { x with dead := 0, retrain := false }).settlePort p

end Ctl

end Sys2Proof.Machine
end

