-- ==== Sys2Proof/Machine/Ports.lean ====
section
/-! DEFINITION. Hop flits, retrain, the cabling plan, routing tables and the router's counters (chapters 9 and 13).
Links are numbered 0 to 16 for the die-to-die links and 32 + p for the hop of port p, whose direction 0 this module
sends and direction 1 it receives (log 13). -/

namespace Sys2Proof.Machine

open Sys2Proof

namespace Ctl

/-! Hops (R376 to R379). -/

/-- Slots of a VC that the input buffer of a port holds. -/
def slotsHeld (x : RPort) (vc : Nat) : Nat :=
  ((x.inq.filter (·.1.vc = vc)).map (·.2)).foldl (· + ·) (x.part.getD vc {}).slots

/-- A replay of the hop sender on a NAK; the 16th without progress is a retrain (R379). Nothing is sent in a retrain, and a NAK
that comes with the expiry starts no second replay (R71, R277, R301). -/
def replayHop (p : Nat) (c : Ctl) : Ctl :=
  if (c.port p).retrain || (c.port p).tx.expired = some c.tick then c
  else
    let c := c.updPort p fun x => { x with tx := x.tx.replay c.tick }
    if 16 ≤ (c.port p).tx.run then c.retrainPort p else c

/-- A packet of which a byte was lost behind its header: dropped as HOP_DROP, with its NAK (R378, R396). -/
def hopDrop (q : Nat) (p : Pkt) (c : Ctl) : Ctl :=
  let c := c.countDrop (some q) 1
  if awaitsAck p.type then
    let n := c.nakOf 1 p
    let c := c.updPort q fun x => { x with naksTx := inc32 x.naksTx }
    c.routed none n (c.routeOf none n)
  else c

/-- The packet in progress on a VC of an input port is dropped: its slots are free. -/
def dropPart (q vc : Nat) (c : Ctl) : Ctl :=
  c.updPort q fun x => { x with part := Tab.del vc x.part, rx := x.rx.free vc (x.part.getD vc {}).slots }

/-- A flit outside retrain is destroyed (R346, R376, R378): the gap that follows is accepted, and the packet of which it held bytes
is dropped, with its NAK where the header had come (R396). -/
def hopLose (q : Nat) (f : Flit) (c : Ctl) : Ctl :=
  let x := c.port q
  let c := c.updPort q fun x => { x with rx := { x.rx with gap := true } }
  if f.kind != 0 then c
  else
    let c := (c.dropPart q f.vc).updPort q fun x => { x with holes := insNat f.vc x.holes }
    match x.part.get? f.vc with
    | some y => if 32 ≤ y.bytes.length then c.hopDrop q (Pkt.ofBytes y.bytes) else c
    | none => c

/-- The payload of an accepted data flit of a VC (R378, R380): it goes on with the packet in progress, or starts at FIRST_START where
bytes were lost; the packets that are whole wait to be routed. A flit's slot is held with the last packet that has bytes in it. -/
def takePayload (q : Nat) (f : Flit) (c : Ctl) : Ctl :=
  c.updPort q fun x =>
    let hole := x.holes.contains f.vc
    if hole && f.firstStart = 0xFF then { x with rx := x.rx.free f.vc 1 }
    else
      let old := x.part.getD f.vc {}
      let b := old.bytes ++ f.payload.drop (if hole then f.firstStart else 0)
      let r := splitPkts (b.length / 36 + 1) b
      let x := { x with holes := x.holes.filter (· != f.vc) }
      match r.1.zipIdx with
      | [] =>
        if r.2.isEmpty then { x with part := Tab.del f.vc x.part, rx := x.rx.free f.vc (old.slots + 1) }
        else { x with part := Tab.set f.vc ⟨r.2, old.slots + 1⟩ x.part }
      | ps =>
        { x with
          pktsRx := x.pktsRx + ps.length
          part := if r.2.isEmpty then Tab.del f.vc x.part else Tab.set f.vc ⟨r.2, 1⟩ x.part
          inq := x.inq ++ ps.map fun y => ({ y.1 with vc := f.vc },
            (if y.2 = 0 then old.slots else 0) + if r.2.isEmpty && y.2 + 1 = ps.length then 1 else 0) }

/-- An accepted flit (R377, R378): one with TRUNC ends the packet in progress, which is dropped (Table 13-6). -/
def hopAccept (q : Nat) (f : Flit) (c : Ctl) : Ctl :=
  let cut := f.kind = 0 && f.trunc && Tab.has (c.port q).part f.vc
  let c := c.updPort q fun x => { x with rx := { x.rx with
    next := (f.lseq + 1) % 65536, nak := false, gap := false, counted := Tab.upd f.vc 0 (fun t => (t + 1) % 65536) x.rx.counted } }
  let c := if f.kind = 2 then c.updPort q fun x => { x with rx := x.rx.free f.vc 1 }
    else if f.trunc then (c.dropPart q f.vc).updPort q fun x => { x with rx := x.rx.free f.vc 1 }
    else c.takePayload q f
  let c := c.updPort q fun x => { x with
    queueMax := (List.range 8).foldl (fun m v => Tab.upd v 0 (max (slotsHeld x v)) m) x.queueMax }
  if cut then c.countDrop (some q) 7 else c

end Ctl

/-- Symbols that the decoder corrects of codewords with so many in error, and codewords beyond it: it corrects up to 15 (R346). -/
def fecFixed (symbols : List (List Nat)) : Nat := ((symbols.map (·.length)).filter (· ≤ 15)).sum
def fecFailed (symbols : List (List Nat)) : Nat := (symbols.filter (15 < ·.length)).length

/-- HOP_FLIT_RECEIVE (R346, R362, R376 to R379): the decoder's counts and each slot's, then the flit, discarded where its CRC or a codeword fails. -/
def execHopFlitReceive (q : Nat) (f : Flit) (s : State) : Host.Outcome State Fault Refusal :=
  ret (q < 32 && flitOk f && decide (f.payload.length ≤ 236)) (s.act (W.on fun c =>
    if !bit c.power.rails 5 then c
    else
    let c := c.updOPort q fun o => { o with
      fecCorrected := o.fecCorrected + fecFixed f.symbols, fecUncorrectable := o.fecUncorrectable + fecFailed f.symbols }
    let c := c.countErrors q f.symbols
    let x := c.port q
    if x.outcome != 1 || !(1 ≤ c.stateOf (20 + q) && c.stateOf (20 + q) ≤ 3) then c
    else if f.lost || 0 < fecFailed f.symbols then (if x.retrain then c else c.hopLose q f)
    else
      let c := c.updPort q fun x => { x with
        flitsRx := if f.kind = 1 then x.flitsRx else x.flitsRx + 1
        tx := (if x.retrain then x.tx else x.tx.credit f.crVc f.crTotal).ack f.ackSeq c.tick
        rx :=
          let d := if x.retrain then 0 else (f.txTotal + 65536 - x.rx.counted.getD f.txVc 0) % 65536
          let d := if d < 32768 then d else 0
          { x.rx.free f.txVc d with
            lost := x.rx.lost + d
            counted := Tab.upd f.txVc 0 (fun t => (t + d) % 65536) x.rx.counted } }
      let c := if f.nak then
          (c.updPort q fun x => { x with tx := { x.tx with naksRx := inc32 x.tx.naksRx } }).replayHop q
        else c
      let c :=
        if f.kind = 1 then c
        else
          let r := (c.port q).rx
          let ahead := (f.lseq + 65536 - r.next) % 65536
          if ahead = 0 || (ahead < 32768 && r.gap && !(c.port q).retrain) then c.hopAccept q f
          else if ahead < 32768 then c.updPort q fun x => { x with rx := { x.rx with nak := true } }
          else c.updPort q fun x => { x with rx := { x.rx with dup := inc32 x.rx.dup } }
      c.drainAll q))

/-- HOP_REPLAY_TIMEOUT (R75, R379): ACK_SEQ has not advanced for 4 µs. -/
def execHopReplayTimeout (q : Nat) (s : State) : Host.Outcome State Fault Refusal :=
  ret (q < 32) (s.act (W.on fun c =>
    let x := c.port q
    if !x.retrain && !x.tx.unacked.isEmpty && x.tx.lastAdv + 4000 ≤ c.tick then
      (c.replayHop q).updPort q fun x => { x with tx := x.tx.expire c.tick }
    else c))

/-! The cabling plan (R398 to R401). -/

namespace Ctl

def planEntry (c : Ctl) (p : Nat) : PlanEntry :=
  (c.router.plan.bind fun l => l.entries.find? (·.port = p)).getD ⟨p, 0, 0, 0, 0, 0⟩

/-- The outcome of a judgement, in the order of Table 13-8; 0 while what it needs is missing, the identities of moved quads among it
(R368). -/
def judgement (c : Ctl) (p : Nat) : Nat :=
  let o := c.oport p
  if c.router.plan.isNone || !o.awaiting.isEmpty then 0
  else
    let e := c.planEntry p
    let unused := if 0 < c.litSlots p then 4 else 6
    match (c.port p).ident with
    | some i =>
      if i.major != 1 then 5
      else if e.role != 1 then unused
      else if o.noLight then 3
      else if i.serial != e.serial || i.module != e.module || i.port != e.peerPort then 2
      else 1
    | none => if e.role != 1 then unused else if o.noLight then 3 else 0

/-- Install a routing table in one action (R392); its directions count as usable. -/
def installTable (t : RouteTable) : Ctl → Ctl :=
  onRouter fun r => { r with tables := Tab.set t.job t r.tables, broken := r.broken.filter (·.1 != t.job) }

/-- Whether the router's 16 tables leave room for a job's (R387). -/
def tableRoom (c : Ctl) (job : Nat) : Bool := c.router.tables.has job || decide (c.router.tables.length < 16)

/-- PLAN_DEGRADED is set while a NORMAL port is DOWN, and sent when it changes (R400). -/
def planFlag (c : Ctl) : Ctl :=
  let on := (List.range 32).any fun p => (c.port p).outcome = 3 && (c.planEntry p).role = 1
  if on = c.router.degraded then c
  else
    (c.onRouter fun r => { r with degraded := on }).event 0x0402
      (encodeEv [.n 4 ((c.router.plan.map (·.version)).getD 0), .n 1 (b2n on)]) { owner := true, fabric := true }

/-- Judge a port (R399, R400): the outcome and its event, the entry, the flag; a port that leaves MATCH loses its held
flits; one that reaches it takes hop flits and installs the table that waits for it (R403). -/
def judge (p : Nat) (c : Ctl) : Ctl :=
  let new := c.judgement p
  let old := (c.port p).outcome
  let c := c.updPort p fun x => { x with
    outcome := new
    minor := 0
    tx := if new != 1 && (old = 1 || new != 0) then { x.tx with held := [], unacked := [], ctl := 0 } else x.tx }
  let c := if new = 0 then c else c.event 0x0400 (encodeEv [.n 1 p, .n 1 new]) { owner := true, fabric := true }
  let c := (c.settlePort p).planFlag
  if new = 1 then
    let c := c.drainAll p
    match c.router.pend.get? p with
    | some t => (if c.tableRoom t.job then c.installTable t else c).onRouter fun r => { r with pend := r.pend.filter (·.2 != t) }
    | none => c
  else c

end Ctl

def planEntryOk (e : PlanEntry) : Bool :=
  e.port < 32 && e.role < 3 && decide (e.serial < 2 ^ 64) && e.module < 65536 && e.peerPort < 32 && e.backsUp < 32

/-- A BYPASS port backs up a NORMAL port of its skein pair (Table 13-7). -/
def backupsOk (l : List PlanEntry) : Bool :=
  l.all fun e => e.role != 2 || (e.backsUp / 8 = e.port / 8 && l.any fun n => n.port = e.backsUp && n.role = 1)

/-- PLAN_LOAD (R398, R401). -/
def execPlanLoad (h : Hdr) (block : Ref) (plan : Plan) (s : State) : Host.Outcome State Fault Refusal :=
  let args := [refArg s h block]
  mbxRow { op := 0x0400, roles := [2] } h args [block] s fun _ w =>
    if decide (2 ^ 32 ≤ plan.version) || 65535 < plan.self || !plan.entries.all planEntryOk
        || plan.entries.map (·.port) != List.range 32 then badArg args 0
    else if !backupsOk plan.entries then .fail 0x0107 (offOf args 0)
    else
      let old := w.c
      let w := w.on (Ctl.onRouter fun r => { r with plan := some plan })
      let moved := (List.range 32).filter fun p =>
        old.router.plan.isNone || old.planEntry p != w.c.planEntry p || old.selfModule != w.c.selfModule
      .ok (encode [.n 4 plan.version]) (w.on fun c => moved.foldl (fun c p => c.judge p) c)

/-! Routing tables (R387, R388). -/

/-- A port mask is needed where some route uses it: both ways round a ring of 3 or more, + alone round a ring of 2, and
along a line toward each end there is. -/
def maskNeeded (t : RouteTable) (d dir : Nat) : Bool :=
  if t.len d = 1 then false
  else if t.ring d then dir = 0 || 2 < t.len d
  else if dir = 0 then decide (t.me d + 1 < t.len d) else decide (0 < t.me d)

/-- FIELD_RANGE or CONFLICT of R388 for a table; `normal` says which ports the plan makes NORMAL. -/
def tableFail (t : RouteTable) (self : Nat) (normal : Nat → Bool) : Option Nat :=
  let n := t.lens.length
  let size := t.lens.foldl (· * ·) 1
  let masks := (List.range n).flatMap fun d => [t.mask d 0, t.mask d 1]
  let at_ := ((List.range n).foldr (fun d a => a * t.len d + t.me d) 0)
  if !(1 ≤ t.job && t.job < 65536) || decide (2 ^ 32 ≤ t.epoch) || n = 0 || 3 < n || t.lens.any (fun l => l = 0 || 64 < l)
      || t.wraps.length != n || t.wraps.any (1 < ·) || t.selfAt.length != n || (List.range n).any (fun d => t.len d ≤ t.me d)
      || t.plus.length != n || t.minus.length != n || masks.any (fun m => decide (2 ^ 32 ≤ m))
      || t.members.length != size || decide (65536 < size) || t.members.any (65535 < ·) then some 0x0102
  else if t.members[at_]? != some self || !decide t.members.Nodup then some 0x0107
  else if (List.range 32).any fun p => 2 ≤ (masks.filter fun m => bit m p).length then some 0x0107
  else if (List.range 32).any fun p => (masks.any fun m => bit m p) && !normal p then some 0x0107
  else if (List.range n).any fun d => !t.ring d && ((t.me d + 1 = t.len d && t.mask d 0 != 0) || (t.me d = 0 && t.mask d 1 != 0)) then
    some 0x0107
  else if (List.range n).any fun d => [0, 1].any fun dir => maskNeeded t d dir && t.mask d dir = 0 then some 0x0107
  else none

def Ctl.isNormal (c : Ctl) (p : Nat) : Bool := (c.planEntry p).role = 1

/-- ROUTE_TABLE_SET (R388, R392). -/
def execRouteTableSet (h : Hdr) (block : Ref) (t : RouteTable) (s : State) : Host.Outcome State Fault Refusal :=
  let args := [refArg s h block]
  mbxRow { op := 0x0410, roles := [2] } h args [block] s fun _ w =>
    if w.c.router.plan.isNone then .fail 0x0204 0
    else
      match tableFail t w.c.selfModule w.c.isNormal with
      | some e => .fail e (offOf args 0)
      | none =>
        if !w.c.tableRoom t.job then .fail 0x0301 0
        else .ok (encode [.n 4 t.epoch]) (w.on (Ctl.installTable t))

/-- ROUTE_TABLE_CLEAR (R406). -/
def execRouteTableClear (h : Hdr) (job : Nat) (s : State) : Host.Outcome State Fault Refusal :=
  let args := [Arg.num 2 (1 ≤ job && job < 65536)]
  mbxRow { op := 0x0411, roles := [2] } h args [] s fun _ w =>
    if !w.c.router.tables.has job then badArg args 0
    else
      .ok [] (w.on (Ctl.onRouter fun r => { r with
        tables := Tab.del job r.tables, broken := r.broken.filter (·.1 != job), pend := r.pend.filter (·.2.job != job) }))

/-- Table 13-4 as results. -/
def tableItems (t : RouteTable) (list : List (List Byte) → Item) : List Item :=
  let n := t.lens.length
  let three := fun (size : Nat) (f : Nat → Nat) => (List.range 3).map fun d => Item.n size (if d < n then f d else 0)
  [Item.n 2 t.job, .n 4 t.epoch, .n 1 n] ++ three 1 t.len ++ three 1 (t.wraps.getD · 0) ++ three 1 t.me ++ three 4 (t.mask · 0)
    ++ three 4 (t.mask · 1) ++ [list (fitting 64 (t.members.map (leBytes 2)))]

/-- ROUTE_TABLE_READ (R406). -/
def execRouteTableRead (h : Hdr) (job : Nat) (s : State) : Host.Outcome State Fault Refusal :=
  let args := [Arg.num 2 (1 ≤ job && job < 65536)]
  mbxRow { op := 0x0412, roles := [0, 1, 2] } h args [] s fun x w =>
    match w.c.router.tables.get? job with
    | none => badArg args 0
    | some t => if x.owns job then .ok (encode (tableItems t .list)) w else .fail 0x0404 0

/-- PLAN_AMEND (R401 to R403): a table that waits is installed when the port it needs reaches MATCH, at once where no
port of the amendment still has to. -/
def execPlanAmend (h : Hdr) (block : Ref) (entries : List PlanEntry) (table : Option RouteTable) (s : State) :
    Host.Outcome State Fault Refusal :=
  let args := [refArg s h block]
  mbxRow { op := 0x0401, roles := [2] } h args [block] s fun _ w =>
    match w.c.router.plan with
    | none => .fail 0x0204 0
    | some plan =>
      if 32 < entries.length || !entries.all planEntryOk || !decide (entries.map (·.port)).Nodup then badArg args 0
      else
        let new := { plan with entries := plan.entries.map fun e => (entries.find? (·.port = e.port)).getD e }
        let old := w.c
        let w1 := w.on (Ctl.onRouter fun r => { r with plan := some new })
        if !backupsOk new.entries then .fail 0x0107 (offOf args 0)
        else
          match table.bind fun t => tableFail t w1.c.selfModule w1.c.isNormal with
          | some e => .fail e (offOf args 0)
          | none =>
            let strands := old.router.tables.vals.any fun t =>
              !(table.any (·.job = t.job)) && (t.plus ++ t.minus).any fun m => (bitList m 32).any fun p => !w1.c.isNormal p
            if strands then .fail 0x0204 0
            else if table.any fun t => !w1.c.tableRoom t.job then .fail 0x0301 0
            else
              let moved := (List.range 32).filter fun p => old.planEntry p != w1.c.planEntry p
              let opened := moved.filter fun p => w1.c.isNormal p
              let w2 := w1.on fun c =>
                match table with
                | none => c
                | some t =>
                  if opened.isEmpty then c.installTable t
                  else c.onRouter fun r => { r with pend := opened.foldl (fun m p => Tab.set p t m) r.pend }
              .ok (encode [.n 4 plan.version]) (w2.on fun c => moved.foldl (fun c p => c.judge p) c)

def portArg (p : Nat) : Arg := Arg.num 1 (decide (p < 32))

/-- PLAN_STATUS (Table 13-12): the plan, and per port what identity exchange gave. -/
def execPlanStatus (h : Hdr) (s : State) : Host.Outcome State Fault Refusal :=
  mbxRow { op := 0x0402, roles := [0, 2], lock := true } h [] [] s fun _ w =>
    let row := fun (p : Nat) =>
      let e := w.c.planEntry p
      let i := (w.c.port p).ident.getD ⟨0, 0xFFFF, 0, 0, 0⟩
      encodeAt 0 [.n 1 e.role, .n 8 e.serial, .n 2 e.module, .n 1 e.peerPort, .n 1 e.backsUp, .n 1 (w.c.port p).outcome,
        .n 8 i.serial, .n 2 i.module, .n 1 i.port, .n 1 i.major, .n 1 i.minor]
    .ok (encode [.n 4 ((w.c.router.plan.map (·.version)).getD 0), .n 2 w.c.selfModule, .list ((List.range 32).map row)]) w

/-- PORT_REJUDGE (R400). -/
def execPortRejudge (h : Hdr) (p : Nat) (s : State) : Host.Outcome State Fault Refusal :=
  mbxRow { op := 0x0403, roles := [2] } h [portArg p] [] s fun _ w =>
    let w := w.on (Ctl.judge p)
    .ok (encode [.n 1 (w.c.port p).outcome]) w

/-- A moved quad's identity is checked against the plan (R368): one that fails is held dark, and QUAD_MISMATCH is sent. -/
def Ctl.checkQuad (p : Nat) (q : QuadPeer) (c : Ctl) : Ctl :=
  if !(c.oport p).awaiting.contains q.quad || c.router.plan.isNone then c
  else
    let c := c.updOPort p fun o => { o with
      awaiting := o.awaiting.filter (· != q.quad), quadPeer := Tab.set q.quad (q.serial, q.port) o.quadPeer }
    let e := c.planEntry p
    if e.role != 1 || (q.serial = e.serial && q.port = e.peerPort) then c
    else
      (c.updOPort p fun o => { o with place := Tab.set q.quad 32 o.place, mismatch := insNat q.quad o.mismatch }).optEvent 0x0444 p 0xFF
        (4 * q.quad) 0xFF

/-- IDENTITY_EXCHANGE (R368, R399): what the peer sent, on the port and on its moved quads. -/
def execIdentityExchange (p serial module peerPort major minor : Nat) (quads : List QuadPeer) (s : State) :
    Host.Outcome State Fault Refusal :=
  ret (p < 32 && decide (serial < 2 ^ 64) && module < 65536 && peerPort < 256 && major < 256 && minor < 256 && quads.all (·.quad < 4))
    (s.act (W.on fun c =>
      if (c.oport p).swatch || !bit c.power.rails 5 then c
      else
        let c := c.updPort p fun x => { x with ident := some ⟨serial, module, peerPort, major, minor⟩ }
        (quads.foldl (fun c q => c.checkQuad p q) c).judge p))

/-! Counters and snapshots (R404, R405). -/

/-- ROUTER_PORT_COUNTERS (Table 13-10). -/
def execRouterPortCounters (h : Hdr) (p : Nat) (s : State) : Host.Outcome State Fault Refusal :=
  mbxRow { op := 0x0450, roles := [0, 2] } h [portArg p] [] s fun _ w =>
    let x := w.c.port p
    let stall := x.stall + (match x.stallFrom with
      | some t => w.c.tick - t
      | none => 0)
    .ok (encode ([Item.n 8 x.flitsTx, .n 8 x.flitsRx, .n 8 x.pktsTx, .n 8 x.pktsRx, .n 8 stall]
      ++ ((List.range 7).map fun r => .n 4 (x.drops.getD (r + 1) 0))
      ++ [.n 4 x.rx.lost, .n 4 x.rx.dup, .n 4 x.tx.replays, .n 4 x.retrains, .n 4 x.naksTx, .n 4 x.naksRx]
      ++ ((List.range 8).map fun v => .n 2 (Ctl.slotsHeld x v)) ++ ((List.range 8).map fun v => .n 2 (x.queueMax.getD v 0)))) w

/-- STALL_TICKS now. -/
def stallNow (c : Ctl) (x : RPort) : Nat :=
  x.stall + (match x.stallFrom with
    | some t => c.tick - t
    | none => 0)

/-- The record of a port in a snapshot (Table 13-11). -/
def snapPort (c : Ctl) (p : Nat) : List Byte :=
  let x := c.port p
  leBytes 1 (c.stateOf (20 + p)) ++ leBytes 1 x.outcome ++ leBytes 1 (c.portWidth p 0) ++ leBytes 1 (c.portWidth p 1)
    ++ leBytes 2 ((x.ident.map (·.module)).getD 0xFFFF) ++ leBytes 2 0 ++ leBytes 8 (stallNow c x - x.snapStall)
    ++ leBytes 8 (x.flitsTx - x.snapTx) ++ leBytes 8 (x.flitsRx - x.snapRx)
    ++ (List.range 8).flatMap (fun v => leBytes 2 (x.queueMax.getD v 0))
    ++ (List.range 7).flatMap (fun r => leBytes 2 (min 65535 (x.drops.getD (r + 1) 0))) ++ leBytes 2 0

namespace Ctl

/-- Take a snapshot; the last 16 are kept, and QUEUE_MAX begins again (R405). -/
def snapshot (c : Ctl) : Ctl :=
  let b := leBytes 2 c.selfModule ++ leBytes 2 0 ++ leBytes 4 c.router.snapSeq
    ++ leBytes 4 ((c.router.plan.map (·.version)).getD 0) ++ leBytes 4 (b2n c.router.degraded) ++ leBytes 8 c.tick
    ++ leBytes 8 c.tick ++ zeros 32 ++ (List.range 32).flatMap (snapPort c)
  c.onRouter fun r => { r with
    snaps := lastN 16 (r.snaps ++ [b])
    snapSeq := inc32 r.snapSeq
    ports := r.ports.map fun x => (x.1, { x.2 with
      queueMax := [], snapStall := stallNow c x.2, snapTx := x.2.flitsTx, snapRx := x.2.flitsRx }) }

end Ctl

/-- ROUTER_SNAPSHOT (R405): 0 to 15, 0 the newest; 0xFF takes one. -/
def execRouterSnapshot (h : Hdr) (i : Nat) (s : State) : Host.Outcome State Fault Refusal :=
  let args := [Arg.num 1 (i < 16 || i = 0xFF)]
  mbxRow { op := 0x0451, roles := [0, 2] } h args [] s fun _ w =>
    let w := if i = 0xFF then w.on Ctl.snapshot else w
    match w.c.router.snaps.reverse[if i = 0xFF then 0 else i]? with
    | some b => .ok (encodeAt 32 [.list [b]]) w
    | none => badArg args 0

/-- ROUTER_SNAPSHOT_PERIOD (R405). -/
def execRouterSnapshotPeriod (h : Hdr) (ms : Nat) (s : State) : Host.Outcome State Fault Refusal :=
  mbxRow { op := 0x0452, roles := [2] } h [Arg.num 2 (decide (ms ≤ 1000))] [] s fun _ w =>
    .ok (encode [.n 2 ms]) (w.on fun c => c.onRouter fun r => { r with period := ms, periodDue := c.tick + ms * 1000000 })

/-- PERIODIC_SNAPSHOT (R405). -/
def execPeriodicSnapshot (s : State) : Host.Outcome State Fault Refusal :=
  ret true (s.act (W.on fun c =>
    if c.router.period != 0 && c.router.periodDue ≤ c.tick then
      c.snapshot.onRouter fun r => { r with periodDue := r.periodDue + r.period * 1000000 }
    else c))

/-! Retrain (Table 9-3). -/

namespace Ctl

/-- CREDIT_AUDIT for the channels whose free slots differ from their buffer (R278). -/
def audit (link vcs : Nat) (bv : Nat → Nat) (free : List Nat) (c : Ctl) : Ctl :=
  ((List.range vcs).filter fun v => free.getD v (bv v) != bv v).foldl (fun c v =>
    c.event 0x0401 (encodeEv [.n 1 link, .n 1 v, .n 2 (bv v), .n 2 (free.getD v (bv v))]) { owner := true }) c

def auditBad (vcs : Nat) (bv : Nat → Nat) (free : List Nat) : List Nat :=
  (List.range vcs).filter fun v => free.getD v (bv v) != bv v

/-- A port's retrain ends once both marks have gone; it is judged again unless it matched (R370, R400). -/
def endPortRetrain (p : Nat) (c : Ctl) : Ctl :=
  let x := c.port p
  if x.markSent && x.markTaken then
    let c := c.updPort p fun x => { x with retrain := false, trained := false, markSent := false, markTaken := false }
    (if x.outcome = 1 then c.settlePort p else c.judge p).drainAll p
  else c

def endLinkRetrain (l : Nat) (c : Ctl) : Ctl :=
  let x := c.link l
  if x.dir0.markTaken && x.dir1.markTaken then
    (c.updLink l fun x => { x with retrain := false, trained := false }).setLinkSt l (d2dUp l x)
  else c

end Ctl

/-- The lanes (d, lane) that a training report names, 4,096 d + lane, in ascending order (R304). -/
def trainLanes (failed : List Nat) : List (Nat × Nat) := (failed.foldl (fun o n => insNat n o) []).map fun n => (n / 4096, n % 4096)

/-- LINK_TRAINING_COMPLETE (R277, R302, R305, R307): the lanes found failed are darned or their groups retire. At its
start a link is then up; in a retrain it waits for the marks. A port that waits for lost light is not trained (R371). -/
def execLinkTrainingComplete (l : Nat) (failed : List Nat) (s : State) : Host.Outcome State Fault Refusal :=
  ret ((l < 17 && (trainLanes failed).all fun x => x.1 < 2 && x.2 < d2dLanes l + d2dDarns l) || (32 ≤ l && l < 64 && failed = []))
    (s.act (W.on fun c =>
      if 32 ≤ l then
        if (c.port (l - 32)).retrain && (c.oport (l - 32)).lossDue.isNone then c.updPort (l - 32) fun x => { x with trained := true } else c
      else
        let x := c.link l
        if x.st != 1 || x.trained then c
        else
          let c := (trainLanes failed).foldl (fun c n => c.trainLane l n.1 n.2) c
          if d2dDead l (c.link l) then c.setLinkSt l 4
          else if x.retrain then c.updLink l fun x => { x with trained := true }
          else c.setLinkSt l (d2dUp l (c.link l))))

/-- READY_MARK_SEND (R277 step 6): the receiver of a direction has drained; a die-to-die receiver forwards at once. -/
def execReadyMarkSend (l d : Nat) (s : State) : Host.Outcome State Fault Refusal :=
  ret (d < 2 && (l < 17 || (32 ≤ l && l < 64))) (s.act (W.on fun c =>
    if 32 ≤ l then
      let p := l - 32
      let x := c.port p
      if d = 1 && x.retrain && x.trained && x.inq.isEmpty && !x.markSent then
        let c := c.updPort p fun x => { x with
          markSent := true
          part := x.part.map fun y => (y.1, { y.2 with slots := 0 })
          rx := { x.rx with freed := [], told := [], counted := [], gap := false, nak := false } }
        let free := (List.range 8).map fun v => hopB v - Ctl.slotsHeld (c.port p) v
        if (Ctl.auditBad 8 hopB free).isEmpty then c.endPortRetrain p
        else ((c.updPort p fun x => { x with dead := 0x13 }).audit l 8 hopB free).settlePort p
      else c
    else
      let x := c.link l
      if x.retrain && x.trained && !(x.dir d).markSent then
        c.updLink l fun x => x.updDir d fun y => { y with
          markSent := true, rx := { y.rx with freed := [], told := [], nak := false, gap := false } }
      else c))

/-- The credits that a sender holds of each virtual channel. -/
def LinkTx.credits (vcs : Nat) (bv : Nat → Nat) (t : LinkTx) : List Nat := (List.range vcs).map fun v => bv v - t.used.getD v 0

/-- READY_MARK (R277 step 7, R278): full credits, replay from the flit it names; at either end a count that differs from the buffer
fails the link. -/
def execReadyMark (l d lseq : Nat) (free : List Nat) (s : State) : Host.Outcome State Fault Refusal :=
  ret (d < 2 && (l < 17 || (32 ≤ l && l < 64)) && lseq < 65536) (s.act (W.on fun c =>
    if 32 ≤ l then
      let p := l - 32
      let x := c.port p
      if d = 0 && x.retrain && x.trained && !x.markTaken then
        let t := x.tx.restore lseq c.tick
        let c := c.updPort p fun x => { x with markTaken := true, tx := t.retake }
        if (Ctl.auditBad 8 hopB free ++ Ctl.auditBad 8 hopB (t.credits 8 hopB)).isEmpty then c.endPortRetrain p
        else (((c.updPort p fun x => { x with dead := 0x13 }).audit l 8 hopB free).audit l 8 hopB (t.credits 8 hopB)).settlePort p
      else c
    else
      let x := c.link l
      let bv := fun (_ : Nat) => d2dB
      if x.retrain && (x.dir d).markSent && !(x.dir d).markTaken && lseq = ((x.dir d).rx.next + 65535) % 65536 then
        let t := (x.dir d).tx.restore lseq c.tick
        let c := c.updLink l fun x => x.updDir d fun y => { y with markTaken := true, tx := t.retake }
        let bad := fun (n : List Nat) => (Ctl.auditBad 4 bv n).map fun v => (v, n.getD v d2dB, d2dB)
        if (bad free ++ bad (t.credits 4 bv)).isEmpty then c.endLinkRetrain l
        else
          (((c.updLink l fun x => { x with audit := x.audit ++ bad free ++ bad (t.credits 4 bv) }).audit l 4 bv free).audit l 4 bv
            (t.credits 4 bv)).setLinkSt l 4
      else c))

end Sys2Proof.Machine
end

