-- ==== Sys2Proof/Machine/Optics.lean ====
section
/-! DEFINITION. The optical edge: swatch test, ring loops, laser fade, slot moves, calibration, light and steering
(chapter 12). A row's port names the fibre pair of that number; direction 0 transmits. -/

namespace Sys2Proof.Machine

open Sys2Proof

namespace Ctl

/-- Whether every collective that uses a port is at a phase boundary (R439). -/
def portQuiet (c : Ctl) (p : Nat) : Bool :=
  c.colls.colls.vals.all fun k =>
    k.st != .running || k.hold.isSome ||
      (match c.router.tables.get? k.a.job with
        | some t => !((List.range t.lens.length).any fun d => bit k.a.dimMask d && (bit (t.mask d 0) p || bit (t.mask d 1) p))
        | none => true)

/-- The direction's warning that waits is over (R360). -/
def unwarn (f w : Nat) : Ctl → Ctl := updFibre f 0 fun d => { d with warn := Tab.del w d.warn }

/-- A laser that carries a data slot reaches its warning threshold (R358, R360): the slot under calibration on it stays on the spare;
otherwise the changeover waits, unless no spare is free, which is reported only. -/
def warnLaser (f j w : Nat) (c : Ctl) : Ctl :=
  let p := c.slotPort f j
  if (c.fibre f 0).copy.any fun k => k.cal && k.grid = w then (c.optEvent 0x0441 p 0 j w).finishCopy f 0 4
  else
    let c := c.makeRoom f 0
    let d := c.fibre f 0
    let c := if (freeSlot d).isSome || d.copy.isSome then c.updFibre f 0 fun d => { d with warn := Tab.set w c.tick d.warn } else c
    c.optEvent 0x0441 p 0 j w

/-- The next spare for a changeover of grid slot w: free, and not yet tried. -/
def nextSpare (d : FibreDir) (tried : List Nat) : Option Nat :=
  [16, 17].find? fun s => (d.grid.getD s {}).st = 0 && 6 ≤ (d.grid.getD s {}).margin && !tried.contains s

/-- A changeover begins on a free spare that has not failed the verification; where there is none nothing changes and the laser runs on
(R360). -/
def beginChangeover (f w : Nat) (tried : List Nat) (c : Ctl) : Ctl :=
  match (c.fibre f 0).map.find? (·.2 = w), nextSpare (c.fibre f 0) tried with
  | some x, some s => c.startCopy f 0 ⟨false, x.1, w, s, tried⟩
  | _, _ => (c.unwarn f w).drainWaiting f

end Ctl

/-- RING_LOOP_UPDATE (R354, R356, R371): a ring more than 10 GHz off for 1 µs, ten updates, or outside its heater's range is
unlocked; a filter ring without light holds by feedforward and is not. -/
def execRingLoopUpdate (f dir w : Nat) (reading : LoopReading) (heater : Nat) (outOfRange : Bool) (s : State) :
    Host.Outcome State Fault Refusal :=
  ret (f < 32 && dir < 2 && w < 18 && heater < 256) (s.act (W.on fun c =>
    let c := c.updGrid f dir w fun g => { g with
      offset := reading.offset, heater := heater, power := if dir = 0 then g.power else reading.power
      out := if 100 < reading.offset.natAbs && (dir = 0 || reading.light) then g.out + 1 else 0 }
    let c := if dir = 0 then c else c.setLit f w reading.light
    if outOfRange || 10 ≤ ((c.fibre f dir).grid.getD w {}).out then c.failGrid f dir w 6 else c))

/-- One reading of a laser's monitor (R359), in units of 0.01 dBm: the average is that of the last 100, one every 10 µs. -/
def Grid.take (p0 : Int) (g : Grid) (power : Int) : Grid :=
  let reads := lastN 100 (g.reads ++ [power])
  let low := decide (power ≤ p0 - 300)
  { g with
    power := power, reads := reads, low := low
    warned := g.warned || (reads.length = 100 && decide (reads.sum ≤ 100 * (p0 - 150)))
    floored := g.floored || (low && g.low) }

/-- LASER_MONITOR_READ (R359 to R361): a reading, after those of the last millisecond that have not been given yet. -/
def execLaserMonitorRead (f w : Nat) (power : Int) (earlier : List Int) (s : State) : Host.Outcome State Fault Refusal :=
  ret (f < 32 && w < 18) (s.act (W.on fun c =>
    let old := (c.fibre f 0).grid.getD w {}
    let g := (earlier ++ [power]).foldl (Grid.take (Config.laserP0 f w)) old
    let slot := (c.fibre f 0).map.find? (·.2 = w)
    let c := c.updGrid f 0 w fun _ => g
    let c := match slot with
      | some x => if g.warned && !old.warned then c.warnLaser f x.1 w else c
      | none => c
    if g.floored && !old.floored then c.failGrid f 0 w 5 else c))

/-- LASER_CHANGEOVER (R360): at a phase boundary, or 1 s after its warning, the data slot is sent on a free spare too; the next
row of the same laser says which spares the receiver has verified, and the slot goes over without loss or another spare is tried. -/
def execLaserChangeover (f w : Nat) (verified : List Nat) (s : State) : Host.Outcome State Fault Refusal :=
  ret (f < 32 && w < 18 && verified.all (· < 18)) (s.act (W.on fun c =>
    let d := c.fibre f 0
    let due := (d.warn.get? w).any fun t => (c.portsOn f).all c.portQuiet || decide (t + 1000000000 ≤ c.tick)
    match d.copy with
    | some k =>
      if k.cal then
        if !due then c
        else if k.grid = w then (c.finishCopy f 0 4).drainWaiting f
        else (c.makeRoom f 0).beginChangeover f w []
      else if k.grid != w then c
      else if verified.contains k.spare then (c.finishCopy f 0 4).drainWaiting f
      else (c.dropCopy f 0 0).beginChangeover f w (k.spare :: k.tried)
    | none => if due then c.beginChangeover f w [] else c))

/-- LANE_MOVE (R361): the far transmitter has moved a data slot to a spare, or retired it, and the receiver follows; a calibration
that the far end has ended ends here too (R358). -/
def execLaneMove (f j : Nat) (move : LaneMove) (s : State) : Host.Outcome State Fault Refusal :=
  ret (f < 32 && j < 16 && laneMoveOk move) (s.act (W.on fun c => (c.dropCopy f 1 0).moveSlot f 1 j move.cause move.spare))

/-- SLOT_FAIL_REPORT (R361, R362): the far receiver reports a data slot of this transmitter. -/
def execSlotFailReport (f j : Nat) (s : State) : Host.Outcome State Fault Refusal :=
  ret (f < 32 && j < 16) (s.act (W.on (Ctl.failSlot f 0 j 6)))

namespace Ctl

/-- Whether a grid slot was retired for ring unlock or for its error count: it is examined again (R364). -/
def reexam (d : FibreDir) (w : Nat) : Bool := (d.grid.getD w {}).st = 6 && !(d.grid.getD w {}).owner

/-- Whether a turn of R357 can come to the data slot of number w, or to the spare: in service with a free spare, or to be examined
again (R364). -/
def calTurn (d : FibreDir) (w : Nat) : Bool := (Tab.has d.map w && (freeSlot d).isSome) || reexam d w

/-- The next in turn, ascending from the last. -/
def calSlot (d : FibreDir) : Option Nat := ((List.range 18).map fun i => (d.calNext + i) % 18).find? (calTurn d)

/-- A grid slot retired by failure returns (R364): a data slot that a spare carries goes back to its own, and the spare is free again; one
that is retired comes back with a retrain; a spare without one is free. -/
def restoreSlot (f dir w : Nat) (c : Ctl) : Ctl :=
  let d := c.fibre f dir
  let j := if w < 16 then w else (d.grid.getD w {}).last
  let carry := fun (c : Ctl) => (c.updGrid f dir w fun g => { g with
    st := if w < 16 then 1 else 2, data := j, out := 0, errs := [] }).updFibre f dir fun d => { d with map := Tab.set j w d.map }
  match d.map.get? j with
  | some s => if w < 16 then (carry c).updGrid f dir s fun g => { g with st := 0, data := 255 } else c.updGrid f dir w fun g => { g with st := 0 }
  | none =>
    if j < 16 then
      match c.portOfQuad f (j / 4) with
      | some p => (carry c).retrainPort p
      | none => carry c
    else c.updGrid f dir w fun g => { g with st := 0 }

end Ctl

/-- CAL_INTERVAL_EXPIRE (R357, R358, R364): the data slot in turn is copied onto a free spare; the next row of the direction ends
the calibration, and it counts where both its copies were verified. A slot retired by failure gets one sweep, of the margin given. -/
def execCalIntervalExpire (f dir : Nat) (verified : Bool) (margin : Nat) (s : State) : Host.Outcome State Fault Refusal :=
  ret (f < 32 && dir < 2 && margin < 256) (s.act (W.on fun c =>
    let d := c.fibre f dir
    match d.copy with
    | some k =>
      if !k.cal then c
      else
        let c := if verified then c.updOPort (c.slotPort f k.slot) fun o => { o with cals := inc32 o.cals } else c
        c.dropCopy f dir 0
    | none =>
      if d.interval = 0 || c.tick < d.calDue then c
      else
        match Ctl.calSlot d with
        | none => c
        | some w =>
          let c := c.updFibre f dir fun d => { d with calNext := (w + 1) % 18, calDue := c.tick + d.interval }
          if Ctl.reexam d w then
            let c := c.updGrid f dir w fun g => { g with margin := min 24 margin }
            if 6 ≤ margin then c.restoreSlot f dir w else c
          else
            match d.map.get? w, Ctl.freeSlot d with
            | some x, some y => c.startCopy f dir ⟨true, w, x, y, []⟩
            | _, _ => c))

/-- A link of a port begins anew (R377): its totals count from here, and what had come of a packet is gone. -/
def Ctl.freshHop (p : Nat) : Ctl → Ctl :=
  Ctl.updPort p fun x => { x with
    ident := none, outcome := 0, dead := 0, retrain := false, trained := false, markSent := false, markTaken := false
    part := [], holes := []
    tx := { x.tx with next := 0, unacked := [], used := [], crSeen := [], txTotal := [], run := 0 }
    rx := { x.rx with next := 0, freed := [], told := [], counted := [], nak := false, gap := false } }

/-- SWATCH_COMPLETE (R349 to R352): the sweeps of the port in turn on its skein, as the far receiver measured the transmit direction and
this one the receive direction. The identity check follows. -/
def execSwatchComplete (p : Nat) (tx rx : List Sweep) (s : State) : Host.Outcome State Fault Refusal :=
  ret (p < 32 && sweepsOk tx && sweepsOk rx) (s.act (W.on fun c =>
    if c.swatchTurn (p / 4) != some p || !(c.port p).inq.isEmpty then c
    else ((((c.updOPort p fun o => { o with swatch := false }).formMaps p tx rx).passTurn p).freshHop p).judge p))

/-- NO_LIGHT_TIMEOUT (R353): light on no grid slot within 10 s of the lasers settling. -/
def execNoLightTimeout (p : Nat) (s : State) : Host.Outcome State Fault Refusal :=
  ret (p < 32) (s.act (W.on fun c =>
    let o := c.oport p
    if o.swatch && c.litSlots p = 0 && o.settled + 10000000000 ≤ c.tick then
      ((c.updOPort p fun o => { o with swatch := false, noLight := true }).passTurn p).judge p
    else c))

/-- LIGHT_RETURN (R353, R371, R400): light on at least 4 grid slots for 10 ms. A port without light, or FAILED, runs the
swatch test. -/
def execLightReturn (p : Nat) (s : State) : Host.Outcome State Fault Refusal :=
  ret (p < 32) (s.act (W.on fun c =>
    let o := c.oport p
    if !bit c.power.rails 5 || c.litSlots p < 4 || c.tick < o.lightAt + 10000000 then c
    else
      let c := c.updOPort p fun o => { o with lossDue := none }
      if o.swatch then c
      else if o.noLight || (c.port p).dead != 0 || ((c.port p).outcome < 2 && (c.portTarget p).1 = 4) then c.startSwatch p
      else if (c.port p).outcome = 6 then c.judge p
      else c))

/-- LIGHT_LOSS (R371): light on fewer than 4 grid slots for 1 ms: the port retrains and waits up to 100 ms. -/
def execLightLoss (p : Nat) (s : State) : Host.Outcome State Fault Refusal :=
  ret (p < 32) (s.act (W.on fun c =>
    let o := c.oport p
    if !bit c.power.rails 5 || 4 ≤ c.litSlots p || c.tick < o.lightAt + 1000000 || o.swatch || o.noLight || o.lossDue.isSome
        || (c.port p).dead != 0 || (c.port p).outcome = 6 then c
    else if (c.port p).outcome = 4 then c.judge p
    else (c.updOPort p fun o => { o with lossDue := some (c.tick + 100000000) }).retrainPort p))

/-- LIGHT_LOSS_TIMEOUT (R371): neither light nor a steer has restored the port: FAILED, and the replay buffer is
discarded. -/
def execLightLossTimeout (p : Nat) (s : State) : Host.Outcome State Fault Refusal :=
  ret (p < 32) (s.act (W.on fun c =>
    match (c.oport p).lossDue with
    | some t =>
      if t ≤ c.tick then
        ((c.updOPort p fun o => { o with lossDue := none }).updPort p fun x => { x with
          dead := 0x0E, retrain := false, tx := { x.tx with unacked := [] } }).settlePort p
      else c
    | none => c))

/-! Steering (R366 to R369). -/

/-- The fibre pair that a placement of skein pair m names: 0 to 7, else parked. -/
def placeOf (m x : Nat) : Nat := if x < 8 then 8 * m + x else 32

/-- Where a steer puts quad q of port p of its skein pair. -/
def steerPlace (m : Nat) (places : List Nat) (p q : Nat) : Nat := placeOf m (places.getD (4 * (p - 8 * m) + q) 15)

namespace Ctl

/-- The quads of a port that a steer moves. -/
def movedQuads (m : Nat) (places : List Nat) (c : Ctl) (p : Nat) : List Nat :=
  (List.range 4).filter fun q => (c.oport p).place.getD q p != steerPlace m places p q

/-- The ports whose quads a steer moves. -/
def steerMoves (m : Nat) (places : List Nat) (c : Ctl) : List Nat :=
  ((List.range 8).map (8 * m + ·)).filter fun p => !(c.movedQuads m places p).isEmpty

/-- The fibre pairs that a steer moves quads from or to. -/
def steerFibres (m : Nat) (places : List Nat) (c : Ctl) : List Nat :=
  ((List.range 8).map (8 * m + ·)).filter fun f =>
    (c.steerMoves m places).any fun p => (c.movedQuads m places p).any fun q =>
      (c.oport p).place.getD q p = f || steerPlace m places p q = f

/-- The moment of R367: every collective that uses a port it moves is at a phase boundary, and no changeover runs on a direction it
touches. -/
def steerReady (m : Nat) (places : List Nat) (c : Ctl) : Bool :=
  (c.steerMoves m places).all c.portQuiet && (c.steerFibres m places).all fun f => !(c.fibre f 0).copy.any (!·.cal)

/-- The quads of a port take their new places; those newly placed are to exchange identities (R366, R368), and light counts from
now on. -/
def placeQuads (m : Nat) (places : List Nat) (p : Nat) (c : Ctl) : Ctl :=
  let quads := c.movedQuads m places p
  c.updOPort p fun o => { o with
    place := (List.range 4).foldl (fun t q => Tab.set q (steerPlace m places p q) t) o.place
    awaiting := o.awaiting.filter (fun q => !quads.contains q) ++ quads.filter fun q => steerPlace m places p q < 32
    quadPeer := o.quadPeer.filter fun x => !quads.contains x.1
    mismatch := o.mismatch.filter fun q => !quads.contains q
    lightAt := c.tick }

/-- A moved port: one that was FAILED runs the swatch test once lit quads are on it (R371); otherwise it retrains, and one with a newly
placed quad passes a new identity check (R368). -/
def resumePort (failed : Bool) (p : Nat) (c : Ctl) : Ctl :=
  if (c.oport p).swatch then c
  else if failed then (if 0 < c.litSlots p then c.startSwatch p else c.settlePort p)
  else
    let c := if 4 ≤ c.litSlots p then c.updOPort p fun o => { o with lossDue := none } else c
    let c := if (c.oport p).awaiting.isEmpty then c else c.updPort p fun x => { x with ident := none, outcome := 0 }
    c.retrainPort p

/-- The quads of steer `id` move (R366, R367): calibrations on the fibre pairs they leave and reach end, and the ports retrain. -/
def steerApply (m id : Nat) (places : List Nat) (rest : List (Nat × List Nat)) (c : Ctl) : Ctl :=
  let old := c
  let moved := c.steerMoves m places
  let c := (c.steerFibres m places).foldl (fun c f => (c.dropCopy f 0 0).dropCopy f 1 0) c
  let c := moved.foldl (fun c p => c.placeQuads m places p) c
  let c := moved.foldl (fun c p => c.resumePort (decide ((old.portTarget p).1 = 4)) p) c
  { c with optics := { c.optics with
    steer := if rest.isEmpty then Tab.del m c.optics.steer else Tab.set m rest c.optics.steer
    steering := Tab.set m id c.optics.steering } }.steerDone m

end Ctl

/-- STEER_EXECUTE (R367): at the moment of R367 the oldest steer that waits is applied. -/
def execSteerExecute (m : Nat) (s : State) : Host.Outcome State Fault Refusal :=
  ret (m < 4) (s.act (W.on fun c =>
    match c.optics.steer.get? m with
    | some (x :: rest) => if c.steerReady m x.2 && !c.optics.steering.has m then c.steerApply m x.1 x.2 rest else c
    | _ => c))

/-! Commands of Table 12-8. -/

def laneDirArg (d : Nat) : Arg := Arg.num 1 (decide (d < 2))

/-- OPTIC_PORT_STATUS (R372). -/
def execOpticPortStatus (h : Hdr) (p : Nat) (s : State) : Host.Outcome State Fault Refusal :=
  mbxRow { op := 0x0440, roles := [0, 1, 2], lock := true } h [portArg p] [] s fun _ w => .ok (w.c.optStatus p) w

/-- The grid slot record (Table 12-7); a quad slot that no port's quad lies on is dark. -/
def gridRecord (c : Ctl) (f dir w : Nat) : List Byte :=
  let g := (c.fibre f dir).grid.getD w {}
  leBytes 1 (if w < 16 && (c.portOfQuad f (w / 4)).isNone then 7 else g.st) ++ leBytes 1 g.data ++ leBytes 2 (twos 16 g.power) ++ leBytes 1 g.margin ++ leBytes 1 g.heater
    ++ leBytes 1 (twos 8 g.offset) ++ leBytes 1 (if dir = 0 then twos 8 ((g.power - Config.laserP0 f w) / 10) else 0)

/-- OPTIC_SLOT_STATUS (R373). -/
def execOpticSlotStatus (h : Hdr) (p dir : Nat) (s : State) : Host.Outcome State Fault Refusal :=
  mbxRow { op := 0x0441, roles := [0, 2], lock := true } h [portArg p, laneDirArg dir] [] s fun _ w =>
    .ok ((List.range 18).flatMap (gridRecord w.c p dir)) w

/-- Whether two quads of a placement lie on one fibre quad slot (R367). -/
def placesClash (l : List Nat) : Bool :=
  !decide ((((List.range 32).filter fun i => l.getD i 15 < 8).map fun i => (i % 4, l.getD i 15))).Nodup

/-- OPTIC_STEER (R367): one byte per port and quad, 0 to 7 or 0x0F; steers of a pair take effect in turn, and each is answered once it is
complete. -/
def execOpticSteer (h : Hdr) (m : Nat) (places : List Nat) (s : State) : Host.Outcome State Fault Refusal :=
  let args := [Arg.num 1 (decide (m < 4)), Arg.blk 32 (places.length = 32 && places.all fun x => x < 8 || x = 15)]
  mbxRow { op := 0x0442, roles := [2] } h args [] s fun _ w =>
    if placesClash places then .fail 0x0107 (offOf args 1)
    else .wait (.steer w.c.optics.steerSeq) (w.on fun c => { c with optics := { c.optics with
      steer := Tab.upd m [] (· ++ [(c.optics.steerSeq, places)]) c.optics.steer, steerSeq := c.optics.steerSeq + 1 } })

/-- OPTIC_CAL_SET (R357): CAL_INTERVAL in nanoseconds; port 0xFF is every port. -/
def execOpticCalSet (h : Hdr) (p interval : Nat) (s : State) : Host.Outcome State Fault Refusal :=
  let args := [Arg.num 1 (p < 32 || p = 0xFF), Arg.num 8 (interval = 0 || (100000000 ≤ interval && interval ≤ 60000000000))]
  mbxRow { op := 0x0443, roles := [0] } h args [] s fun _ w =>
    let ports := if p = 0xFF then List.range 32 else [p]
    .ok (encode [.n 8 interval]) (w.on fun c => ports.foldl (fun c p => [0, 1].foldl (fun c d =>
      c.updFibre p d fun x => { x with interval := interval, calDue := c.tick + interval }) c) c)

/-- OPTIC_SWATCH_RUN (R349, R371): written at the outcome. -/
def execOpticSwatchRun (h : Hdr) (p : Nat) (s : State) : Host.Outcome State Fault Refusal :=
  mbxRow { op := 0x0444, roles := [0, 2] } h [portArg p] [] s fun _ w =>
    if !bit w.c.power.rails 5 then .fail 0x0205 0
    else .wait (.swatch p) (w.on (Ctl.startSwatch p))

/-- OWNER names a data slot (R362): it fails, and its grid slot is not examined again (R364). -/
def Ctl.ownerRetire (f dir j : Nat) (c : Ctl) : Ctl :=
  ((c.fibre f dir).map.get? j).elim c fun w => (c.updGrid f dir w fun g => { g with owner := true }).failSlot f dir j 6

/-- OPTIC_SLOT_RETIRE (R362), on the fibre pair that carries the data slot's quad: the spare chosen (0xFF none) and the width that
follows, written once the slot has moved. -/
def execOpticSlotRetire (h : Hdr) (p dir j : Nat) (s : State) : Host.Outcome State Fault Refusal :=
  mbxRow { op := 0x0445, roles := [0] } h [portArg p, laneDirArg dir, Arg.num 1 (decide (j < 16))] [] s fun _ w =>
    let f := (w.c.oport p).place.getD (j / 4) p
    let old := (w.c.fibre f dir).map.get? j
    if old.isNone then .fail 0x0204 0
    else
      let w := w.on (Ctl.ownerRetire f dir j)
      let new := (w.c.fibre f dir).map.get? j
      if new = old then .wait (.slotRetire f dir j) w
      else .ok (encode [.n 1 (new.getD 0xFF), .n 1 (w.c.portWidth p dir)]) w

end Sys2Proof.Machine
end

