-- ==== Sys2Proof/Machine/Stacks.lean ====
section
/-! DEFINITION. The rows of the memory stacks: commands, patrol, darning and lane training (chapter 7). -/

namespace Sys2Proof.Machine

/-! Commands of Table 7-9. -/

def stackArg (st : Nat) : Arg := Arg.num 1 (decide (st < 8))

/-- STACK_SCRUB_SET (R218, R235). -/
def execStackScrubSet (h : Hdr) (st hours : Nat) (s : State) : Host.Outcome State Fault Refusal :=
  mbxRow { op := 0x0230, roles := [0] } h [stackArg st, Arg.num 1 (1 ≤ hours && hours ≤ 168)] [] s fun _ w =>
    .ok (encode [.n 1 hours]) (w.on fun c => c.updStack st fun x => { x with hours })

/-- STACK_DARN (R235, R236). -/
def execStackDarn (h : Hdr) (st ch lane : Nat) (s : State) : Host.Outcome State Fault Refusal :=
  mbxRow { op := 0x0231, roles := [0] } h
    [stackArg st, Arg.num 1 (decide (ch < 128)), Arg.num 1 (decide (lane < 20))] [] s fun _ w =>
    let cn := (w.c.stack st).chan ch
    let pos := if lane < 16 then (if cn.carry.has lane then none else some lane)
      else (cn.carry.find? fun x => x.2 = lane).map (·.1)
    if !w.c.usable (7 + st) then .fail 0x0205 0
    else if cn.copy.isSome || cn.deadLanes.contains lane then .fail 0x0204 0
    else
      match pos with
      | some p =>
        match cn.freeSpare with
        | some sp => .ok (encode [.n 1 sp]) (w.on (Ctl.declareLane st ch p 5))
        | none => .fail 0x0301 0
      | none =>
        if lane < 16 then .fail 0x0204 0
        else
          let w := w.on (Ctl.onChan st ch fun c =>
            { c with usedUp := insNat lane c.usedUp, deadLanes := insNat lane c.deadLanes })
          .ok (encode [.n 1 0xFF]) (w.on (Ctl.stackLog st 0x04 ch lane 5 0xFF 0))

/-- STACK_LOG_READ (R234, R235). -/
def execStackLogRead (h : Hdr) (st first count : Nat) (s : State) : Host.Outcome State Fault Refusal :=
  mbxRow { op := 0x0232, roles := [0, 3] } h
    [stackArg st, Arg.num 4 (decide (first < 2 ^ 32)), Arg.num 1 (1 ≤ count && count ≤ 64)] [] s fun _ w =>
    .ok (encode [.list (((w.c.stack st).log.filter fun r => first ≤ r.seq).take count |>.map StackRec.bytes)]) w

/-- STACK_STATUS (R235): band, readings in units of 0.1 °C, write stop, activation limit, spares in use per channel
and the channels in erasure mode. -/
def execStackStatus (h : Hdr) (st : Nat) (s : State) : Host.Outcome State Fault Refusal :=
  mbxRow { op := 0x0233, roles := [0, 1], lock := true } h [stackArg st] [] s fun _ w =>
    let x := w.c.stack st
    .ok (encode [.n 1 x.band, .n 2 (twos 16 x.reading), .n 2 (twos 16 x.palReading), .n 1 (b2n (x.band = 4)),
      .n 1 x.actLimit, .raw 1 ((List.range 128).flatMap fun i => leBytes 1 (x.chan i).sparesInUse),
      bitmap 128 ((List.range 128).filter fun i => !(x.chan i).failed.isEmpty)]) w

/-! Patrol and darning. -/

/-- The darning copy at line pos of a channel (R223): read in erasure mode and written back with the spare in place. -/
def W.copyStep (st ch pos : Nat) (w : W) : W :=
  let a := lineAddr ch pos
  let r := (w.on (Ctl.onChan st ch fun c => { c with copyAt := pos })).readLine st a 3
  (r.2.writeStackLine st a r.1.1 r.1.2).on (Ctl.onChan st ch fun c => { c with copyAt := pos + 1 })

/-- The lines of a channel from number pos on in which the copy finds an error or poison, ascending. -/
def Mem.marked (m : Mem) (st ch pos : Nat) : List Nat :=
  let at_ := fun (l : Nat) => l * 64 - stackKey st 0
  ((m.errs.map errLine ++ m.poison).filter fun l =>
      decide (stackKey st 0 ≤ l * 64) && decide (l * 64 < stackKey (st + 1) 0) && channelOf (at_ l) = ch
        && decide (pos ≤ linePos (at_ l))).foldl (fun o l => insNat (linePos (at_ l)) o) []

/-- PATROL_READ (R218, R219): the next line of a channel, which delivers no data; symbols that have gone wrong come with it (R211).
It pauses in a write stop, and on a channel that is being darned the next line of the copy is read in its place (log 43). -/
def execPatrolRead (st ch : Nat) (flips : List Flip) (s : State) : Host.Outcome State Fault Refusal :=
  ret (st < 8 && ch < 128 && flipsOk flips) (s.act fun w =>
    let w := w.strike st flips
    let x := w.c.stack st
    let cn := x.chan ch
    if (w.c.entry (7 + st)).st < 2 || x.band = 4 then w
    else if cn.copy.isSome then (if cn.copyAt < chanLines then w.copyStep st ch cn.copyAt else w)
    else
      ((w.on (Ctl.onChan st ch fun c => { c with patrol := (c.patrol + 1) % chanLines })).readLine st (lineAddr ch cn.patrol) 2).2)

/-- DARN_COPY_COMPLETE (R223, Table 7-6 step 5): the copy reads and writes the lines it has not reached, then the spare carries
the position, erasure mode ends, and patrol resumes at the line where it paused (R219). The record names the lane that failed. -/
def execDarnCopyComplete (st ch : Nat) (s : State) : Host.Outcome State Fault Refusal :=
  ret (st < 8 && ch < 128) (s.act fun w =>
    let x := w.c.stack st
    match (x.chan ch).copy with
    | some (p, sp) =>
      if x.band = 4 || (x.chan ch).lost || (w.c.entry (7 + st)).st < 2 then w
      else ((w.b.mem.marked st ch (x.chan ch).copyAt).foldl (fun w pos => w.copyStep st ch pos) w).on fun c =>
        let lane := (x.chan ch).laneOf p
        let c := c.onChan st ch fun n => { n with
          copy := none, copyAt := 0, carry := Tab.set p sp n.carry, failed := n.failed.filter (· != p), pinRec := [] }
        let c := c.stackLog st 0x05 ch lane 3 0xFF 0
        c.event 0x0231 (c.lastRec st) { owner := true }
    | none => w)

/-- Lane training of one channel: each failed data lane goes to the lowest free spare, with no copy (R222). At a restart of
the stack, lanes darned before keep their spares, and a copy under way counts as done (R572); at a start-up every lane
comes back to service but those that fail. -/
def trainChan (restart : Bool) (failed : List Nat) : Chan → Chan := fun c0 =>
  let dead := failed.foldl (fun l x => insNat x l) (if restart then c0.deadLanes else [])
  let kept : Tab Nat := if restart then
      (match c0.copy with
        | some (p, sp) => Tab.set p sp c0.carry
        | none => c0.carry).filter fun (x : Nat × Nat) => !dead.contains x.2
    else []
  let c : Chan := { c0 with
    deadLanes := dead, carry := kept, failed := [], copy := none, copyAt := 0, lost := false, pinRec := [], patrol := 0
    usedUp := (kept.map (·.2) ++ if restart then c0.usedUp else []).foldl (fun l x => insNat x l) (dead.filter (16 ≤ ·)) }
  let c := (List.range 16).foldl (fun (c : Chan) p =>
    if dead.contains p && !c.carry.has p then
      match c.freeSpare with
      | some sp => { c with carry := Tab.set p sp c.carry, usedUp := insNat sp c.usedUp }
      | none => { c with failed := insNat p c.failed }
    else c) c
  { c with lost := decide (2 ≤ c.failed.length) }

/-- The records of a channel's lane training: lanes failed, and what could not be darned (Table 7-8, SOURCE 6). -/
def trainLog (st ch : Nat) (failed : List Nat) (c : Ctl) : Ctl :=
  let c := failed.foldl (fun c l => c.stackLog st 0x04 ch l 6 0xFF 0) c
  if failed.isEmpty then c
  else match ((c.stack st).chan ch).failed with
  | [] => c
  | [p] => c.stackLog st 0x06 ch p 6 0xFF 0
  | p :: q :: _ => (c.stackLog st 0x06 ch p 6 0xFF 0).stackLog st 0x07 ch q 6 0xFF 0

/-- Lanes that training finds failed in a channel. -/
def failedIn (ch : Nat) (failed : List (Nat × Nat)) : List Nat :=
  ((failed.filter (·.1 = ch)).map (·.2)).foldl (fun l x => insNat x l) []

/-- STACK_INIT_COMPLETE (R222, R225): every lane trained, every line written with zeros, and the state posted.
It follows the first housekeeping reading, and a write stop holds it (R231). -/
def execStackInitComplete (st : Nat) (failed : List (Nat × Nat)) (s : State) : Host.Outcome State Fault Refusal :=
  ret (st < 8 && failed.all fun f => f.1 < 128 && f.2 < 20) (s.act fun w =>
    if (w.c.entry (7 + st)).st != 1 || (w.c.stack st).firstReading || (w.c.stack st).band = 4 then w
    else
      let w := w.on fun c => c.updStack st fun x => { x with
        chans := (List.range 128).foldl (fun t ch =>
          if Tab.has t ch || !(failedIn ch failed).isEmpty then
            Tab.upd ch {} (trainChan (w.c.entry (7 + st)).restarting (failedIn ch failed)) t
          else t)
          x.chans
        initDone := true }
      let w := w.on fun c => (List.range 128).foldl (fun c ch => trainLog st ch (failedIn ch failed) c) c
      let w := { w with b := w.b.op (.zero (stackKey st 0) (2 ^ 37)) }
      let r := (w.c.stack st).health
      (w.on fun c => if (c.entry (7 + st)).restarting then c.endRestart (7 + st) r.1 r.2 else c.postNow (7 + st) r.1 r.2).releaseHeld st)

end Sys2Proof.Machine
end

