-- ==== Sys2Proof/Machine/Tiles.lean ====
section
/-! DEFINITION. The tiles at work: the mesh port and rendezvous, and the steps of
the array (chapters 5 and 6). -/

namespace Sys2Proof.Machine

open Sys2Proof

/-- Fabric address and memory key of line l of a move (R175). -/
def Move.ext_ (m : Move) (l : Nat) : Nat := (m.ext + l / m.lines * m.extPitch + l % m.lines * 64) % 2 ^ 64
def Move.os_ (m : Move) (l : Nat) : Nat := m.os + l / m.lines * m.osPitch + l % m.lines * 64

/-- Issue line requests of a move while fewer than 256 are outstanding, a tag is free and no earlier access to its slots is under
way (R122, R167, R175). -/
def W.issueLines (n id : Nat) : Nat → W → W
  | 0, w => w
  | fuel + 1, w =>
    match (w.c.tile n).inflight.find? (·.id = id) with
    | none => w
    | some f =>
      match f.move with
      | none => w
      | some m =>
        if m.total ≤ m.next || 256 ≤ w.c.outstanding n || !(w.c.tile n).slotsOpen n f then w
        else
          let store := f.unit = 6
          let data := if w.b.mem.isPoisoned (m.os_ m.next / 64) then zeros 64 else w.b.mem.readBytes (m.os_ m.next) 64
          let mask := b2n (w.b.mem.isPoisoned (m.os_ m.next / 64))
          let p := if store then Ctl.reqPkt 2 m.job (m.ext_ m.next) m.key mask data
            else Ctl.reqPkt 1 m.job (m.ext_ m.next) m.key 63 []
          match w.c.request (.tile n id m.next) p [] with
          | none => w
          | some (_, c) =>
            W.issueLines n id fuel { w with
              c := c.updTile n fun t => t.setInst { f with move := some { m with next := m.next + 1 } } }

/-- The bytes of a transfer into the receiver's store, line by line (R125, R188, R202). -/
def W.moveBytes (dst srcKey dstKey len : Nat) (merge : Bool) (w : W) : W :=
  let d := w.b.mem.readBytes srcKey len
  (cutLines (len + 1) dstKey d).foldl (fun w p =>
    let o := srcKey + (p.1 - dstKey)
    let bad := w.b.mem.anyPoison o p.2.length
    if merge then
      let r := mergeLine dst (p.1 - accBase dst) p.2 bad (w.c.tile dst) w.b
      { w with c := w.c.setTile dst r.1, b := r.2 }
    else if bad then { w with b := w.b.op (.poison (p.1 / 64)) }
    else { w with b := w.b.op (.line p.1 p.2) }) w

/-- The posted receive of tile d on a channel: the earliest RECV of the channel in flight. -/
def Tile.postedOn (t : Tile) (ch : Nat) : Option Inflight :=
  t.inflight.find? fun f => f.unit = 5 && f.xfer.any (·.chan = ch)

/-- The rendezvous of a SEND of tile n with the receive that stands (R188, R189), once each side may touch its slots (R122): unequal
lengths fault both. -/
def W.meet (n : Nat) (f : Inflight) (w : W) : Option W :=
  match f.xfer with
  | none => none
  | some x =>
    match (w.c.tile x.partner).postedOn x.chan with
    | none => none
    | some g =>
      match g.xfer with
      | none => none
      | some y =>
        if !y.posted || y.met || y.partner != n then none
        else if x.len != y.len then
          some (w.on fun c => (c.raiseTile n (f.raised 0x09 x.partner 0)).raiseTile x.partner (g.raised 0x09 n 0))
        else if !(w.c.tile n).slotsOpen n f || !(w.c.tile x.partner).slotsOpen x.partner g then none
        else
          let w := w.moveBytes x.partner x.addr y.addr x.len y.merge
          some (w.on fun c =>
            (c.updTile n fun t => t.setInst { f with xfer := some { x with met := true } }).updTile x.partner
              fun t => t.setInst { g with xfer := some { y with met := true } })

/-- Start what can start in the mesh units of a tile, in program order within each (R165, R167, R188). -/
def W.meshPump : Nat → Nat → W → W
  | 0, _, w => w
  | fuel + 1, n, w =>
    let go := fun (unit : Nat) (w : W) =>
      ((w.c.tile n).inflight.filter (·.unit = unit)).foldl (fun (st : W × Bool) f0 =>
        if st.2 then st
        else
          let w := st.1
          match (w.c.tile n).inflight.find? (·.id = f0.id) with
          | none => (w, false)
          | some f =>
            match f.move, f.xfer with
            | some m, _ =>
              let w := w.issueLines n f.id (m.total + 1 - m.next)
              (w, ((w.c.tile n).inflight.find? (·.id = f.id)).any fun g => g.move.any fun k => decide (k.next < k.total))
            | none, some x =>
              if unit = 6 then
                if x.met then (w, false)
                else
                  match w.meet n f with
                  | some w => (w, false)
                  | none => (w, true)
              else if x.posted then (if x.met then w else W.meshPump fuel x.partner w, false)
              else if ((w.c.tile n).postedOn x.chan).any (·.id = f.id) then
                let w := w.on fun c => c.updTile n fun t => t.setInst { f with xfer := some { x with posted := true } }
                (W.meshPump fuel x.partner w, false)
              else (w, true)
            | none, none => (w, false)) (w, false) |>.1
    go 6 (go 5 w)

/-- A response to a line request of a tile (R175, R176, R202): a READ writes its line with its poison. A fabric error raises
FABRIC_ERROR, and its instruction, whose line was never moved, does not complete: it leaves its unit once every request issued has
been answered (R166). -/
def W.tileLine (n id line : Nat) (res : Except Nat (List Byte × Nat)) (w : W) : W :=
  match (w.c.tile n).inflight.find? (·.id = id) with
  | none => w.meshPump 4 n
  | some f =>
    match f.move with
    | none => w
    | some m =>
      let bad : Bool := match res with
        | .error _ => true
        | .ok _ => false
      let m' := { m with back := m.back + 1, cut := m.cut || bad }
      let w1 := w.on fun c => c.updTile n fun t =>
        if m'.cut && m'.back = m.total then t.dropInst f.id
        else t.setInst { f with token := if bad then 0 else f.token, move := some m' }
      match res with
      | .error st => (w1.on (Ctl.raiseTile n (f.raised 0x08 (m.ext_ line) st))).meshPump 4 n
      | .ok (d, mask) =>
        let w2 :=
          if f.unit = 6 then w1
          else
            let k := m.os_ line
            if bit mask 0 then { w1 with b := w1.b.opsAll [.raw k (zeros 64), .poison (k / 64)] }
            else { w1 with b := w1.b.op (.line k (bytesAt d 0 64)) }
        w2.meshPump 4 n

/-! The sequencer. -/

/-- Whether the sequencer of a tile dispatches (R174, R191, R199). -/
def Tile.dispatching (t : Tile) : Bool := t.st = .running && t.wait.isNone && !t.ending

/-- A word that no row dispatches: a reserved opcode. -/
def reservedOp (w : Nat) : Bool := bits w 5 0 = 0 || 0x11 < bits w 5 0

/-- Whether the unit an instruction goes to has a free place; a bind-off also takes one at the element lanes
(Table 6-1). -/
def Tile.roomFor (t : Tile) (w : Nat) : Bool :=
  let bind : Bool := (bits w 5 0 = 5 && bits w 87 86 = 2) || (bits w 5 0 = 6 && bits w 112 111 = 2)
  !t.unitFull w && !((bind || unitOf w = 4) && decide (4 ≤ (t.inflight.filter (·.onLanes)).length))

/-- Lines of the tile's stores that the store's code finds uncorrectable: each carries poison from then on (R202). -/
def W.loseLines (n : Nat) (l : List (Bool × Nat)) (w : W) : W :=
  { w with b := w.b.opsAll (l.map fun x =>
      .poison (if x.1 then accBase n / 64 + x.2 % (accSize / 64) else opBase n / 64 + x.2 % (opSize / 64))) }

/-- One dispatch (R164, R165), after the lines lost in the stores are poisoned: nothing while the sequencer is held or the word at the PC is not this row's; a fault of
the fetch, of the PC or of a check; nothing while the unit's queue is full; else the instruction. -/
def W.dispatch (d : Dispatch) (mine : Nat → Bool) (go : Tile → Nat → W → W) (w : W) : W :=
  let n := d.tile
  let w := w.loseLines n d.lost
  let t := w.c.tile n
  let word := t.imem.getD t.pc 0
  if !t.dispatching then w
  else if 1023 < t.pc then w.on (Ctl.raiseTile n { code := 0x0B, pc := t.pc, unit := 0, replayId := t.replayNo })
  else if d.ecc then w.on (Ctl.raiseTile n ⟨0x0D, t.pc, 0, t.replayNo, word, 0, 0⟩)
  else if !reservedOp word && !mine word then w
  else
    match worst (checkWord t word (w.c.sameJob n)) with
    | some f => w.on (Ctl.raiseTile n ⟨f.code, t.pc, 0, t.replayNo, word, f.detail, 0⟩)
    | none => if t.roomFor word then go t word w else w

def opIs (o : Nat) (w : Nat) : Bool := bits w 5 0 = o

/-- The meaning of a tile instruction's row. -/
def tileRow (d : Dispatch) (mine : Nat → Bool) (go : Tile → Nat → W → W) (s : State) : Host.Outcome State Fault Refusal :=
  ret (d.tile < 192) (s.act (W.dispatch d mine go))

/-- Pass the instruction and give its unit the work. -/
def W.enter (n : Nat) (t : Tile) (word token : Nat) (f : Inflight → Inflight) (w : W) : W :=
  w.on fun c => c.setTile n (t.enqueue word token f).advance

/-- The move of a LOAD or STORE (R175, R176). -/
def moveOf (c : Ctl) (n : Nat) (t : Tile) (w : Nat) (store : Bool) : Move :=
  let base := t.bases.getD (bits w 19 16) (0, 0)
  { ext := t.extAddr w store 0 0, extPitch := bits w 110 91 * 64
    os := (if bit w 123 then accBase n else opBase n) + t.osAddr w store, osPitch := bits w 122 111 * 32
    lines := bits w 83 74 + 1, total := (bits w 83 74 + 1) * (bits w 90 84 + 1), key := base.2, job := c.tileJob n }

/-- LOAD (R175). -/
def execTileLoad (d : Dispatch) (s : State) : Host.Outcome State Fault Refusal :=
  tileRow d (opIs 0x01) (fun t w x =>
    (x.enter d.tile t w (bits w 127 124) fun f => { f with move := some (moveOf x.c d.tile t w false) }).meshPump 4 d.tile) s

/-- STORE (R175). -/
def execTileStore (d : Dispatch) (s : State) : Host.Outcome State Fault Refusal :=
  tileRow d (opIs 0x02) (fun t w x =>
    (x.enter d.tile t w (bits w 127 124) fun f => { f with move := some (moveOf x.c d.tile t w true) }).meshPump 4 d.tile) s

/-- FEED (R142, R177 to R179): its entries are committed, and the fetches begin. -/
def execTileFeed (d : Dispatch) (s : State) : Host.Outcome State Fault Refusal :=
  tileRow d (opIs 0x03) (fun t w x =>
    let fmt := bits w 19 16
    let entries := bits w 51 48 + 1
    let rows := bits w 58 52 + 1
    (x.enter d.tile (t.commit rows fmt entries) w 0 fun f => { f with fmt, total := rows * entries }).feedPump d.tile 4096) s

/-- HOLD (R144, R179, R180): it takes the first entries committed. -/
def execTileHold (d : Dispatch) (s : State) : Host.Outcome State Fault Refusal :=
  tileRow d (opIs 0x04) (fun t w x =>
    let n := bits w 26 23 + 1
    let fmt := (t.row 0).committed.headD 0
    x.enter d.tile (t.takeCommitted (bits w 22 16 + 1) n fmt) w 0 fun f => { f with fmt, total := n }) s

/-- MMA (R138, R149, R180, R181): the stream buffer starts fetching. -/
def execTileMma (d : Dispatch) (s : State) : Host.Outcome State Fault Refusal :=
  tileRow d (opIs 0x05) (fun t w x =>
    (x.enter d.tile t w (bits w 99 96) fun f => { f with
      total := issueSteps (bits w 19 16) (bits w 23 20) (bits w 32 24 + 1)
      glaze := if bits w 87 86 = 2 then t.glaze (bits w 95 93) else {} }).streamPump d.tile 256) s

/-- CONV (R149, R152, R182): the stream buffer starts fetching. -/
def execTileConv (d : Dispatch) (s : State) : Host.Outcome State Fault Refusal :=
  tileRow d (opIs 0x06) (fun t w x =>
    (x.enter d.tile t w (bits w 123 120) fun f => { f with
      total := issueSteps (bits w 19 16) (bits w 23 20) (convTaps w)
      glaze := if bits w 112 111 = 2 then t.glaze (bits w 119 117) else {} }).streamPump d.tile 256) s

/-- EW (R160, R187): its rows wait for the element lanes. -/
def execTileEw (d : Dispatch) (s : State) : Host.Outcome State Fault Refusal :=
  tileRow d (opIs 0x07) (fun t w x =>
    x.enter d.tile t w (bits w 98 95) fun f => { f with laneRows := bits w 90 81 + 1 }) s

/-- GLAZE in define form (R183). -/
def execGlazeDefine (d : Dispatch) (s : State) : Host.Outcome State Fault Refusal :=
  tileRow d (fun w => opIs 0x08 w && !bit w 16) (fun t w x =>
    let g : Glaze :=
      { op := bits w 21 20, opFmt := bits w 25 22, opAddr := bits w 41 26, opPitch := bits w 53 42, scaleEn := bits w 54 54
        scaleAddr := bits w 70 55, outFmt := bits w 74 71, outAddr := bits w 90 75, outPitch := bits w 102 91
        sat := bits w 103 103, rnd := bits w 104 104, outScale := bits w 120 105 }
    x.on fun c => c.setTile d.tile { t with glazes := Tab.set (bits w 19 17) g t.glazes }.advance) s

/-- GLAZE in apply form (R183, R186): its rows wait for the element lanes, and for the slot (R122). -/
def execGlazeApply (d : Dispatch) (s : State) : Host.Outcome State Fault Refusal :=
  tileRow d (fun w => opIs 0x08 w && bit w 16) (fun t w x =>
    x.enter d.tile t w (bits w 32 29) fun f => { f with laneRows := bits w 28 22 + 1, glaze := t.glaze (bits w 19 17) }) s

/-- SEND (R188). -/
def execTileSend (d : Dispatch) (s : State) : Host.Outcome State Fault Refusal :=
  tileRow d (opIs 0x09) (fun t w x =>
    let n := d.tile
    let v : Transfer :=
      { partner := bits w 23 16, chan := bits w 27 24, len := 32 * (bits w 58 45 + 1)
        addr := (if bit w 28 then accBase n else opBase n) + rebased (bits w 44 29) (t.ra w) }
    (x.enter n t w (bits w 62 59) fun f => { f with xfer := some v }).meshPump 4 n) s

/-- RECV (R188). -/
def execTileRecv (d : Dispatch) (s : State) : Host.Outcome State Fault Refusal :=
  tileRow d (opIs 0x0A) (fun t w x =>
    let n := d.tile
    let v : Transfer :=
      { partner := bits w 23 16, chan := bits w 27 24, len := 32 * (bits w 59 46 + 1), merge := bit w 29
        addr := (if bit w 28 then accBase n else opBase n) + rebased (bits w 45 30) (t.rb w) }
    (x.enter n t w (bits w 63 60) fun f => { f with xfer := some v }).meshPump 4 n) s

/-- WAIT (R191, R192): it ends the LATE counting of an earlier WAIT on its counter. -/
def execTileWait (d : Dispatch) (s : State) : Host.Outcome State Fault Refusal :=
  tileRow d (opIs 0x0B) (fun t w x =>
    let k := bits w 19 16
    let n := bits w 35 20
    let t := { t with shortfall := Tab.del k t.shortfall }
    let due := if bits w 51 36 = 0 then none else some (x.c.tick + 1024 * bits w 51 36)
    x.on fun c => c.setTile d.tile
      (if n ≤ t.token k then { t with tokens := Tab.set k (t.token k - n) t.tokens }.advance
       else { t with wait := some ⟨k, n, due⟩ })) s

/-- SIGNAL (R193). -/
def execTileSignal (d : Dispatch) (s : State) : Host.Outcome State Fault Refusal :=
  tileRow d (opIs 0x0C) (fun t w x =>
    let n := d.tile
    let a : AfterSignal := ⟨bits w 43 36, bits w 19 16, bits w 35 20, t.inflight.map (·.id)⟩
    if bit w 44 && !(t.inflight.isEmpty && t.after.isEmpty) then
      x.on fun c => c.setTile n { t with after := t.after ++ [a] }.advance
    else (x.on fun c => c.setTile n t.advance).on (Ctl.sendSignal n a)) s

/-- FENCE (R196): it passes once every earlier instruction of its classes is complete. -/
def execTileFence (d : Dispatch) (s : State) : Host.Outcome State Fault Refusal :=
  tileRow d (opIs 0x0D) (fun t w x =>
    if t.inflight.any fun f => bit w (16 + f.cls) then x else x.on fun c => c.setTile d.tile t.advance) s

/-- MARK (R197). -/
def execTileMark (d : Dispatch) (s : State) : Host.Outcome State Fault Refusal :=
  tileRow d (opIs 0x0E) (fun t w x =>
    x.on fun c => c.setTile d.tile
      { t with ranges := Tab.set (bits w 19 16) (t.pc + 1, t.pc + bits w 29 20) t.ranges }.advance) s

/-- REPLAY (R198). -/
def execTileReplay (d : Dispatch) (s : State) : Host.Outcome State Fault Refusal :=
  tileRow d (opIs 0x0F) (fun t w x =>
    let r := t.ranges.getD (bits w 19 16) (0, 0)
    x.on fun c => c.setTile d.tile { t with
      pc := r.1
      replay := some ⟨bits w 19 16, r.2, t.pc + 1, bits w 35 20, bits w 51 36, bits w 89 52, t.loops.length⟩ }) s

/-- LOOP (R172, R173). -/
def execTileLoop (d : Dispatch) (s : State) : Host.Outcome State Fault Refusal :=
  tileRow d (opIs 0x10) (fun t w x =>
    x.on fun c => c.setTile d.tile { t with
      pc := t.pc + 1
      loops := ⟨t.pc + 1, t.pc + bits w 25 16, bits w 41 26 - 1, [t.b1, t.b2, t.b3],
        [bits w 57 42, bits w 73 58, bits w 89 74]⟩ :: t.loops }) s

/-- END (R174): dispatch stops; the tile is IDLE once all is complete. -/
def execEndProgram (d : Dispatch) (s : State) : Host.Outcome State Fault Refusal :=
  tileRow d (opIs 0x11) (fun t _ x => x.on fun c => c.setTile d.tile { t with ending := true }) s

/-- TILE_DONE (R174). -/
def execTileDone (n : Nat) (s : State) : Host.Outcome State Fault Refusal :=
  ret (n < 192) (s.act (W.on fun c =>
    let t := c.tile n
    if t.st = .running && t.ending && t.inflight.isEmpty && t.after.isEmpty then
      (c.setTile n { t with st := .idle, ending := false }).event 0x0301 (encode [.n 1 n]) (c.starterOf n)
    else c))

/-- Whether a unit has done its part of an instruction (R139, R142, R144, R166). -/
def Tile.worked (t : Tile) (f : Inflight) : Bool :=
  match f.unit with
  | 1 => f.issued = f.total && (List.range f.rows).all fun i => (t.row i).fly.all (·.feed != f.id)
  | 2 => f.issued = f.total
  | 3 => f.issued = f.total && decide (f.array.rowCount + 126 ≤ f.since) && !f.draining
  | 4 => f.laneDone = f.laneRows
  | _ => (f.move.all fun m => m.back = m.total && !m.cut) && f.xfer.all (·.met)

/-- Whether an instruction is complete (R166), its unit keeping program order, and so the element lanes a bind-off's place
(Table 6-1). -/
def Tile.complete (t : Tile) (f : Inflight) : Bool :=
  t.worked f && (f.unit = 5 || f.unit = 6
    || t.inflight.all fun g => decide (f.id ≤ g.id) || (g.unit != f.unit && !(g.onLanes && f.onLanes)))

/-- INSTRUCTION_COMPLETE (R166, R193): the idx-th instruction in flight leaves its unit and raises its DONE_TOKEN;
signals that waited for it last are sent. -/
def execInstructionComplete (n idx : Nat) (s : State) : Host.Outcome State Fault Refusal :=
  ret (n < 192) (s.act fun w =>
    let t := w.c.tile n
    match t.inflight[idx]? with
    | none => w
    | some f =>
      if !t.complete f then w
      else
        let after := t.after.map fun a => { a with waits := a.waits.filter (· != f.id) }
        let ready := after.takeWhile (·.waits.isEmpty)
        let w := w.on fun c => c.setTile n
          { t with inflight := t.inflight.erase f, after := after.dropWhile (·.waits.isEmpty) }
        let w := if f.token = 0 then w else w.on (Ctl.addToken n f.token 1)
        (ready.foldl (fun w a => w.on (Ctl.sendSignal n a)) w).meshPump 4 n)

/-- WAIT_TIMEOUT_EXPIRE (R192); DETAIL 16 is log 75's. -/
def execWaitTimeoutExpire (n : Nat) (s : State) : Host.Outcome State Fault Refusal :=
  ret (n < 192) (s.act (W.on fun c =>
    let t := c.tile n
    match t.wait with
    | some x =>
      match x.due with
      | some due =>
        if due ≤ c.tick then
          (c.setTile n { t with
            timeouts := w32 (t.timeouts + 1), shortfall := Tab.set x.token (x.count - t.token x.token) t.shortfall }).raiseTile
            n ⟨0x06, t.pc, 0, t.replayNo, t.imem.getD t.pc 0, 16, 0⟩
        else c
      | none => c
    | none => c))

/-- ARRAY_STEP (R51, R141, R160, R589): one step of the tile's units, and of the mesh what its slots held back. -/
def execArrayStep (n : Nat) (s : State) : Host.Outcome State Fault Refusal :=
  ret (n < 192) (s.act fun w => (w.unitStep n).meshPump 4 n)

/-! Commands of Table 17-13. -/

def tileArg (n : Nat) : Arg := Arg.num 1 (decide (n < 192))

/-- Whether a session may act on a tile: OWNER on any, TENANT on those of its own jobs (Table 17-13). -/
def ownsTile (c : Ctl) (x : Ctx) (n : Nat) : Bool := x.role != 1 || (c.jobOfTile n).any x.jobs.contains

/-- What refuses a command on a tile: ownership, a job being torn down, a Canvas not ready (R430, R562). -/
def tileRefuse (c : Ctl) (x : Ctx) (n : Nat) : Option Nat :=
  if !ownsTile c x n then some 0x0404
  else if (c.jobOfTile n).any c.jobEnding then some 0x0206
  else if !c.usable (3 + n / 48) then some 0x0205
  else none

/-- A program block: 1 to 1,024 words of 16 bytes; a base-register block: 256 bytes whose padding is 0. -/
def progOk (b : List Byte) : Bool := b.length % 16 = 0 && 16 ≤ b.length && b.length ≤ 16384

def basesOk (b : List Byte) : Bool :=
  b.length = 256 && (List.range 16).all fun j => fieldAt b (16 * j + 11) 5 = 0

/-- TILE_LOAD_PROGRAM (R199, R531). -/
def execTileLoadProgram (h : Hdr) (n : Nat) (prog bases : Ref) (s : State) : Host.Outcome State Fault Refusal :=
  let args := [tileArg n, refArg s h prog, refArg s h bases]
  mbxRow { op := 0x0301, roles := [0, 1] } h args [prog, bases] s fun x w =>
    match tileRefuse w.c x n with
    | some e => .fail e 0
    | none =>
      if !progOk (refBlock s prog) then badArg args 1
      else if !basesOk (refBlock s bases) then badArg args 2
      else if (w.c.tile n).st = .running then .fail 0x0203 0
      else .ok [] (w.on fun c => c.updTile n (Tile.loadProgram (refBlock s prog) (refBlock s bases)))

/-- TILE_LOAD_MULTI: nothing is loaded if any tile is RUNNING. -/
def execTileLoadMulti (h : Hdr) (tiles : List Nat) (prog bases : Ref) (s : State) : Host.Outcome State Fault Refusal :=
  let args := [Arg.blk 24 (tiles.all (· < 192)), refArg s h prog, refArg s h bases]
  mbxRow { op := 0x0306, roles := [0, 1] } h args [prog, bases] s fun x w =>
    match tiles.findSome? (tileRefuse w.c x) with
    | some e => .fail e 0
    | none =>
      if !progOk (refBlock s prog) then badArg args 1
      else if !basesOk (refBlock s bases) then badArg args 2
      else if tiles.any fun n => (w.c.tile n).st = .running then .fail 0x0203 0
      else .ok [] (w.on fun c => tiles.foldl (fun c n => c.updTile n (Tile.loadProgram (refBlock s prog) (refBlock s bases))) c)

/-- TILE_START (R199). -/
def execTileStart (h : Hdr) (n pc : Nat) (s : State) : Host.Outcome State Fault Refusal :=
  mbxRow { op := 0x0302, roles := [0, 1] } h [tileArg n, Arg.num 2 (decide (pc < 1024))] [] s fun x w =>
    match tileRefuse w.c x n with
    | some e => .fail e 0
    | none =>
      if (w.c.tile n).st = .running then .fail 0x0204 0
      else .ok [] (w.on fun c => c.updTile n (Tile.start pc x.sid))

/-- TILE_START_MULTI (R532): the RUNNING ones are skipped. -/
def execTileStartMulti (h : Hdr) (tiles : List Nat) (pc : Nat) (s : State) : Host.Outcome State Fault Refusal :=
  mbxRow { op := 0x0307, roles := [0, 1] } h [Arg.blk 24 (tiles.all (· < 192)), Arg.num 2 (decide (pc < 1024))] [] s fun x w =>
    match tiles.findSome? (tileRefuse w.c x) with
    | some e => .fail e 0
    | none =>
      let go := tiles.filter fun n => (w.c.tile n).st != .running
      .ok (encode [bitmap 192 go]) (w.on fun c => go.foldl (fun c n => c.updTile n (Tile.start pc x.sid)) c)

/-- TILE_STOP (R199, R200, R526): an IDLE tile is in the wrong state; one that arrives at a FAULTED tile is counted. -/
def execTileStop (h : Hdr) (n : Nat) (s : State) : Host.Outcome State Fault Refusal :=
  mbxRow { op := 0x0303, roles := [0, 1] } h [tileArg n] [] s fun x w =>
    if !ownsTile w.c x n then .fail 0x0404 0
    else if (w.c.tile n).st = .idle then .fail 0x0204 0
    else .ok [] (w.on (Ctl.stopTile n))

/-- TILE_FAULT_READ (R201). -/
def execTileFaultRead (h : Hdr) (n : Nat) (s : State) : Host.Outcome State Fault Refusal :=
  mbxRow { op := 0x0304, roles := [0, 1] } h [tileArg n] [] s fun x w =>
    if !ownsTile w.c x n then .fail 0x0404 0 else .ok (encode [.raw 8 (w.c.tile n).faultRec.bytes]) w

/-- TILE_STATUS (Table 17-13). -/
def execTileStatus (h : Hdr) (n : Nat) (s : State) : Host.Outcome State Fault Refusal :=
  mbxRow { op := 0x0305, roles := [0, 1], lock := true } h [tileArg n] [] s fun x w =>
    let t := w.c.tile n
    if !ownsTile w.c x n then .fail 0x0404 0
    else
      .ok (encode ([.n 1 (tileStCode t.st), .n 2 t.pc] ++ (List.range 16).map (fun k => .n 2 (t.token k))
        ++ [.n 2 (w.c.outstanding n), bitmap 16 t.ranges.keys])) w

/-- TILE_SEED_RNG (R105, R106). -/
def execTileSeedRng (h : Hdr) (n : Nat) (seed : Long) (s : State) : Host.Outcome State Fault Refusal :=
  mbxRow { op := 0x0308, roles := [0, 1] } h [tileArg n, Arg.num 8 true] [] s fun x w =>
    match tileRefuse w.c x n with
    | some e => .fail e 0
    | none =>
      if (w.c.tile n).st = .running then .fail 0x0203 0
      else .ok [] (w.on fun c => c.updTile n fun t => { t with lanes := seedLanes seed.toNat })

/-- Reset a tile (R105, R532): stopped if it runs, then emptied and zeroed. -/
def W.resetTile (n : Nat) (w : W) : W :=
  let w := w.on fun c => if (c.tile n).st = .running then c.stopTile n else c
  let w := { w with b := w.b.opsAll [.zero (opBase n) opSize, .zero (accBase n) accSize] }
  w.on fun c => c.updTile n (tileReset n)

/-- TILE_RESET (R532). -/
def execTileReset (h : Hdr) (n : Nat) (s : State) : Host.Outcome State Fault Refusal :=
  mbxRow { op := 0x0309, roles := [0, 1] } h [tileArg n] [] s fun x w =>
    match tileRefuse w.c x n with
    | some e => .fail e 0
    | none => .ok [] (w.resetTile n)

end Sys2Proof.Machine
end

