-- ==== Sys2Proof/Machine/Palette.lean ====
section
/-! DEFINITION. The Palette engines: queues, the stores to their lines, the start and the completion of commands, and
the mailbox commands (chapter 8). -/

namespace Sys2Proof.Machine

open Sys2Proof

/-- The completion record (Table 8-6, R271). -/
def palRecord (st q : Nat) (cmd : List Byte) (n status done except firstBad tick : Nat) : List Byte :=
  leBytes 2 (palTag cmd) ++ leBytes 2 status ++ leBytes 1 q ++ leBytes 1 st ++ leBytes 1 (palOp cmd)
    ++ leBytes 1 ((n / 64 + 1) % 2) ++ leBytes 4 done ++ leBytes 4 except ++ leBytes 8 firstBad ++ leBytes 8 tick

/-! The stores to a queue's lines (R244 to R246). -/

/-- A store to a window line that passed the checks: acknowledged, or refused with a code. -/
def W.windowStore (p : Pkt) (f : Nat → Nat → Ctl → Except Nat Ctl × Ctl) (w : W) : W :=
  match w.c.useOf p with
  | .window st q =>
    match f st q w.c with
    | (.ok _, c) => ({ w with c := c }.on (Ctl.mark (4 * p.src + 1) p.flowSeq .ack)).on (Ctl.sendAck p)
    | (.error e, c) => ({ w with c := c }.on (Ctl.mark (4 * p.src + 1) p.flowSeq (.err e))).on (Ctl.sendErr p e)
  | _ => w

/-- PALETTE_CMD_STORE (R245). -/
def execPaletteCmdStore (p : Pkt) (s : State) : Host.Outcome State Fault Refusal :=
  ret (pktOk p) (s.act fun w =>
    if p.space = 3 && !bit p.offset 6 then
      w.atHome 2 p fun _ => W.windowStore p fun st q c =>
        c.palAccept st q (if p.offset % 64 = 0 then p.payload.drop 8 else [])
    else w)

/-- A HEAD store (R246): the count in bytes 0 to 3 takes effect between the head and the records written. -/
def Ctl.palHead (p : Pkt) (st q : Nat) (c : Ctl) : Except Nat Ctl × Ctl :=
  if p.offset % 64 != 0 || p.span < 4 || 64 < p.span then (.error 0x050A, c)
  else
    match c.palQueue st q with
    | none => (.error 0x050A, c)
    | some x =>
      let step := Ctl.diff32 (fieldAt p.payload 8 4) (x.head % 2 ^ 32)
      if step ≤ x.records - x.head then (.ok c, c.updQueue st q fun x => { x with head := x.head + step })
      else (.ok c, c.updStack st fun s => { s with badHead := inc32 s.badHead })

/-- PALETTE_HEAD_STORE (R246). -/
def execPaletteHeadStore (p : Pkt) (s : State) : Host.Outcome State Fault Refusal :=
  ret (pktOk p) (s.act fun w =>
    if p.space = 3 && bit p.offset 6 then w.atHome 2 p fun _ => W.windowStore p (Ctl.palHead p) else w)

/-! The start of a command (R247 to R259, R268, R270). -/

/-- Count the poisoned lines that an engine read, but for those that its own read has found to be beyond correction, and the
read-modify-writes it discarded (Table 7-5, R217). -/
def W.palPoison (st : Nat) (lost reads merges : List Nat) (w : W) : W :=
  let a := fun (l : Nat) => l * 64 - stackKey st 0
  let seen := (reads ++ merges).eraseDups.filter fun l => !lost.contains l
  let w := seen.foldl (fun w l =>
    w.on (Ctl.onChan st (channelOf (a l)) fun n => { n with poisonSeen := inc32 n.poisonSeen })) w
  merges.foldl (fun w l => w.mergePoison st (a l) 1) w

/-- The engine's reads of the lines of its stack in which errors stand (R214): each that the command reads, `run` being what it
does to memory, gets its outcome before the command goes on. Gives the lines found to be beyond correction. -/
def W.palReads (st : Nat) (cmd : List Byte) (run : Buf → Buf × PalRes) : Nat → List Nat → W → List Nat × W
  | 0, lost, w => (lost, w)
  | n + 1, lost, w =>
    let bad := ((w.b.mem.errs.map errLine).eraseDups.filter fun l =>
      decide (stackKey st 0 ≤ l * 64) && decide (l * 64 < stackKey (st + 1) 0) && !w.b.mem.isPoisoned l)
    if bad.isEmpty then (lost, w)
    else
      let m := bad.foldl Mem.setPoison w.b.mem
      let r := run ⟨m, []⟩
      match bad.find? fun l => r.2.poison.contains l || (palMerges cmd m r).contains l with
      | none => (lost, w)
      | some l =>
        let x := w.readLine st (l * 64 - stackKey st 0) 1
        W.palReads st cmd run n (if x.1.2 then lost ++ [l] else lost) x.2

/-- A command that starts: its record's fields, and the credit that its line operations hold until it completes (R240). -/
def W.palEnter (st q : Nat) (cmd : List Byte) (bank : Option Nat) (status : Nat) (r : PalRes) (w : W) : W :=
  w.on fun c => c.updStack st fun s => { s with
    execs := s.execs ++ [{ queue := q, cmd := cmd, status := status, done := r.done, except := r.except, firstBad := r.firstBad, bank := bank }]
    nonfinite := (s.nonfinite + r.nonfinite) % 2 ^ 32
    poisonOut := (s.poisonOut + r.poison.length) % 2 ^ 32 }

/-- The start of a queue's next command (R247, R249, R270): checked in full, and run. -/
def W.palStart (st q : Nat) (x : PalQueue) (cmd : List Byte) (w : W) : W :=
  let w := (w.on (Ctl.updQueue st q fun x => { x with started := x.started + 1, waiting := x.waiting.drop 1 })).on
    (Ctl.updStack st fun s => { s with turn := q })
  if w.c.stateOf (7 + st) = 4 then w.palEnter st q cmd none 0x0C {}
  else
    let rs := w.c.palRanges x
    let job := (w.c.jobs.get? x.job).map (·.tiles)
    let bad := palCheck cmd rs fun t => (job.getD []).contains t
    if bad != 0 then w.palEnter st q cmd none bad {}
    else
      let f := w.palReads st cmd (palRun st 0 cmd rs) w.b.mem.errs.length []
      let w := f.2
      let r := palRun st w.c.rc.freeCtr cmd rs ⟨w.b.mem, []⟩
      let w := w.on (Ctl.onRc fun x => { x with freeCtr := x.freeCtr + palFree cmd })
      ({ w with b := w.b.opsAll r.1.ops }.palPoison st f.1 r.2.poison (palMerges cmd w.b.mem r)).palEnter st q cmd (palBank cmd)
        r.2.status r.2

/-- The row of an opcode: it starts the queue's next command where that command is of the opcode (or has a reserved one) and
comes next in the rotation (R247). A write stop holds it (R242). -/
def palRow (op st q : Nat) (s : State) : Host.Outcome State Fault Refusal :=
  ret (st < 8 && q < 32) (s.act fun w =>
    match w.c.palQueue st q with
    | none => w
    | some x =>
      match x.waiting with
      | [] => w
      | cmd :: _ =>
        let mine := palOp cmd = op || palOp cmd = 0 || decide (9 < palOp cmd)
        if mine && w.c.palNext st = some q then w.palStart st q x cmd else w)

/-- EW (R250). -/
def execPaletteEw (st q : Nat) (s : State) : Host.Outcome State Fault Refusal := palRow 0x01 st q s
/-- ACCUM (R251). -/
def execPaletteAccum (st q : Nat) (s : State) : Host.Outcome State Fault Refusal := palRow 0x02 st q s
/-- SGD (R252 to R254). -/
def execPaletteSgd (st q : Nat) (s : State) : Host.Outcome State Fault Refusal := palRow 0x03 st q s
/-- ADAM (R252 to R254). -/
def execPaletteAdam (st q : Nat) (s : State) : Host.Outcome State Fault Refusal := palRow 0x04 st q s
/-- GATHER (R255). -/
def execPaletteGather (st q : Nat) (s : State) : Host.Outcome State Fault Refusal := palRow 0x05 st q s
/-- SCATTER (R256). -/
def execPaletteScatter (st q : Nat) (s : State) : Host.Outcome State Fault Refusal := palRow 0x06 st q s
/-- KV_APPEND (R257). -/
def execPaletteKvAppend (st q : Nat) (s : State) : Host.Outcome State Fault Refusal := palRow 0x07 st q s
/-- KV_COMPACT (R258). -/
def execPaletteKvCompact (st q : Nat) (s : State) : Host.Outcome State Fault Refusal := palRow 0x08 st q s
/-- DIGEST (R259). -/
def execPaletteDigest (st q : Nat) (s : State) : Host.Outcome State Fault Refusal := palRow 0x09 st q s

/-! Completion (R263, R267 to R272). -/

/-- Write a command's record to its queue's ring: none while the Palette has no tag free. -/
def Ctl.palWriteRecord (st q : Nat) (x : PalQueue) (out : List Byte) (c : Ctl) : Option Ctl :=
  match x.ring with
  | none => some c
  | some (addr, key) =>
    (c.request (.palette st q) (Ctl.reqPkt 2 x.job ((addr + 32 * (x.records % 64)) % 2 ^ 64) key 0 out) []).map fun r =>
      r.2.updQueue st q fun x => { x with records := x.records + 1 }

/-- The status a command that executes completes with (R269, R270). -/
def Ctl.palStatus (st : Nat) (e : PalExec) (c : Ctl) : Nat :=
  if e.status != 0x0B && c.stateOf (7 + st) = 4 then 0x0C else e.status

/-- The completion of a command: all its writes have been applied, then its record, then its token. None while a write stop
or a missing tag holds it. -/
def Ctl.palComplete (st idx : Nat) (c : Ctl) : Option (PalExec × Ctl) :=
  match (c.stack st).execs[idx]? with
  | none => none
  | some e =>
    match c.palQueue st e.queue with
    | none => none
    | some x =>
      if (c.stack st).band = 4 then none
      else
        let status := c.palStatus st e
        let out := palRecord st e.queue e.cmd x.records status e.done e.except e.firstBad c.tick
        (c.palWriteRecord st e.queue x out).map fun c =>
          let c := c.updStack st fun s => { s with
            execs := s.execs.eraseIdx idx
            cmdsDone := inc32 s.cmdsDone
            cmdsFailed := if status = 0 then s.cmdsFailed else inc32 s.cmdsFailed }
          let c := c.updQueue st e.queue fun x => { x with completed := x.completed + 1 }
          let token := palTokenEn e.cmd && status != 0x0B && (c.jobOfTile (palTile e.cmd) = some x.job)
          let c := if token then c.addToken (palTile e.cmd) (palToken e.cmd % 16) 1 else c
          let c := if status = 0x07 || status = 0x0C then
              c.event 0x0240 (encodeEv [.raw 8 out]) { starter := some (x.session, x.job) }
            else c
          ({ e with status := status }, if x.closing && !c.queueBusy st e.queue then c.dropQueue st e.queue else c)

/-- The serving engine sees the end of a command of its own queue: the move of pages (R488), a KV_APPEND that ends POISON or
PAGE_MISSING (R489), a place in the queue. -/
def W.servePal (st : Nat) (e : PalExec) (w : W) : W :=
  match w.c.serve.model with
  | none => w
  | some m =>
    if (m.pools.get? st).all (fun p => p.queue != e.queue) then w
    else if palOp e.cmd = 8 then w.movesDone st
    else if e.status = 0x07 || e.status = 0x09 then (w.on Ctl.serveFault).serveKick
    else w.on Ctl.pumpAppends

/-- PALETTE_COMMAND_COMPLETE (R263, R267 to R272). -/
def execPaletteCommandComplete (st idx : Nat) (s : State) : Host.Outcome State Fault Refusal :=
  ret (st < 8) (s.act fun w =>
    match w.c.palComplete st idx with
    | some (e, c) => W.servePal st e { w with c := c }
    | none => w)

/-! Mailbox commands (Table 8-7). -/

def queueArg (q : Nat) : Arg := Arg.num 1 (decide (q < 32))

/-- The first refusal of R243 for the region numbers of a new queue. -/
def palRegionsFail (c : Ctl) (x : Ctx) (st job : Nat) (l : List Nat) : Option Nat :=
  let rs := l.map fun n => c.fabric.regions.get? n
  if rs.any fun r => r.all (·.zeroing) then some 0x0503
  else
    let rs := rs.filterMap id
    if rs.any fun r => !x.owns r.job then some 0x0404
    else if rs.any fun r => r.job != job then some 0x0107
    else if rs.any fun r => r.space != 2 || stackOf r.base != st then some 0x0102
    else none

/-- PALETTE_QUEUE_CREATE (R243). -/
def execPaletteQueueCreate (h : Hdr) (st job : Nat) (regions : List Nat) (ring : Option (Nat × Nat)) (s : State) :
    Host.Outcome State Fault Refusal :=
  let ra := (ring.map (·.1)).getD (2 ^ 64 - 1)
  let args := [stackArg st, Arg.num 2 (1 ≤ job && job < 65536)] ++ listArgs regions.length (decide (regions.length ≤ 8))
    ++ [Arg.num 8 (decide (ra < 2 ^ 64)), Arg.num 4 (decide ((ring.map (·.2)).getD 0 < 2 ^ 24))]
  mbxRow { op := 0x0240, roles := [0, 1] } h args (inlineBlocks h args (listBlocks regions.length)) s fun x w =>
    match jobCheck w.c x job 18 with
    | some (e, d) => .fail e d
    | none =>
      if !w.c.usable (7 + st) then .fail 0x0205 0
      else
        match palRegionsFail w.c x st job regions with
        | some e => .fail e (if e = 0x0102 || e = 0x0107 then offOf args 2 else 0)
        | none =>
          if 8 < regions.length then badArg args 2
          else
            match (w.c.stack st).queues.firstFree 0 32 with
            | none => .fail 0x0301 0
            | some q =>
              match w.c.addRegion { space := 3, base := st * 2 ^ 37 + q * 128, len := 128, job, perm := 2, opn := 0,
                                    repl := 0, key := 0, use := .window st q } with
              | none => .fail 0x0301 0
              | some (n, k, c) =>
                .ok (encode [.n 1 q, .n 2 n, .n 4 k])
                  { w with
                    c := c.updStack st fun y => { y with
                      queues := Tab.set q { job, regions := w.c.bindRegions regions, ring, window := n, session := x.sid } y.queues } }

/-- Look a queue up for a command (R522). -/
def palQueueFor (c : Ctl) (x : Ctx) (st q : Nat) (args : List Arg) : Except Res PalQueue :=
  match c.palQueue st q with
  | none => .error (badArg args 1)
  | some p => if x.owns p.job then .ok p else .error (.fail 0x0404 0)

/-- PALETTE_QUEUE_DESTROY (R269). -/
def execPaletteQueueDestroy (h : Hdr) (st q : Nat) (s : State) : Host.Outcome State Fault Refusal :=
  let args := [stackArg st, queueArg q]
  mbxRow { op := 0x0241, roles := [0, 1] } h args [] s fun x w =>
    match palQueueFor w.c x st q args with
    | .error r => r
    | .ok p =>
      if p.closing then .fail 0x0204 0
      else if w.c.queueBusy st q then .wait (.paletteQueue st q) (w.on (Ctl.stopQueue st q))
      else .ok [] (w.on (Ctl.stopQueue st q))

/-- PALETTE_QUEUE_STATUS (Table 8-7). -/
def execPaletteQueueStatus (h : Hdr) (st q : Nat) (s : State) : Host.Outcome State Fault Refusal :=
  let args := [stackArg st, queueArg q]
  mbxRow { op := 0x0242, roles := [0, 1], lock := true } h args [] s fun x w =>
    match palQueueFor w.c x st q args with
    | .error r => r
    | .ok p =>
      .ok (encode [.n 4 p.accepted, .n 4 p.started, .n 4 p.completed, .n 4 p.head,
        .n 1 ((w.c.stack st).execs.filter fun e => e.queue = q && e.started).length]) w

/-- PALETTE_STATUS (R272, Table 8-7); the pacing level is that of the Palette reading (R241). -/
def execPaletteStatus (h : Hdr) (st : Nat) (s : State) : Host.Outcome State Fault Refusal :=
  mbxRow { op := 0x0243, roles := [0, 1], lock := true } h [stackArg st] [] s fun _ w =>
    let y := w.c.stack st
    .ok (encode [.n 1 y.actLimit, .n 1 (y.execs.filter (·.started)).length, .n 4 y.cmdsDone, .n 4 y.cmdsFailed,
      .n 4 y.nonfinite, .n 4 y.poisonOut, .n 4 y.rejects, .n 4 y.badHead]) w

end Sys2Proof.Machine
end

