-- ==== Sys2Proof/Machine/Colls.lean ====
section
/-! DEFINITION. The collective engine: algorithms and steps, contributions and late policies, votes and commit
(chapter 15). -/

namespace Sys2Proof.Machine

open Sys2Proof

/-! Steps (R438, Table 15-2). -/

/-- A step of a generation: the TYPE of its packets; the phase it belongs to; what this member sends, as recipients,
blocks and, for a multicast, the masked dimension; what it awaits, as member and blocks; the blocks it owns in a DIRECT
reducing step, where alone the late policy acts (R448). -/
structure CStep where
  type : Nat
  phase : Nat
  sends : List (List Nat × List Nat × Option Nat)
  await : List (Nat × List Nat)
  own : List Nat := []
  reducing : Bool := false
  deriving DecidableEq, Repr

/-- The steps of one half in the i-th masked dimension. RING passes one chunk a step to the + neighbour; DIRECT sends
every chunk to its owner, or multicasts the owner's chunk. -/
def halfSteps (a : CollArgs) (ds : List CDim) (reduce : Bool) (i : Nat) : List CStep :=
  match ds[i]? with
  | none => []
  | some d =>
    let l := d.len
    let phase := if reduce then i else 2 * ds.length - 1 - i
    let type := if reduce then 0x20 else 0x21
    if l < 2 then []
    else if a.direct then
      let others := (List.range l).filter (· != d.me)
      if reduce then
        [{ type, phase
           sends := others.map fun j => ([peerIndex ds i j], chunkOf ds i j, none)
           await := others.map fun j => (peerIndex ds i j, chunkOf ds i d.me)
           own := chunkOf ds i d.me
           reducing := true }]
      else
        [{ type, phase
           sends := [(others.map (peerIndex ds i), chunkOf ds i d.me, some i)]
           await := others.map fun j => (peerIndex ds i j, chunkOf ds i j) }]
    else
      (List.range (l - 1)).map fun s =>
        let k := if reduce then 1 else 0
        { type, phase
          sends := [([peerIndex ds i ((d.me + 1) % l)], chunkOf ds i ((d.me + 2 * l - s - k) % l), none)]
          await := [(peerIndex ds i ((d.me + l - 1) % l), chunkOf ds i ((d.me + 2 * l - s - k - 1) % l))] }

/-- The steps of a generation in order; a contribution of no elements is not awaited. -/
def Coll.plan (k : Coll) : List CStep :=
  let n := k.dims.length
  let c := collSize k.dims
  let others := (List.range c).filter (· != k.self)
  let up := (List.range n).flatMap fun i => halfSteps k.a k.dims true i
  let down := (List.range n).reverse.flatMap fun i => halfSteps k.a k.dims false i
  let l : List CStep := match k.a.op with
    | 1 => up ++ down
    | 2 => up
    | 3 => down
    | 4 => [{ type := 0x22, phase := 0, sends := others.map fun j => ([j], [j], none), await := others.map fun j => (j, [j]) }]
    | _ =>
      [{ type := 0x23, phase := 0
         sends := if k.self = k.a.root && 1 < c then [(others, List.range c, some 0)] else []
         await := if k.self = k.a.root then [] else [(k.a.root, List.range c)] }]
  l.map fun s => { s with await := s.await.filter fun x => blocksLen k.a.count c x.2 != 0 }

def Coll.size (k : Coll) : Nat := collSize k.dims
def Coll.lenOf (k : Coll) (l : List Nat) : Nat := blocksLen k.a.count k.size l

/-- Reducing steps of a generation. -/
def Coll.reduceSteps (k : Coll) : Nat := if k.a.reduces then (k.plan.filter (·.type = 0x20)).length else 0

/-- The shadow that generation g writes (R440). -/
def Coll.shadow (k : Coll) : Nat := if k.a.commitMode = 1 || k.gen % 2 = 1 then k.a.out1 else k.a.out0

def Coll.work (k : Coll) : Nat := ((if k.gen % 2 = 0 then k.a.work0 else k.a.work1)).getD 0

/-- CARRY[g mod 2] of a generation. -/
def Coll.carryBuf (k : Coll) (g : Nat) : Option Nat := if g % 2 = 0 then k.a.carry0 else k.a.carry1

/-- Elements that the input and the output of a member hold (Table 15-1). -/
def Coll.inLen (k : Coll) : Nat := if k.a.op = 3 then k.lenOf [k.self] else k.a.count
def Coll.outLen (k : Coll) : Nat := if k.a.op = 2 then k.lenOf [k.self] else k.a.count

/-- Bits of an element (Table 6-3). -/
def elemW (fmt : Nat) : Nat := (fmtD fmt).width

/-! Elements in memory. -/

/-- n elements from element o of a buffer, and whether a line of them is poisoned. -/
def W.readElems (addr fmt o n : Nat) (w : W) : (List Byte × Bool) × W :=
  let s := o * elemW fmt
  let m := n * elemW fmt
  let r := w.readRange (bits addr 47 44) (bits addr 43 0 + s / 8) (ceilDiv (s % 8 + m) 8) 0
  ((leBytes (ceilDiv m 8) (ofLE r.1.1 >>> (s % 8) % 2 ^ m), r.1.2 != 0), r.2)

/-- Write n elements at element o of a buffer; the bits of a byte that belong to other elements stay. -/
def W.writeElems (addr fmt o n : Nat) (d : List Byte) (w : W) : W :=
  let s := o * elemW fmt
  let m := n * elemW fmt
  let sp := bits addr 47 44
  let off := bits addr 43 0 + s / 8
  if s % 8 = 0 && m % 8 = 0 then w.writeRange sp off (d.take (m / 8)) 0 0
  else
    let len := ceilDiv (s % 8 + m) 8
    let r := w.readRange sp off len 0
    let x := ofLE r.1.1
    let v := x % 2 ^ (s % 8) + ofLE d % 2 ^ m * 2 ^ (s % 8) + x >>> (s % 8 + m) * 2 ^ (s % 8 + m)
    r.2.writeRange sp off (leBytes len v) 0 0

/-- Elements of a byte string of a format. -/
def elemCount (fmt : Nat) (d : List Byte) : Nat := d.length * 8 / elemW fmt

/-- Enter element i of contribution bytes into a pair: a pair is merged by R123, a scalar entered by R114 (R436). -/
def enterElem (fmt : Nat) (d : List Byte) (i : Nat) (p : Pair32) : Pair32 :=
  let x := p.take
  if fmt = 5 then
    let y := (Pair32.ofBytes (bytesAt d (8 * i) 8)).take
    (mergePair x.1 x.2 y.1 y.2).code
  else (addEntry x.1 x.2 ((fmtD fmt).value (elemBits (fmtD fmt) d i))).code

/-- The first contribution of a sum: a pair is copied, a scalar cast on (Table 4-2). -/
def castOn (fmt : Nat) (d : List Byte) (i : Nat) : Pair32 :=
  if fmt = 5 then
    let y := (Pair32.ofBytes (bytesAt d (8 * i) 8)).take
    ⟨enc32 y.1, enc32 y.2⟩
  else enterElem fmt d i Pair32.zero

def pairsOf (d : List Byte) : List Pair32 := (List.range (d.length / 8)).map fun i => Pair32.ofBytes (bytesAt d (8 * i) 8)

/-- A partial sum in the collective's format: rounded once (R127, R436). -/
def handOff (fmt : Nat) (ps : List Pair32) : List Byte :=
  if fmt = 5 then ps.flatMap Pair32.bytes
  else packElems (fmtD fmt) (ps.map fun p => ((fmtD fmt).spec.convert false .rne (pairValue p.take)).code)

/-- Merge contribution elements into the pairs from element o of a buffer of pairs; false where a line is poisoned. -/
def W.mergePairs (addr fmt o n : Nat) (d : List Byte) (w : W) : Bool × W :=
  let r := w.readElems addr 5 o n
  if r.1.2 then (false, r.2)
  else
    let ps := (pairsOf r.1.1).zipIdx.map fun x => enterElem fmt d x.2 x.1
    (true, r.2.writeElems addr 5 o n (ps.flatMap Pair32.bytes))

/-! Packets. -/

/-- Elements in one packet: at most 4,088 bytes of them, whole bytes (R449). -/
def perPacket (fmt : Nat) : Nat := 32704 / elemW fmt / 4 * 4

/-- Cut n elements from element o into packets: offset and count. -/
def cutElems (per : Nat) : Nat → Nat → Nat → List (Nat × Nat)
  | 0, _, _ => []
  | f + 1, o, n => if n = 0 then [] else (o, min per n) :: cutElems per f (o + per) (n - per)

def Coll.packet (k : Coll) (type step dest : Nat) (mc : Option (Nat × Nat × Nat)) (payload : List Byte) : Pkt :=
  { type, flags := b2n mc.isSome, dest, src := 0, flowSeq := 0, gen := k.gen, job := k.a.job, tag := 0, vc := 0, hopLimit := 192
    mcDim := (mc.map (·.1)).getD 0, mcPlus := (mc.map (·.2.1)).getD 0, mcMinus := (mc.map (·.2.2)).getD 0, key := 0
    typeArg := k.a.id + step % 256 * 256 + k.attempt % 256 * 65536, payload, crcOk := true, rsvdZero := true }

/-- The extents of a multicast to the whole line of a masked dimension (R394). -/
def mcExtents (d : CDim) : Nat × Nat × Nat :=
  if d.ring then (d.dim, d.len / 2, d.len - 1 - d.len / 2) else (d.dim, d.len - 1 - d.me, d.me)

/-- The blocks that a send reads, as (first element, length, OFFSET for the receiver). -/
def Coll.pieces (k : Coll) (s : CStep) (blocks : List Nat) : List (Nat × Nat × Nat) :=
  let c := k.size
  (blocks.flatMap fun p =>
    let lo := blockLo k.a.count c p
    (cutElems (perPacket k.a.fmt) (blockLen k.a.count c p + 1) lo (blockLen k.a.count c p)).map fun x =>
      (x.1, x.2, if s.type = 0x22 then blockLo k.a.count c k.self + (x.1 - lo) else x.1))

/-- The data of a piece at its sender: the partial sum for a contribution, the input for an exchange or a broadcast, the
shadow output for a gather. -/
def W.pieceData (k : Coll) (s : CStep) (o n : Nat) (w : W) : (List Byte × Bool) × W :=
  if s.type = 0x20 then
    let r := w.readElems k.work 5 o n
    ((handOff k.a.fmt (pairsOf r.1.1), r.1.2), r.2)
  else w.readElems (if s.type = 0x21 then k.shadow else k.a.bufIn) k.a.fmt o n

/-- The packets of a step's sends; none where a line read is poisoned. -/
def W.stepPackets (k : Coll) (step : Nat) (s : CStep) (w : W) : Option (List Pkt) × W :=
  s.sends.foldl (fun (st : Option (List Pkt) × W) x =>
    (k.pieces s x.2.1).foldl (fun (st : Option (List Pkt) × W) (pc : Nat × Nat × Nat) =>
      match st.1 with
      | none => st
      | some l =>
        let r := st.2.pieceData k s pc.1 pc.2.1
        if r.1.2 then (none, r.2)
        else
          let pay := leBytes 8 pc.2.2 ++ r.1.1
          let ps := match x.2.2 with
            | some i => [k.packet s.type step (k.members.getD k.self 0) ((k.dims[i]?).map mcExtents) pay]
            | none => x.1.map fun j => k.packet s.type step (k.members.getD j 0) none pay
          (some (l ++ ps), r.2)) st) (some [], w)

/-! Phase boundaries (R439). -/

namespace Ctl

/-- Whether a laser changeover or a steer waits for a port, or runs. -/
def opticPending (c : Ctl) (p : Nat) : Bool := c.optics.steer.has (p / 8) || c.optics.steering.has (p / 8) || c.warnWaiting p

/-- Whether one waits for a port of the collective's masks. -/
def collHeld (c : Ctl) (k : Coll) : Bool :=
  match c.router.tables.get? k.a.job with
  | none => false
  | some t => k.dims.any fun d => (bitList (t.mask d.dim 0 ||| t.mask d.dim 1) 32).any c.opticPending

/-- Whether the engine must wait for a buffer at a fabric address: its stack is in write stop (R231), or the Easel does not reach
it (R23, R45; log 78). -/
def bufferWaits (c : Ctl) (a : Nat) : Bool :=
  (bits a 47 44 = 2 && (c.stack (stackOf (bits a 43 0))).band = 4) || !c.easelReaches (bits a 47 44) (bits a 43 0)

/-- Whether a buffer of the collective keeps it waiting. -/
def collStopped (c : Ctl) (k : Coll) : Bool := k.a.buffers.any c.bufferWaits

/-- Read a collective's shape from its job's routing table (R434). -/
def readShape (id : Nat) (c : Ctl) : Ctl :=
  c.updColl id fun k =>
    match c.router.tables.get? k.a.job with
    | some t =>
      let ds := collDims t k.a.dimMask
      { k with
        dims := ds
        members := collMembers t ds
        self := selfIndex ds }
    | none => k

/-- The token of a record of KIND 0, 1 or 2 (R467). -/
def collToken (tile token : Nat) (c : Ctl) : Ctl := if tile < 192 then c.addToken tile token 1 else c

/-! Barriers (R461). -/

/-- Member m arrived last at a barrier: SUSPECT over the last 64 (R461). -/
def barrier (id m : Nat) (c : Ctl) : Ctl :=
  match c.colls.colls.get? id with
  | none => c
  | some k =>
    let l := lastN 64 (k.lastIn ++ [m])
    let n := fun (x : Nat) => (l.filter (· = x)).length
    let keep := k.suspects.filter fun x => decide (k.share / 2 < n x)
    let mark := k.share < n m
    let sus := if mark && !keep.contains m then keep ++ [m] else keep
    let tell := mark && decide (64 ≤ k.suspectAge)
    let c := c.updColl id fun k => { k with
      lastIn := l
      suspects := sus
      suspectAge := if tell then 1 else k.suspectAge + 1 }
    if tell then c.event 0x0511 (encode [.n 1 id, .n 4 k.gen, .n 1 (k.attempt % 256), .n 2 m]) (toJob k.a.job) else c

/-! Votes (R444). -/

/-- A VOTE bitmap to every collective neighbour (Table 15-4). -/
def voteSend (id gen attempt : Nat) (votes : List Nat) (c : Ctl) : Ctl :=
  match c.colls.colls.get? id with
  | none => c
  | some k =>
    let n := k.size
    let nbrs : List (Nat × Nat × Nat) := match c.router.tables.get? k.a.job with
      | some t => nbrDirs t k.a.dimMask
      | none => []
    let ps := (List.range (ceilDiv n 32768)).flatMap fun sg =>
      let lo := 32768 * sg
      let pay := leBytes (ceilDiv (min (n - lo) 32768) 8)
        (ofBitList ((votes.filter fun v => decide (lo ≤ v) && decide (v < lo + 32768)).map (· - lo)))
      ((nbrs.map (·.1)).eraseDups).map fun m =>
        { k.packet 0x24 sg m none pay with
          gen := gen
          typeArg := id + sg * 256 + attempt % 256 * 65536 }
    (c.updColl id fun k => { k with votedAt := some c.tick }).sendColl id ps

/-- Send the oldest VOTE that is due, at most one a microsecond. -/
def voteFlush (id : Nat) (c : Ctl) : Ctl :=
  match c.colls.colls.get? id with
  | some k =>
    match k.owed with
    | (g, a, v) :: rest =>
      if k.votedAt.all fun t => decide (t + 1000 ≤ c.tick) then (c.updColl id fun k => { k with owed := rest }).voteSend id g a v else c
    | [] => c
  | none => c

/-- Make a VOTE due: it takes the place of one of its generation and attempt that is still due. -/
def voteOwe (id gen attempt : Nat) (votes : List Nat) (c : Ctl) : Ctl :=
  (c.updColl id fun k => { k with
    owed := k.owed.filter (fun x => !(x.1 = gen && x.2.1 = attempt)) ++ [(gen, attempt, votes)] }).voteFlush id

/-- The VOTEs that were held to R444's rate and may go now. -/
def votesDue (c : Ctl) : Ctl := c.colls.colls.keys.foldl (fun c id => c.voteFlush id) c

/-- Whether a contribution of this generation is not acknowledged. -/
def collUnacked (c : Ctl) (id : Nat) : Bool :=
  let data := fun (p : Pkt) => decide (0x20 ≤ p.type) && decide (p.type ≤ 0x23)
  ((c.colls.colls.get? id).any fun k => k.outq.any data)
    || c.fabric.txns.vals.any fun t => (match t.who with
      | .coll n _ _ => n = id
      | _ => false) && data t.pkt

end Ctl

/-! Commit (R444, R445). -/

/-- The generation is committed: the record and the token, CARRY zeroed, the channels' generation, IDLE. -/
def W.commitEnd (id : Nat) (w : W) : W :=
  match w.c.colls.colls.get? id with
  | none => w
  | some k =>
    let w := match k.carryBuf k.gen with
      | some a => w.zeroAt a (8 * k.lenOf (carryBlocks k.dims))
      | none => w
    w.on fun c =>
      let c := c.updColl id fun k => { k with cnt := { k.cnt with commits := inc32 k.cnt.commits } }
      let c := (c.collRecord id 0 0 0).collToken k.a.tile k.a.token
      let g := (k.gen + 1) % 2 ^ 32
      let c := c.updColl id fun k => { k with
        st := .idle
        gen := g
        attempt := 0
        lastAttempt := k.attempt
        frogged := false
        grace := none
        forwarded := false
        committing := false
        step := 0
        begun := false
        done := []
        released := []
        parts := []
        expired := []
        votes := []
        carryIn := k.genCarried != 0 }
      let c := (c.colls.pipes.filter fun (x : Nat × Pipe) => x.2.a.job = k.a.job && x.2.a.anchor = id).foldl
        (fun (c : Ctl) (x : Nat × Pipe) => c.updPipe x.1 fun y => { y with
          gen := g
          attempt := 0
          stopped := false
          sent := y.sent.filter fun z => z.1 != k.gen }) c
      c.collWaits

/-- Enqueue the on-commit commands in order; while a queue is full it tries again after 1 µs (R445). A command whose
queue does not exist is passed over. -/
def W.commitCommands (id : Nat) : Nat → W → W
  | 0, w => w.commitEnd id
  | f + 1, w =>
    match w.c.colls.colls.get? id with
    | none => w
    | some k =>
      match k.onCommit with
      | [] => w.commitEnd id
      | x :: rest =>
        match w.c.palAccept x.stack x.queue x.cmd with
        | (.error 0x0509, c) => { w with c }.on (Ctl.updColl id fun k => { k with commitDue := w.c.tick + 1000 })
        | (_, c) => commitCommands id f ({ w with c }.on (Ctl.updColl id fun k => { k with onCommit := rest }))

/-- The commit goes on: under COPY the shadow becomes the live output, which waits while a buffer's stack is held; then the
on-commit commands (R444, R445). -/
def W.commitWork (id : Nat) (w : W) : W :=
  match w.c.colls.colls.get? id with
  | none => w
  | some k =>
    if !k.copyDue then w.commitCommands id (k.onCommit.length + 1)
    else if w.c.collStopped k then w.on (Ctl.updColl id fun k => { k with commitDue := w.c.tick + 1000 })
    else
      let len := ceilDiv (k.outLen * elemW k.a.fmt) 8
      let r := w.readRange (bits k.a.out1 47 44) (bits k.a.out1 43 0) len 1
      ((r.2.writeRange (bits k.a.out0 47 44) (bits k.a.out0 43 0) r.1.1 r.1.2 1).on (Ctl.updColl id fun k => { k with
        copyDue := false })).commitCommands id (k.onCommit.length + 1)

/-- All C votes are held: the output becomes live (R444). -/
def W.commit (id : Nat) (w : W) : W :=
  (w.on (Ctl.updColl id fun k => { k with
    committing := true
    copyDue := decide (k.a.commitMode = 1)
    grace := none
    onCommit := k.a.cmds })).commitWork id

/-- Votes arrive (R444): new ones are forwarded; all C of them commit the generation, or split an attempt that is rolled
back (R454). -/
def W.gainVotes (id : Nat) (l : List Nat) (w : W) : W :=
  match w.c.colls.colls.get? id with
  | none => w
  | some k =>
    let fresh := l.filter fun m => decide (m < k.size) && !k.votes.contains m
    if fresh.isEmpty || k.committing then w
    else
      let votes := k.votes ++ fresh
      let w := w.on (Ctl.updColl id fun k => { k with votes })
      let full := votes.length = k.size
      let w := if full then w.on (Ctl.barrier id (fresh.getLast?.getD 0)) else w
      if k.st = .aborted then
        if full then
          w.on fun c =>
            let c := c.event 0x0513 (encode [.n 1 id, .n 4 k.gen, .n 1 (k.attempt % 256), .n 2 k.self]) (Ctl.toJob k.a.job)
            ((c.updColl id fun k => { k with st := .failed }).collRecord id 4 2 0).collWaits
        else w
      else
        let w := w.on (Ctl.voteOwe id k.gen k.attempt votes)
        if full && k.st = .voting then w.commit id else w

/-- A member whose output is complete, with every contribution acknowledged, votes (R442, R444). -/
def W.maybeVote (id : Nat) (w : W) : W :=
  match w.c.colls.colls.get? id with
  | none => w
  | some k =>
    if k.st = .running && k.begun && k.plan.length ≤ k.step && !(w.c.collUnacked id) then
      (w.on (Ctl.updColl id fun k => { k with st := .voting })).gainVotes id [k.self]
    else w

/-! Running a generation. -/

/-- Convert this member's reduced block to the output (R436). -/
def W.convertOwn (k : Coll) (w : W) : Bool × W :=
  let lo := blockLo k.a.count k.size k.self
  let n := k.lenOf [k.self]
  let r := w.readElems k.work 5 lo n
  if r.1.2 then (false, r.2)
  else (true, r.2.writeElems k.shadow k.a.fmt (if k.a.op = 2 then 0 else lo) n (handOff k.a.fmt (pairsOf r.1.1)))

/-- Begin the present step: the wait at a phase boundary, the output after the last reducing step, the sends, the
timeout (R439, R447). `free` says that the wait is over. -/
def W.beginStep (id : Nat) (free : Bool) (w : W) : W :=
  match w.c.colls.colls.get? id with
  | none => w
  | some k =>
    let plan := k.plan
    let boundary := match plan[k.step]? with
      | some s => k.step = 0 || (plan[k.step - 1]?).any fun q => q.phase != s.phase
      | none => false
    if boundary && !free && w.c.collHeld k then
      w.on (Ctl.updColl id fun k => { k with hold := some (w.c.tick + 200000) })
    else
      let w := w.on (Ctl.updColl id fun k => { k with hold := none })
      let conv := if k.a.reduces && k.step = k.reduceSteps then w.convertOwn k else (true, w)
      if !conv.1 then conv.2.collTrigger id 1 w.c.selfModule false
      else
        match plan[k.step]? with
        | none => conv.2.on (Ctl.updColl id fun k => { k with begun := true })
        | some s =>
          match conv.2.stepPackets k k.step s with
          | (none, w) => w.collTrigger id 1 w.c.selfModule false
          | (some ps, w) =>
            w.on fun c => (c.updColl id fun k => { k with
              begun := true
              done := if s.reducing then k.done ++ [(k.step, k.self)] else k.done
              stepDue := if s.await.isEmpty then none else some (c.tick + k.stepTimeout) }).sendColl id ps

/-- Whether every contribution of a step is received or released (R288). -/
def Coll.stepDone (k : Coll) (step : Nat) (s : CStep) : Bool :=
  s.await.all fun x => k.done.contains (step, x.1) || k.released.contains (step, x.1)

/-- Carry a running generation on as far as it goes. -/
def W.advance (id : Nat) : Nat → W → W
  | 0, w => w
  | f + 1, w =>
    match w.c.colls.colls.get? id with
    | none => w
    | some k =>
      if k.st != .running || k.hold.isSome then w
      else if !k.begun then
        let w := w.beginStep id false
        if (w.c.colls.colls.get? id).any (·.begun) then advance id f w else w
      else
        match k.plan[k.step]? with
        | none => w.maybeVote id
        | some s =>
          if k.stepDone k.step s then
            let last := match (k.released.filter fun x => x.1 = k.step).getLast? with
              | some x => x.2
              | none => (((k.done.filter fun x => x.1 = k.step).getLast?).map (·.2)).getD k.self
            let w := if s.reducing then w.on (Ctl.barrier id last) else w
            advance id f (w.on (Ctl.updColl id fun k => { k with
              step := k.step + 1
              begun := false
              stepDue := none }))
          else w

def Coll.fuel (k : Coll) : Nat := 2 * k.plan.length + 4

def W.run (id : Nat) (w : W) : W :=
  match w.c.colls.colls.get? id with
  | some k => w.advance id k.fuel
  | none => w

/-- The step of the generation that a contribution names: TYPE_ARG holds its low 8 bits (Table 15-4). -/
def Coll.stepOf (k : Coll) (p : Pkt) : Option (Nat × Nat × List Nat) :=
  (k.members.findIdx? (· = p.src)).bind fun m =>
    (k.plan.zipIdx.find? fun x => x.1.type = p.type && x.2 % 256 = bits p.typeArg 15 8 && decide (k.step ≤ x.2 + 128)
        && x.1.await.any fun y => y.1 = m).map fun x =>
      (x.2, m, ((x.1.await.find? fun y => y.1 = m).map (·.2)).getD [])

def Pkt.elemOff (p : Pkt) : Nat := fieldAt p.payload 0 8

/-- Whether a contribution falls outside the receiver's buffers (R433). -/
def Coll.outside (k : Coll) (p : Pkt) : Bool :=
  p.payload.length < 8 || (k.stepOf p).isNone || decide (k.a.count < Pkt.elemOff p + elemCount k.a.fmt (p.payload.drop 8))

/-- Position in a CARRY buffer of an element of the reduced chunk. -/
def Coll.carryPos (k : Coll) (e : Nat) : Nat :=
  ((carryBlocks k.dims).foldl (fun (st : Nat × Option Nat) p =>
    let lo := blockLo k.a.count k.size p
    let n := blockLen k.a.count k.size p
    match st.2 with
    | some _ => st
    | none => if lo ≤ e && e < lo + n then (st.1, some (st.1 + (e - lo))) else (st.1 + n, none)) (0, none)).2.getD 0

/-- Apply a complete contribution: merged into the partial sums, or stored in the shadow; false where a line of the sums
is poisoned. -/
def W.applyParts (k : Coll) (ps : List Pkt) (carry : Option Nat) (w : W) : Bool × W :=
  ps.foldl (fun (st : Bool × W) p =>
    let d := p.payload.drop 8
    let n := elemCount k.a.fmt d
    if !st.1 then st
    else
      match carry with
      | some a => st.2.mergePairs a k.a.fmt (k.carryPos (Pkt.elemOff p)) n d
      | none =>
        if p.type = 0x20 then st.2.mergePairs k.work k.a.fmt (Pkt.elemOff p) n d
        else (true, st.2.writeElems k.shadow k.a.fmt (Pkt.elemOff p) n d)) (true, w)

/-- A data packet of the current generation and attempt (R288, R446, R447). -/
def W.contribution (id : Nat) (p : Pkt) (w : W) : W :=
  match w.c.colls.colls.get? id with
  | none => w
  | some k =>
    match k.stepOf p with
    | none => w
    | some (step, m, blocks) =>
      let key := fun (q : Pkt) => q.type = p.type && q.src = p.src && bits q.typeArg 15 8 = bits p.typeArg 15 8
      if k.done.contains (step, m) || k.parts.any fun q => key q && Pkt.elemOff q = Pkt.elemOff p then
        w.on (Ctl.updColl id fun k => { k with cnt := { k.cnt with duplicates := inc32 k.cnt.duplicates } })
      else
        let parts := k.parts ++ [p]
        let mine := parts.filter key
        if (mine.map fun q => elemCount k.a.fmt (q.payload.drop 8)).foldl (· + ·) 0 < k.lenOf blocks then
          w.on (Ctl.updColl id fun k => { k with parts })
        else
          let gone := k.released.contains (step, m)
          let late := gone || k.expired.contains step
          let carried := gone && k.policy = 1
          let r := if gone && k.policy != 1 then (true, w) else w.applyParts k mine (if carried then k.carryBuf (k.gen + 1) else none)
          let w := r.2.on (Ctl.updColl id fun k => { k with
            parts := parts.filter fun q => !key q
            done := k.done ++ [(step, m)]
            genLate := if late then inc32 k.genLate else k.genLate
            genCarried := if carried then inc32 k.genCarried else k.genCarried
            genDropped := if gone && !carried then inc32 k.genDropped else k.genDropped
            cnt := { k.cnt with
              late := if late then inc32 k.cnt.late else k.cnt.late
              carried := if carried then inc32 k.cnt.carried else k.cnt.carried
              dropped := if gone && !carried then inc32 k.cnt.dropped else k.cnt.dropped } })
          if r.1 then w.run id else w.collTrigger id 1 w.c.selfModule false

/-- The members whose bits a VOTE carries. -/
def voteList (p : Pkt) : List Nat := (bitList (ofLE p.payload) (8 * p.payload.length)).map (· + 32768 * bits p.typeArg 15 8)

/-- A packet of the current generation and attempt. -/
def W.collPacket (id : Nat) (p : Pkt) (w : W) : W := if p.type = 0x24 then w.gainVotes id (voteList p) else w.contribution id p

/-- Load the input of a generation: cast on, from CARRY where it holds the late contributions of the last generation
(R436, R447), or moved to its place in the output; false where a line is poisoned. -/
def W.loadInput (k : Coll) (w : W) : Bool × W :=
  let fmt := k.a.fmt
  if k.a.reduces then
    let r := w.readElems k.a.bufIn fmt 0 k.a.count
    if r.1.2 then (false, r.2)
    else
      let w := r.2.writeElems k.work 5 0 k.a.count ((List.range k.a.count).flatMap fun i => (castOn fmt r.1.1 i).bytes)
      if k.policy != 1 && !k.carryIn then (true, w)
      else
        match k.carryBuf k.gen with
        | none => (true, w)
        | some a =>
          (carryBlocks k.dims).foldl (fun (st : Bool × W) p =>
            let lo := blockLo k.a.count k.size p
            let n := blockLen k.a.count k.size p
            let c := st.2.readElems a 5 (k.carryPos lo) n
            let x := c.2.readElems k.a.bufIn fmt lo n
            if !st.1 || c.1.2 || x.1.2 then (false, x.2)
            else (true, x.2.writeElems k.work 5 lo n
              (((pairsOf c.1.1).zipIdx.map fun y => enterElem fmt x.1.1 y.2 y.1).flatMap Pair32.bytes))) (true, w)
  else
    let lo := blockLo k.a.count k.size k.self
    let n := k.lenOf [k.self]
    let go := fun (src dst n : Nat) =>
      let r := w.readElems k.a.bufIn fmt src n
      if r.1.2 then (false, r.2) else (true, r.2.writeElems k.shadow fmt dst n r.1.1)
    if k.a.op = 3 then go 0 lo n
    else if k.a.op = 4 then go lo lo n
    else if k.self = k.a.root then go 0 0 k.a.count else (true, w)

/-- A start (R443): the next generation at an IDLE collective; any other is ignored and counted. -/
def W.collStart (id gen : Nat) (w : W) : W :=
  match w.c.colls.colls.get? id with
  | none => w
  | some k =>
    if k.st != .idle || gen != k.gen then
      w.on (Ctl.updColl id fun k => { k with cnt := { k.cnt with badStart := inc32 k.cnt.badStart } })
    else
      let w := (w.on (Ctl.readShape id)).on (Ctl.updColl id fun k => { k with
        st := .running
        step := 0
        begun := false
        parts := []
        done := []
        released := []
        expired := []
        stepDue := none
        votes := []
        hold := none
        policy := k.policyNext
        stepTimeout := k.timeoutNext
        share := k.shareNext
        genLate := 0
        genCarried := 0
        genDropped := 0 })
      match w.c.colls.colls.get? id with
      | none => w
      | some k =>
        if !(w.c.router.tables.has k.a.job) then w.collTrigger id 2 w.c.selfModule false
        else
          let r := w.loadInput k
          if !r.1 then r.2.collTrigger id 1 w.c.selfModule false
          else
            let now := k.early.filter fun p => p.gen = gen
            let w := r.2.on (Ctl.updColl id fun k => { k with early := k.early.filter fun p => p.gen != gen })
            (now.foldl (fun (w : W) p =>
              if (w.c.colls.colls.get? id).any fun k => p.type = 0x24 || !k.outside p then w.collPacket id p else w) w).run id

/-- A transaction of a collective is acknowledged, or a tag is free: what waited goes on. -/
def W.collAcked (id : Nat) (w : W) : W :=
  ((w.on fun c => (c.sendColl id []).voteFlush id).maybeVote id)

end Sys2Proof.Machine
end

