-- ==== Sys2Proof/Machine/Pipes.lean ====
section
/-! DEFINITION. The rows of the collective engine: its packets, starts and timeouts, frogs, the pipeline channels and the
spare fill (chapter 15). -/

namespace Sys2Proof.Machine

open Sys2Proof

/-! Packets at their receiver (R280, R433, R446). -/

/-- What a receiver does with a fresh packet: leave it waiting, drop it as MALFORMED, discard it without an
acknowledgement, or acknowledge it and act. -/
inductive Take where
  | wait
  | malformed
  | ahead (f : Ctl → Ctl)
  | act (f : W → W)

/-- A packet of the engine at its receiver: applied once by its flow record and acknowledged (R280, R383); dropped where
its CRC fails, or where it comes from an expelled module (R462). -/
def W.engineTake (type cls : Nat) (p : Pkt) (f : W → Take) (w : W) : W :=
  let key := 4 * p.src + cls
  if p.type != type || !(w.c.fabric.arrivals.contains p) then w
  else if !p.crcOk then (w.on (Ctl.takeArrival p)).on (Ctl.countDrop none 6)
  else if (w.c.jobs.get? p.job).any fun j => j.expelled.contains p.src then w.on (Ctl.takeArrival p)
  else if w.c.noRecord key then w
  else
    match w.c.seen key p.flowSeq with
    | .below => (w.on (Ctl.takeArrival p)).on (Ctl.countCopy key)
    | .copy _ => ((w.on (Ctl.takeArrival p)).on (Ctl.countCopy key)).on (Ctl.sendAck p)
    | .fresh =>
      match f w with
      | .wait => w
      | .malformed => (w.on (Ctl.takeArrival p)).on (Ctl.countDrop none 5)
      | .ahead g => (w.on (Ctl.takeArrival p)).on g
      | .act g => g (((w.on (Ctl.takeArrival p)).on (Ctl.mark key p.flowSeq .ack)).on (Ctl.sendAck p))

def addLate (id : Nat) : Ctl → Ctl := Ctl.updColl id fun k => { k with cnt := { k.cnt with late := inc32 k.cnt.late } }

/-- Modulo-2^32 order of generations: whether a is later than b. -/
def genAfter (a b : Nat) : Bool := a != b && decide (Ctl.diff32 a b < 2 ^ 31)

/-- Whether attempt a is later than b, modulo 256. -/
def attemptAfter (a b : Nat) : Bool := a != b && decide ((a + 256 - b % 256) % 256 < 128)

/-- A packet of Table 15-4 but FROG at a collective. A packet of the next generation is kept; one of an attempt not begun
here is left to its source's resend; one of a generation or attempt past is acknowledged and counted LATE (R289, R446). -/
def collTake (p : Pkt) (w : W) : Take :=
  let id := bits p.typeArg 5 0
  match w.c.colls.colls.get? id with
  | none => .malformed
  | some k =>
    let att := bits p.typeArg 23 16
    if k.a.job != p.job then .malformed
    else if p.gen = (k.gen + 1) % 2 ^ 32 then .act (W.on (Ctl.updColl id fun k => { k with early := k.early ++ [p] }))
    else if p.gen != k.gen then
      if genAfter p.gen k.gen then .ahead (addLate id) else .act (W.on (if p.type = 0x24 then fun c => c else addLate id))
    else if attemptAfter att (k.attempt % 256) then .ahead (addLate id)
    else if att != k.attempt % 256 || k.st = .failed then .act (W.on (addLate id))
    else if k.st = .idle then .act (W.on (Ctl.updColl id fun k => { k with early := k.early ++ [p] }))
    else if p.type = 0x24 then (if w.c.collStopped k then .wait else .act (W.gainVotes id (voteList p)))
    else if k.st = .aborted then .act (W.on (addLate id))
    else if k.outside p then .malformed
    else if w.c.collStopped k then .wait
    else .act (W.contribution id p)

def collRow (type : Nat) (p : Pkt) (s : State) : Host.Outcome State Fault Refusal :=
  ret (pktOk p) (s.act (W.engineTake type 0 p (collTake p)))

/-- CONTRIB (R446, R447). -/
def execContribPacket (p : Pkt) (s : State) : Host.Outcome State Fault Refusal := collRow 0x20 p s
/-- GATHER (R438). -/
def execCollGatherPacket (p : Pkt) (s : State) : Host.Outcome State Fault Refusal := collRow 0x21 p s
/-- EXCHANGE (R438). -/
def execExchangePacket (p : Pkt) (s : State) : Host.Outcome State Fault Refusal := collRow 0x22 p s
/-- BCAST (R394, R438). -/
def execBcastPacket (p : Pkt) (s : State) : Host.Outcome State Fault Refusal := collRow 0x23 p s
/-- VOTE (R444). -/
def execVotePacket (p : Pkt) (s : State) : Host.Outcome State Fault Refusal := collRow 0x24 p s

/-! Starts and timeouts. -/

/-- A WRITE to a line of the engine that passed the home's checks. -/
def W.lineStore (p : Pkt) (f : W → W) (w : W) : W :=
  ((f w).on (Ctl.mark (4 * p.src + 1) p.flowSeq .ack)).on (Ctl.sendAck p)

/-- GENERATION_START_WRITE (R443): a full-line WRITE to the start line. -/
def execGenerationStartWrite (p : Pkt) (s : State) : Host.Outcome State Fault Refusal :=
  ret (pktOk p) (s.act fun w =>
    match w.c.useOf p with
    | .collStart id =>
      if (w.c.colls.colls.get? id).any w.c.collStopped then w
      else
        w.atHome 2 p fun _ => W.lineStore p fun w =>
          if p.span = 64 then w.collStart id (fieldAt p.payload 8 4) else w
    | _ => w)

/-- STEP_TIMEOUT_EXPIRE (R447): WAIT reports the step late, CARRY and DROP release it in the reducing half of DIRECT. -/
def execStepTimeoutExpire (id : Nat) (s : State) : Host.Outcome State Fault Refusal :=
  ret (id < 64) (s.act fun w =>
    match w.c.colls.colls.get? id with
    | none => w
    | some k =>
      match k.stepDue, k.plan[k.step]? with
      | some due, some x =>
        if k.st != .running || !k.begun || w.c.tick < due || w.c.collStopped k then w
        else
          let missing := (x.await.map (·.1)).filter fun m => !k.done.contains (k.step, m) && !k.released.contains (k.step, m)
          let w := w.on (Ctl.updColl id fun k => { k with
            stepDue := none
            expired := k.expired ++ [k.step]
            cnt := { k.cnt with timeouts := inc32 k.cnt.timeouts } })
          if x.reducing && k.policy != 0 then
            (w.on (Ctl.updColl id fun k => { k with released := k.released ++ missing.map fun m => (k.step, m) })).run id
          else
            w.on (Ctl.event 0x0510 (encode [.n 1 id, .n 4 k.gen, .n 1 (k.attempt % 256), .n 2 (missing.head?.getD 0)])
              { tenant := [k.a.job] })
      | _, _ => w)

/-- VOTE_GRACE_EXPIRE (R451). -/
def execVoteGraceExpire (id : Nat) (s : State) : Host.Outcome State Fault Refusal :=
  ret (id < 64) (s.act fun w =>
    match w.c.colls.colls.get? id with
    | some k => if k.st = .voting && !k.committing && k.grace.any fun t => decide (t ≤ w.c.tick) then w.collRollback id else w
    | none => w)

/-- PHASE_BOUNDARY_RELEASE (R439): the held phase starts once no optical action waits, or after 200 µs. -/
def execPhaseBoundaryRelease (id : Nat) (s : State) : Host.Outcome State Fault Refusal :=
  ret (id < 64) (s.act fun w =>
    match w.c.colls.colls.get? id with
    | some k =>
      if k.st = .running && !(w.c.collStopped k) && k.hold.any (fun t => decide (t ≤ w.c.tick) || !(w.c.collHeld k)) then (w.beginStep id true).run id else w
    | none => w)

/-- ON_COMMIT_RETRY (R445). -/
def execOnCommitRetry (id : Nat) (s : State) : Host.Outcome State Fault Refusal :=
  ret (id < 64) (s.act fun w =>
    match w.c.colls.colls.get? id with
    | some k => if k.committing && k.commitDue ≤ w.c.tick then w.commitWork id else w
    | none => w)

/-- EXPEL_REFILL (R462): one unit returns, up to BUDGET. -/
def execExpelRefill (job : Nat) (s : State) : Host.Outcome State Fault Refusal :=
  ret (1 ≤ job && job < 65536) (s.act (W.on fun c =>
    { c with jobs := c.jobs.map fun x =>
        if x.1 = job && x.2.available < x.2.budget && x.2.refillDue ≤ c.tick then
          (x.1, { x.2 with
            available := x.2.available + 1
            refillDue := x.2.refillDue + x.2.refill })
        else x }))

/-! Frogs. -/

/-- The objects of a job that include a dead or expelled module (Table 15-5). -/
def W.moduleTrigger (job m cause : Nat) (w : W) : W :=
  w.triggerWhere cause w.c.selfModule false (fun k => k.a.job = job && k.members.contains m) fun k => k.a.job = job && k.a.peer = m

/-- A FROG at one collective (R451, R452): a trigger for the attempt under way; for a generation committed here it is
forwarded once, with the full bitmap; one rolled back already is counted. -/
def frogTake (id : Nat) (p : Pkt) (w : W) : Take :=
  let cause := bits p.typeArg 15 8
  let origin := fieldAt p.payload 0 2
  let dup : Ctl → Ctl := Ctl.updColl id fun k => { k with cnt := { k.cnt with duplicates := inc32 k.cnt.duplicates } }
  match w.c.colls.colls.get? id with
  | none => .malformed
  | some k =>
    let att := bits p.typeArg 23 16
    if k.a.job != p.job then .malformed
    else if p.gen != k.gen || k.committing then
      if genAfter p.gen k.gen then .ahead fun c => c
      else if k.forwarded || (if p.gen = k.gen then att != k.attempt % 256
          else p.gen != (k.gen + 2 ^ 32 - 1) % 2 ^ 32 || att != k.lastAttempt % 256) then .act (W.on dup)
      else
        .act (W.on fun c =>
          let nbrs : List (Nat × Nat × Nat) := match c.router.tables.get? k.a.job with
            | some t => nbrDirs t k.a.dimMask
            | none => []
          ((c.updColl id fun k => { k with forwarded := true }).sendColl id
            (((nbrs.map (·.1)).eraseDups).map fun n => c.frogPkt false false id k.a.job p.gen att cause origin n)).voteOwe id p.gen att
              (List.range k.size))
    else if attemptAfter att (k.attempt % 256) then .ahead fun c => c
    else if att != k.attempt % 256 || k.frogged || k.st = .aborted || k.st = .failed then .act (W.on dup)
    else .act (W.collTrigger id cause origin false)

/-- A FROG at a channel. -/
def pipeFrogTake (id : Nat) (p : Pkt) (w : W) : Take :=
  match w.c.colls.pipes.get? id with
  | none => .malformed
  | some k =>
    if k.a.job != p.job then .malformed
    else if p.gen != k.gen || bits p.typeArg 23 16 != k.attempt % 256 || k.stopped then
      .act (W.on (Ctl.updPipe id fun k => { k with cnt := { k.cnt with duplicates := inc32 k.cnt.duplicates } }))
    else .act (W.on (Ctl.pipeTrigger id (bits p.typeArg 15 8) (fieldAt p.payload 0 2) false))

/-- A FROG at the object that it names. -/
def frogOneTake (p : Pkt) (w : W) : Take :=
  let id := bits p.typeArg 5 0
  if bit p.typeArg 6 then pipeFrogTake id p w else frogTake id p w

/-- Whether the object that a FROG names is of the job here and is not at the FROG's generation and attempt, or has frogged it. -/
def frogStale (p : Pkt) (c : Ctl) : Bool :=
  let id := bits p.typeArg 5 0
  let att := bits p.typeArg 23 16
  if bit p.typeArg 6 then (c.colls.pipes.get? id).any fun k => k.a.job = p.job && (p.gen != k.gen || att != k.attempt % 256 || k.stopped)
  else (c.colls.colls.get? id).any fun k => k.a.job = p.job &&
    (p.gen != k.gen || att != k.attempt % 256 || k.committing || k.frogged || k.st = .aborted || k.st = .failed)

/-- A FROG for every object of the job (Table 15-4): one for the present attempt of the object it names acts on them all; any other is
taken by that object alone. -/
def frogAllTake (p : Pkt) (w : W) : Take :=
  if frogStale p w.c then frogOneTake p w
  else .act (W.triggerWhere (bits p.typeArg 15 8) (fieldAt p.payload 0 2) true (fun k => k.a.job = p.job) fun k => k.a.job = p.job)

/-- FROG (R451). -/
def execFrogPacket (p : Pkt) (s : State) : Host.Outcome State Fault Refusal :=
  ret (pktOk p) (s.act (W.engineTake 0x30 3 p fun w =>
    if p.payload.length != 8 then .malformed
    else if bit p.typeArg 7 then frogAllTake p w
    else frogOneTake p w))

/-- FROG_RESEND (R452): every 20 µs until the neighbour acknowledges or is judged dead (R429). Objects 64 to 127 are the
channels. -/
def execFrogResend (id nbr : Nat) (s : State) : Host.Outcome State Fault Refusal :=
  ret (id < 128 && nbr < 65536) (s.act fun w =>
    (w.c.fabric.txns.filter fun x => x.2.who = .frog (decide (64 ≤ id)) (id % 64) nbr && x.2.due ≤ w.c.tick).foldl
      (fun (w : W) (x : Nat × Txn) =>
        let t := { x.2 with
          late := true
          bad := if x.2.nakWait then x.2.bad else x.2.bad + 1 }
        let w := w.on (Ctl.countTimeout (tagUnit x.1))
        if Ctl.givenUp t then
          ((w.on (Ctl.retire x.1 false)).on (Ctl.targetDead t.pkt.job nbr)).moduleTrigger t.pkt.job nbr 3
        else w.on fun c => (c.onFabric fun f => { f with txns := Tab.set x.1 t f.txns }).frogCopy x.1) w)

/-! Pipeline channels (R457 to R460). -/

/-- The attempt under which a channel sends and takes micro-batches of a generation. -/
def Pipe.attemptOf (k : Pipe) (g : Nat) : Nat := if g = k.gen then k.attempt % 256 else 0

def Pipe.next (k : Pipe) : Nat := (k.gen + 1) % 2 ^ 32

/-- Whether a channel takes micro-batches of a generation (R460). -/
def Pipe.takes (k : Pipe) (g : Nat) : Bool := (g = k.gen && !k.stopped) || g = k.next

def Pipe.slot (k : Pipe) (m : Nat) : Nat := m % max 1 k.a.slots

def Pipe.slotFree (k : Pipe) (m : Nat) : Bool := !(k.busy.any fun x => k.slot x.2 = k.slot m)

def pipePkt (k : Pipe) (type g m : Nat) (payload : List Byte) : Pkt :=
  { type, flags := 0, dest := k.a.peer, src := 0, flowSeq := 0, gen := g, job := k.a.job, tag := 0, vc := 0, hopLimit := 192
    mcDim := 0, mcPlus := 0, mcMinus := 0, key := 0, typeArg := k.a.id + m % 64 * 64 + k.attemptOf g * 65536, payload
    crcOk := true, rsvdZero := true }

/-- Begin the send of a micro-batch whose slot is free: the slot's bytes in packets of up to 4,032 (R459). -/
def W.pipeSend (id g m : Nat) (w : W) : W :=
  match w.c.colls.pipes.get? id with
  | none => w
  | some k =>
    let a := k.a.buffer + k.slot m * k.a.slotBytes
    let r := w.readRange (bits a 47 44) (bits a 43 0) k.a.slotBytes 0
    if r.1.2 != 0 then r.2.on (Ctl.pipeTrigger id 1 w.c.selfModule false)
    else
      let ps := (List.range (ceilDiv k.a.slotBytes 4032)).map fun i =>
        pipePkt k 0x25 g m (leBytes 8 (4032 * i) ++ (r.1.1.drop (4032 * i)).take 4032)
      r.2.on fun c => (c.updPipe id fun k => { k with
        busy := k.busy ++ [(g, m)]
        sending := k.sending ++ [(g, m)] }).sendPipe id ps

/-- Begin the waiting sends whose slots are free, in order. -/
def W.pipePump (id : Nat) : Nat → W → W
  | 0, w => w
  | f + 1, w =>
    match w.c.colls.pipes.get? id with
    | none => w
    | some k =>
      match k.waiting.find? fun x => k.slotFree x.2 && w.c.easelReaches (bits k.a.buffer 47 44) (bits k.a.buffer 43 0) with
      | some x => pipePump id f ((w.on (Ctl.updPipe id fun k => { k with waiting := k.waiting.erase x })).pipeSend id x.1 x.2)
      | none => w

/-- Send what waits on a channel, and complete the sends whose last packet is acknowledged (R459). -/
def W.pipeAcked (id : Nat) (w : W) : W :=
  let w := w.on (Ctl.sendPipe id [])
  match w.c.colls.pipes.get? id with
  | none => w
  | some k =>
    let open_ := fun (x : Nat × Nat) =>
      (k.outq.any fun p => p.type = 0x25 && p.gen = x.1 && bits p.typeArg 11 6 = x.2)
        || w.c.fabric.txns.vals.any fun t => t.who = .pipe id x.2 && t.pkt.type = 0x25 && t.pkt.gen = x.1
    (k.sending.filter fun x => !open_ x).foldl (fun (w : W) x =>
      w.on fun c => ((c.updPipe id fun k => { k with
        sending := k.sending.erase x
        sent := k.sent ++ [x] }).pipeRecord id 1 0 0 x.1 x.2).collToken k.a.tile k.a.token) w

/-- Whether the engine cannot read a channel's buffer now (R23, R45): its sends wait (log 78). -/
def Ctl.pipeBlocked (c : Ctl) (id : Nat) : Bool :=
  (c.colls.pipes.get? id).any fun k => !(c.easelReaches (bits k.a.buffer 47 44) (bits k.a.buffer 43 0))

/-- PIPE_SEND_START (R459): bytes 0 to 3 name the generation, 4 and 5 the micro-batch. -/
def execPipeSendStart (p : Pkt) (s : State) : Host.Outcome State Fault Refusal :=
  ret (pktOk p) (s.act fun w =>
    match w.c.useOf p with
    | .pipeStart id =>
      if w.c.pipeBlocked id then w
      else w.atHome 2 p fun _ => W.lineStore p fun w =>
        let g := fieldAt p.payload 8 4
        let m := fieldAt p.payload 12 2
        match w.c.colls.pipes.get? id with
        | none => w
        | some k =>
          if k.a.dir != 0 || p.offset % 64 != 0 || p.span < 6 || 64 ≤ m || !k.takes g || k.sent.contains (g, m) || k.sending.contains (g, m)
              || k.waiting.contains (g, m) then
            w.on (Ctl.updPipe id fun k => { k with cnt := { k.cnt with badStart := inc32 k.cnt.badStart } })
          else (w.on (Ctl.updPipe id fun k => { k with waiting := k.waiting ++ [(g, m)] })).pipePump id 64
    | _ => w)

/-- PIPE_RELEASE_WRITE (R459): the consumer frees the slot of a micro-batch, and PIPE_CREDIT tells the sender. -/
def execPipeReleaseWrite (p : Pkt) (s : State) : Host.Outcome State Fault Refusal :=
  ret (pktOk p) (s.act fun w =>
    match w.c.useOf p with
    | .pipeRelease id =>
      w.atHome 2 p fun _ => W.lineStore p fun w =>
        let x := (fieldAt p.payload 8 4, fieldAt p.payload 12 2)
        match w.c.colls.pipes.get? id with
        | none => w
        | some k =>
          if k.full.contains x && p.offset % 64 = 0 && 6 ≤ p.span then
            w.on fun c => (c.updPipe id fun k => { k with full := k.full.erase x }).sendPipe id [pipePkt k 0x26 x.1 x.2 []]
          else w
    | _ => w)

def addPipeLate (id : Nat) : Ctl → Ctl := Ctl.updPipe id fun k => { k with cnt := { k.cnt with late := inc32 k.cnt.late } }

/-- Store a packet of a micro-batch; the last one completes its receive (R459). -/
def W.pipeStore (id m : Nat) (p : Pkt) (w : W) : W :=
  match w.c.colls.pipes.get? id with
  | none => w
  | some k =>
    let key := fun (q : Pkt) => q.gen = p.gen && bits q.typeArg 11 6 = m
    if k.full.contains (p.gen, m) || k.parts.any fun q => key q && Pkt.elemOff q = Pkt.elemOff p then
      w.on (Ctl.updPipe id fun k => { k with cnt := { k.cnt with duplicates := inc32 k.cnt.duplicates } })
    else
      let a := k.a.buffer + k.slot m * k.a.slotBytes + Pkt.elemOff p
      let w := w.writeRange (bits a 47 44) (bits a 43 0) (p.payload.drop 8) 0 0
      let parts := k.parts ++ [p]
      if ((parts.filter key).map fun q => q.payload.length - 8).foldl (· + ·) 0 < k.a.slotBytes then
        w.on (Ctl.updPipe id fun k => { k with parts })
      else
        w.on fun c => ((c.updPipe id fun k => { k with
          parts := parts.filter fun q => !key q
          full := k.full ++ [(p.gen, m)] }).pipeRecord id 2 0 0 p.gen m).collToken k.a.tile k.a.token

/-- A packet of a micro-batch at its receiver. -/
def pipeTake (p : Pkt) (w : W) : Take :=
  let id := bits p.typeArg 5 0
  let m := bits p.typeArg 11 6
  let att := bits p.typeArg 23 16
  match w.c.colls.pipes.get? id with
  | none => .malformed
  | some k =>
    if k.a.job != p.job || k.a.dir != 1 || k.a.peer != p.src || p.payload.length < 8
        || decide (k.a.slotBytes + 8 < Pkt.elemOff p + p.payload.length)
        || (k.full.any fun x => k.slot x.2 = k.slot m && x != (p.gen, m)) then .malformed
    else if genAfter p.gen k.next then .ahead (addPipeLate id)
    else if p.gen != k.gen && p.gen != k.next then .act (W.on (addPipeLate id))
    else if attemptAfter att (k.attemptOf p.gen) then .ahead (addPipeLate id)
    else if att != k.attemptOf p.gen || !k.takes p.gen then .act (W.on (addPipeLate id))
    else if w.c.bufferWaits k.a.buffer then .wait
    else .act (W.pipeStore id m p)

/-- PIPE_DATA (R459, R460). -/
def execPipeData (p : Pkt) (s : State) : Host.Outcome State Fault Refusal :=
  ret (pktOk p) (s.act (W.engineTake 0x25 0 p (pipeTake p)))

/-- PIPE_CREDIT (R459): the slot is free at the sender, and a send that waits for it starts. -/
def execPipeCredit (p : Pkt) (s : State) : Host.Outcome State Fault Refusal :=
  ret (pktOk p) (s.act (W.engineTake 0x26 0 p fun w =>
    let id := bits p.typeArg 5 0
    let x := (p.gen, bits p.typeArg 11 6)
    match w.c.colls.pipes.get? id with
    | none => .malformed
    | some k =>
      if k.a.job != p.job || k.a.dir != 0 || k.a.peer != p.src then .malformed
      else if !k.waiting.isEmpty && w.c.pipeBlocked id then .wait
      else if k.busy.contains x then
        .act fun w => (w.on (Ctl.updPipe id fun k => { k with busy := k.busy.erase x })).pipePump id 64
      else .act (W.on (Ctl.updPipe id fun k => { k with cnt := { k.cnt with duplicates := inc32 k.cnt.duplicates } }))))

/-! Spare fill (R463, R464). -/

namespace Ctl

def updSpare (job : Nat) (f : Spare → Spare) (c : Ctl) : Ctl :=
  c.onColls fun x => { x with spares := x.spares.map fun y => if y.1 = job then (y.1, f y.2) else y }

/-- A fill ends: outcome, event and response (R464, R469). -/
def fillEnd (job outcome : Nat) (c : Ctl) : Ctl :=
  match c.colls.spares.get? job with
  | none => c
  | some x =>
    let c := c.updSpare job fun x => { x with
      running := false
      outcome := outcome
      promotable := decide (outcome = 0) }
    (c.event 0x0520 (encode [.n 2 job, .n 1 outcome, .n 1 x.done]) { fabric := true }).finishOne (.fill job) 0 (encode [.n 1 outcome])

/-- DIGEST of the source's range on the source's queue (R463); the spec names no place for its result (log 2). -/
def digestCmd (pr : FillPair) (result : Nat) : List Byte :=
  leBytes 1 9 ++ List.replicate 15 0 ++ leBytes 8 (stackA (bits pr.src 43 0)) ++ leBytes 8 pr.len ++ leBytes 8 (result * 64 % 2 ^ 37)
    ++ List.replicate 24 0

/-- Issue the reads of the pair under way, up to eight at once; when all have come, ask for the source's digest. -/
def fillPump : Nat → Nat → Ctl → Ctl
  | 0, _, c => c
  | f + 1, job, c =>
    match c.colls.spares.get? job with
    | none => c
    | some x =>
      match x.pairs[x.done]? with
      | none => c
      | some pr =>
        if !x.running || x.digest then c
        else if x.pos < pr.len then
          if 8 ≤ x.reads then c
          else
            let n := min (pr.len - x.pos) (2048 - (pr.src + x.pos) % 64)
            let p := reqPkt 1 job (pr.src + x.pos) pr.srcKey (n - 1) []
            match c.request (.fill job x.pos) p [] with
            | some (_, c) => fillPump f job (c.updSpare job fun x => { x with
                pos := x.pos + n
                reads := x.reads + 1 })
            | none => c
        else if x.reads != 0 then c
        else
          let r := c.fresh
          match r.2.request (.fill job pr.len) (reqPkt 2 job pr.window pr.windowKey 0 (digestCmd pr r.1)) [] with
          | some (_, c) => c.updSpare job fun x => { x with digest := true }
          | none => c

end Ctl

/-- A read or the digest store of a fill completes. -/
def W.fillDone (job pos : Nat) (res : Except Nat (List Byte × Nat)) (w : W) : W :=
  match w.c.colls.spares.get? job with
  | none => w
  | some x =>
    match x.pairs[x.done]? with
    | none => w
    | some pr =>
      if !x.running then w
      else
        match res with
        | .error e =>
          if e = 0x050B || e = 0x0508 then w.on (Ctl.fillEnd job 2)
          else if pos < pr.len then w.on fun c => (c.updSpare job fun x => { x with reads := x.reads - 1 }).fillPump 16 job
          else if e = 0x0509 then w.on fun c => (c.updSpare job fun x => { x with digest := false }).fillPump 16 job
          else w.on (Ctl.fillEnd job 1)
        | .ok (d, mask) =>
          if pos < pr.len then
            let o := bits (pr.dst + pos) 43 0
            (w.stackStore (stackOf o) (stackA o) d mask).on fun c =>
              (c.updSpare job fun x => { x with reads := x.reads - 1 }).fillPump 16 job
          else w

/-- SPARE_FILL_PAIR_CHECK (R463): the source's digest has come, and the local range has been digested. -/
def execSpareFillPairCheck (job : Nat) (src : List Byte) (s : State) : Host.Outcome State Fault Refusal :=
  ret (1 ≤ job && job < 65536 && src.length = 64) (s.act fun w =>
    match w.c.colls.spares.get? job with
    | none => w
    | some x =>
      match x.pairs[x.done]? with
      | none => w
      | some pr =>
        if !x.running || !x.digest then w
        else
          let k := memKey pr.dst
          let w := if bits pr.dst 47 44 = 2 then w.scan (stackOf (bits pr.dst 43 0)) (stackA (bits pr.dst 43 0)) pr.len 0 else w
          let same := !(w.b.mem.anyPoison k pr.len) && sha3 (w.b.mem.readBytes k pr.len) = src
          if same then
            let c := w.c.updSpare job fun x => { x with
              done := x.done + 1
              retried := false
              pos := 0
              digest := false }
            { w with c := if x.pairs.length ≤ x.done + 1 then c.fillEnd job 0 else c.fillPump 16 job }
          else if x.retried then w.on (Ctl.fillEnd job 1)
          else
            w.on fun c => (c.updSpare job fun x => { x with
              retried := true
              pos := 0
              digest := false }).fillPump 16 job)

end Sys2Proof.Machine
end

