-- ==== Sys2Proof/Machine/CollCmds.lean ====
section
/-! DEFINITION. The mailbox commands of collectives, pipeline channels and spares (Table 15-10). -/

namespace Sys2Proof.Machine

open Sys2Proof

def collArg (id : Nat) : Arg := Arg.num 1 (decide (id < 64))
def jobArg (job : Nat) : Arg := Arg.num 2 (1 ≤ job && job < 65536)
def addrArg (a : Nat) : Arg := Arg.num 8 (decide (a < 2 ^ 64))
def optAddr (a : Option Nat) : Arg := addrArg (a.getD 0)

/-- Whether n bytes from a fabric address lie in a region of the job on this module, in space 0x1 or 0x2 (R440). -/
def Ctl.inJobRegion (c : Ctl) (job a n : Nat) : Bool :=
  let sp := bits a 47 44
  let o := bits a 43 0
  bits a 63 48 = c.selfModule && (sp = 1 || sp = 2) &&
    c.fabric.regions.vals.any fun r => !r.zeroing && r.job = job && r.space = sp && decide (r.base ≤ o) && decide (o + n ≤ r.base + r.len)

/-- Whether a shape, operation and policies agree (R435, R436, R438, Table 15-1, Table 15-2). -/
def collAgrees (a : CollArgs) (ds : List CDim) : Bool :=
  let c := collSize ds
  (!(2 ≤ a.op && a.op ≤ 4) || a.count % c = 0) && (a.op != 5 || (ds.length = 1 && a.root < c)) && (a.op < 4 || a.direct)
    && (a.direct || (ds.all fun d => d.ring && decide (2 ≤ d.len)))
    && (!a.reduces || ((a.fmt = 3 || a.fmt = 4 || a.fmt = 5) && a.work0.isSome && a.work1.isSome))
    && (a.policy = 0 || a.direct) && (a.policy != 1 || !a.reduces || (a.carry0.isSome && a.carry1.isSome))

/-- The buffers of a collective with the bytes each must hold (R440). -/
def collNeeds (a : CollArgs) (ds : List CDim) : List (Nat × Nat) :=
  let c := collSize ds
  let part := blocksLen a.count c [selfIndex ds]
  let by_ := fun (n : Nat) => ceilDiv (n * elemW a.fmt) 8
  let carry := 8 * blocksLen a.count c (carryBlocks ds)
  let out := by_ (if a.op = 2 then part else a.count)
  [(a.bufIn, by_ (if a.op = 3 then part else a.count)), (a.out0, out), (a.out1, out)]
    ++ (a.work0.toList ++ a.work1.toList).map (fun w => (w, 8 * a.count)) ++ (a.carry0.toList ++ a.carry1.toList).map fun w => (w, carry)

/-- The on-commit commands name a queue and hold a command each (R445). -/
def onCommitOk (a : CollArgs) : Bool := a.cmds.all fun x => x.stack < 8 && x.queue < 32 && x.cmd.length = 64

/-- The arguments of COLL_CREATE (Table 15-10). -/
def collCreateArgs (a : CollArgs) : List Arg :=
  let n := a.cmds.length
  [collArg a.id, jobArg a.job, Arg.num 1 (1 ≤ a.op && a.op ≤ 5), Arg.num 1 (decide (a.algorithm < 2)),
    Arg.num 1 (1 ≤ a.dimMask && a.dimMask < 8), Arg.num 2 (decide (a.root < 65536)), Arg.num 8 (1 ≤ a.count && decide (a.count ≤ 2 ^ 34)),
    Arg.num 1 (decide (a.fmt < 12)), addrArg a.bufIn, addrArg a.out0, addrArg a.out1, optAddr a.work0, optAddr a.work1, optAddr a.carry0,
    optAddr a.carry1, Arg.num 1 (decide (a.commitMode < 2)), Arg.num 8 (10000 ≤ a.stepTimeout && a.stepTimeout ≤ 1000000000),
    Arg.num 1 (decide (a.policy < 3)), Arg.num 1 (1 ≤ a.fallback && a.fallback < 3), Arg.num 4 (decide (a.genFirst < 2 ^ 32)),
    optAddr (a.ring.map (·.1)), Arg.num 4 (decide ((a.ring.map (·.2)).getD 0 < 2 ^ 24)), Arg.num 1 (a.tile < 192 || a.tile = 0xFF),
    Arg.num 1 (a.token < 16 || a.tile = 0xFF)]
    ++ (if 4 < n then [Arg.ref true] else if n = 0 then [Arg.num 2 true] else [Arg.num 2 true, Arg.blk (72 * n) (onCommitOk a)])

/-- The on-commit commands of COLL_CREATE where they are a block: 72 bytes each behind the count. -/
def collCreateRefs (h : Hdr) (a : CollArgs) : List Ref :=
  inlineBlocks h (collCreateArgs a) (if 4 < a.cmds.length then [8 + 72 * a.cmds.length] else [])

/-- A collective as it is made. -/
def newColl (a : CollArgs) (session start : Nat) : Coll :=
  { a, session, start, gen := a.genFirst, policy := a.policy, policyNext := a.policy, stepTimeout := a.stepTimeout
    timeoutNext := a.stepTimeout }

/-- COLL_CREATE (R432 to R440). The start line is the line of the collective in the Easel's part of hub SRAM (log 20). -/
def execCollCreate (h : Hdr) (a : CollArgs) (s : State) : Host.Outcome State Fault Refusal :=
  let n := a.cmds.length
  let args := collCreateArgs a
  mbxRow { op := 0x0500, roles := [0, 1] } h args (collCreateRefs h a) s fun x w =>
    match jobCheck w.c x a.job (offOf args 1) with
    | some (e, d) => .fail e d
    | none =>
      if !w.c.usable 17 then .fail 0x0205 0
      else if w.c.colls.colls.has a.id then .fail 0x0107 (offOf args 0)
      else if 8 < n || !onCommitOk a then badArg args 24
      else
        match w.c.router.tables.get? a.job with
        | none => .fail 0x0204 0
        | some t =>
          if !((List.range 3).all fun d => !bit a.dimMask d || decide (d < t.lens.length)) then badArg args 4
          else
            let ds := collDims t a.dimMask
            if !collAgrees a ds then .fail 0x0107 (offOf args 2)
            else if (collNeeds a ds).any fun b => !w.c.inJobRegion a.job b.1 b.2 then badArg args 8
            else if a.tile < 192 && w.c.jobOfTile a.tile != some a.job then badArg args 22
            else
              match w.c.addRegion { space := 1, base := 0xA000000 + 64 * a.id, len := 64, job := a.job, perm := 2, opn := 0, repl := 0
                                    key := 0, use := .collStart a.id } with
              | none => .fail 0x0301 0
              | some (r, k, c) =>
                .ok (encode [.n 2 r, .n 4 k])
                  { w with c := (c.onColls fun z => { z with colls := Tab.set a.id (newColl a x.sid r) z.colls }).readShape a.id }

/-- Look a collective up for a command (R522). -/
def collFor (c : Ctl) (x : Ctx) (id : Nat) (args : List Arg) : Except Res Coll :=
  match c.colls.colls.get? id with
  | none => .error (badArg args 0)
  | some k => if x.owns k.a.job then .ok k else .error (.fail 0x0404 0)

/-- A collective ceases: its transactions end, its start line goes. -/
def Ctl.dropColl (id : Nat) (c : Ctl) : Ctl :=
  match c.colls.colls.get? id with
  | none => c
  | some k =>
    let c := c.cancelTxns fun t => match t.who with
      | .coll n _ _ => n = id
      | _ => false
    let c := c.onFabric fun f => { f with regions := Tab.del k.start f.regions }
    (c.onColls fun z => { z with colls := Tab.del id z.colls }).collWaits

/-- Whether a generation is under way that has not committed. -/
def Coll.busy (k : Coll) : Bool := (k.st = .running || k.st = .voting) && !k.committing

/-- The frog of a destroyed collective (R468): rolled back, and its neighbours told at once. -/
def W.frogDestroyed (id : Nat) (k : Coll) (w : W) : W :=
  ((w.on fun c => c.updColl id fun k => { k with cause := if k.frogged then k.cause else (5, c.selfModule) }).collRollback id).on fun c =>
    let nbrs : List (Nat × Nat × Nat) := match c.router.tables.get? k.a.job with
      | some t => nbrDirs t k.a.dimMask
      | none => []
    if k.frogged then c
    else c.sendColl id (((nbrs.map (·.1)).eraseDups).map fun n => c.frogPkt false false id k.a.job k.gen k.attempt 5 c.selfModule n)

/-- COLL_DESTROY (R468): it frogs if the collective is RUNNING or VOTING. -/
def execCollDestroy (h : Hdr) (id : Nat) (s : State) : Host.Outcome State Fault Refusal :=
  let args := [collArg id]
  mbxRow { op := 0x0501, roles := [0, 1] } h args [] s fun x w =>
    match collFor w.c x id args with
    | .error r => r
    | .ok k =>
      let w := if k.busy then w.frogDestroyed id k else w
      .ok [] (w.on (Ctl.dropColl id))

/-- COLL_START (R443): a start that is ignored is answered WRONG_STATE. -/
def execCollStart (h : Hdr) (id gen : Nat) (s : State) : Host.Outcome State Fault Refusal :=
  if (s.ctl.colls.colls.get? id).any s.ctl.collStopped then ret (hdrOk h) s
  else
    let args := [collArg id, Arg.num 4 (decide (gen < 2 ^ 32))]
    mbxRow { op := 0x0502, roles := [0, 1] } h args [] s fun x w =>
      match collFor w.c x id args with
      | .error r => r
      | .ok k =>
        if !w.c.usable 17 then .fail 0x0205 0
        else if k.st != .idle || gen != k.gen then .failWith 0x0204 0 (w.collStart id gen)
        else .ok [] (w.collStart id gen)

def cntItems (x : CollCnt) : List Item :=
  [.n 4 x.timeouts, .n 4 x.late, .n 4 x.duplicates, .n 4 x.carried, .n 4 x.dropped, .n 4 x.badStart, .n 4 x.frogs, .n 4 x.commits]

/-- COLL_STATUS (R467, Table 15-10). -/
def execCollStatus (h : Hdr) (id : Nat) (s : State) : Host.Outcome State Fault Refusal :=
  let args := [collArg id]
  mbxRow { op := 0x0503, roles := [0, 1, 2], lock := true } h args [] s fun x w =>
    match collFor w.c x id args with
    | .error r => r
    | .ok k =>
      .ok (encode ([.n 1 k.st.code, .n 4 k.gen, .n 1 (k.attempt % 256)] ++ cntItems k.cnt ++ [.list (k.suspects.map (leBytes 2))])) w

/-- Resume an ABORTED collective (R456): ATTEMPT + 1, the shape read again, its channels released. -/
def Ctl.collResume (id : Nat) (c : Ctl) : Ctl :=
  match c.colls.colls.get? id with
  | none => c
  | some k =>
    if k.st != .aborted then c
    else
      let c := (c.updColl id fun k => { k with
        st := .idle
        attempt := (k.attempt + 1) % 256
        frogged := false
        votes := [] }).readShape id
      (c.colls.pipes.filter fun (y : Nat × Pipe) => y.2.a.job = k.a.job && y.2.a.anchor = id).foldl
        (fun (c : Ctl) (y : Nat × Pipe) => c.updPipe y.1 fun z => { z with
          stopped := false
          attempt := (k.attempt + 1) % 256 }) c

/-- COLL_RESUME (R456): COLL_ID, or all of a job (0xFF). -/
def execCollResume (h : Hdr) (id job : Nat) (s : State) : Host.Outcome State Fault Refusal :=
  let args := [Arg.num 1 (id < 64 || id = 0xFF), Arg.num 2 (decide (job < 65536))]
  mbxRow { op := 0x0504, roles := [1, 2] } h args [] s fun x w =>
    if id = 0xFF then
      if !w.c.jobLive job then badArg args 1
      else if !x.owns job then .fail 0x0404 0
      else if !w.c.usable 17 then .fail 0x0205 0
      else .ok [] (w.on fun c => (c.colls.colls.filter fun (y : Nat × Coll) => y.2.a.job = job).foldl
        (fun (c : Ctl) (y : Nat × Coll) => c.collResume y.1) c)
    else
      match collFor w.c x id args with
      | .error r => r
      | .ok k =>
        if !w.c.usable 17 then .fail 0x0205 0
        else if k.st != .aborted then .fail 0x0204 0 else .ok [] (w.on (Ctl.collResume id))

/-- COLL_POLICY_SET (R468): accepted in IDLE or ABORTED, in force from the next generation. -/
def execCollPolicySet (h : Hdr) (id policy timeout share : Nat) (s : State) : Host.Outcome State Fault Refusal :=
  let args := [collArg id, Arg.num 1 (decide (policy < 3)), Arg.num 8 (10000 ≤ timeout && timeout ≤ 1000000000),
    Arg.num 1 (1 ≤ share && share ≤ 64)]
  mbxRow { op := 0x0505, roles := [1, 2] } h args [] s fun x w =>
    match collFor w.c x id args with
    | .error r => r
    | .ok k =>
      if k.st != .idle && k.st != .aborted then .fail 0x0204 0
      else if !((policy = 0 || k.a.direct) && (policy != 1 || !k.a.reduces || (k.a.carry0.isSome && k.a.carry1.isSome))) then
        .fail 0x0107 (offOf args 1)
      else
        .ok (encode [.n 1 policy, .n 8 timeout, .n 1 share]) (w.on (Ctl.updColl id fun k => { k with
          policyNext := policy
          timeoutNext := timeout
          shareNext := share }))

/-- COLL_ABORT (R451): COLL_ID, or all of a job (0xFF); answered once rolled back. -/
def execCollAbort (h : Hdr) (id job : Nat) (s : State) : Host.Outcome State Fault Refusal :=
  let args := [Arg.num 1 (id < 64 || id = 0xFF), Arg.num 2 (decide (job < 65536))]
  mbxRow { op := 0x0506, roles := [1, 2] } h args [] s fun x w =>
    if id = 0xFF then
      if !w.c.jobLive job then badArg args 1
      else if !x.owns job then .fail 0x0404 0
      else
        let w := w.triggerWhere 5 w.c.selfModule true (fun k => k.a.job = job) fun k => k.a.job = job
        if w.c.colls.colls.vals.any fun k => k.a.job = job && k.busy then .wait (.collJob job) w else .ok [] w
    else
      match collFor w.c x id args with
      | .error r => r
      | .ok _ =>
        let w := w.collTrigger id 5 w.c.selfModule false
        if (w.c.colls.colls.get? id).any Coll.busy then .wait (.coll id) w else .ok [] w

/-- COLL_EXPEL (R462): against the budget; with none left the DIRECT collectives that wait fall back from the next
generation. -/
def execCollExpel (h : Hdr) (job m : Nat) (s : State) : Host.Outcome State Fault Refusal :=
  let args := [jobArg job, Arg.num 2 (decide (m < 65536))]
  mbxRow { op := 0x0507, roles := [2] } h args [] s fun _ w =>
    match w.c.jobs.get? job with
    | none => badArg args 0
    | some j =>
      if j.available = 0 then
        .failWith 0x0303 0 (w.on (Ctl.onColls fun z => { z with
          colls := z.colls.map fun y =>
            if y.2.a.job = job && y.2.a.direct && y.2.policyNext = 0
                && (y.2.a.fallback = 2 || !y.2.a.reduces || (y.2.a.carry0.isSome && y.2.a.carry1.isSome)) then
              (y.1, { y.2 with policyNext := y.2.a.fallback })
            else y }))
      else
        let w := w.on fun c => { c with jobs := Tab.set job { j with
          available := j.available - 1
          refillDue := if j.available = j.budget then c.tick + j.refill else j.refillDue
          expelled := insNat m j.expelled } c.jobs }
        .ok [] (w.moduleTrigger job m 4)

/-- JOB_EXPEL_BUDGET_SET (R462). -/
def execJobExpelBudgetSet (h : Hdr) (job budget refill : Nat) (s : State) : Host.Outcome State Fault Refusal :=
  let args := [jobArg job, Arg.num 1 (decide (budget ≤ 16)), Arg.num 8 (3600000000000 ≤ refill && refill ≤ 604800000000000)]
  mbxRow { op := 0x0508, roles := [0] } h args [] s fun _ w =>
    match w.c.jobs.get? job with
    | none => badArg args 0
    | some j =>
      .ok (encode [.n 1 budget, .n 8 refill]) (w.on fun c => { c with jobs := Tab.set job { j with
        budget := budget
        refill := refill
        available := min j.available budget
        refillDue := if min j.available budget < budget && !(j.available < j.budget) then c.tick + refill else j.refillDue } c.jobs })

/-- The arguments of PIPE_CREATE (Table 15-10). -/
def pipeCreateArgs (a : PipeArgs) : List Arg :=
  [collArg a.id, jobArg a.job, Arg.num 2 (decide (a.peer < 65536)), Arg.num 1 (decide (a.dir < 2)), collArg a.anchor,
    Arg.num 1 (1 ≤ a.slots && a.slots ≤ 64), Arg.num 8 (64 ≤ a.slotBytes && a.slotBytes % 64 = 0 && decide (a.slotBytes ≤ 2 ^ 32)),
    Arg.num 2 (1 ≤ a.samples && a.samples ≤ 256), addrArg a.buffer, optAddr (a.ring.map (·.1)),
    Arg.num 4 (decide ((a.ring.map (·.2)).getD 0 < 2 ^ 24)), Arg.num 1 (a.tile < 192 || a.tile = 0xFF), Arg.num 1 (a.token < 16 || a.tile = 0xFF)]

/-- Slots of the receiving channels, each for its samples (R457). -/
def recvSlots (c : Ctl) : Nat :=
  (c.colls.pipes.vals.filter fun (k : Pipe) => k.a.dir = 1).foldl (fun n (k : Pipe) => n + k.a.slots * k.a.samples) 0

/-- PIPE_CREATE (R457, R458). The start and release lines lie behind those of the collectives (log 20). -/
def execPipeCreate (h : Hdr) (a : PipeArgs) (s : State) : Host.Outcome State Fault Refusal :=
  let args := pipeCreateArgs a
  mbxRow { op := 0x0510, roles := [0, 1] } h args [] s fun x w =>
    match jobCheck w.c x a.job (offOf args 1) with
    | some (e, d) => .fail e d
    | none =>
      if !w.c.usable 17 then .fail 0x0205 0
      else if w.c.colls.pipes.has a.id then .fail 0x0107 (offOf args 0)
      else
        match w.c.colls.colls.get? a.anchor with
        | none => badArg args 4
        | some k =>
          if k.a.job != a.job then .fail 0x0107 (offOf args 4)
          else if !w.c.inJobRegion a.job a.buffer (a.slots * a.slotBytes) then badArg args 8
          else if a.tile < 192 && w.c.jobOfTile a.tile != some a.job then badArg args 11
          else if a.dir = 1 && 256 < recvSlots w.c + a.slots * a.samples then .fail 0x0302 0
          else
            let base := 0xA001000 + 128 * a.id
            match w.c.addRegion { space := 1, base, len := 64, job := a.job, perm := 2, opn := 0, repl := 0, key := 0, use := .pipeStart a.id } with
            | none => .fail 0x0301 0
            | some (r1, k1, c) =>
              match c.addRegion { space := 1, base := base + 64, len := 64, job := a.job, perm := 2, opn := 0, repl := 0, key := 0
                                  use := .pipeRelease a.id } with
              | none => .fail 0x0301 0
              | some (r2, k2, c) =>
                let y : Pipe := {
                  a
                  session := x.sid
                  start := r1
                  release := r2
                  gen := k.gen
                  attempt := k.attempt }
                .ok (encode [.n 2 r1, .n 4 k1, .n 2 r2, .n 4 k2]) { w with c := c.onColls fun z => { z with pipes := Tab.set a.id y z.pipes } }

/-- A channel ceases. -/
def Ctl.dropPipe (id : Nat) (c : Ctl) : Ctl :=
  match c.colls.pipes.get? id with
  | none => c
  | some k =>
    let c := c.cancelTxns fun t => match t.who with
      | .pipe n _ => n = id
      | _ => false
    let c := c.onFabric fun f => { f with regions := Tab.del k.start (Tab.del k.release f.regions) }
    c.onColls fun z => { z with pipes := Tab.del id z.pipes }

def pipeFor (c : Ctl) (x : Ctx) (id : Nat) (args : List Arg) : Except Res Pipe :=
  match c.colls.pipes.get? id with
  | none => .error (badArg args 0)
  | some k => if x.owns k.a.job then .ok k else .error (.fail 0x0404 0)

/-- PIPE_DESTROY (R468). -/
def execPipeDestroy (h : Hdr) (id : Nat) (s : State) : Host.Outcome State Fault Refusal :=
  let args := [collArg id]
  mbxRow { op := 0x0511, roles := [0, 1] } h args [] s fun x w =>
    match pipeFor w.c x id args with
    | .error r => r
    | .ok _ => .ok [] (w.on (Ctl.dropPipe id))

/-- PIPE_STATUS (R467). -/
def execPipeStatus (h : Hdr) (id : Nat) (s : State) : Host.Outcome State Fault Refusal :=
  let args := [collArg id]
  mbxRow { op := 0x0512, roles := [0, 1, 2], lock := true } h args [] s fun x w =>
    match pipeFor w.c x id args with
    | .error r => r
    | .ok k =>
      let used := if k.a.dir = 0 then k.busy.length
        else (k.full ++ k.parts.map fun p => (p.gen, bits p.typeArg 11 6)).eraseDups.length
      .ok (encode ([.n 1 used, .n 4 k.gen] ++ cntItems k.cnt)) w

/-- The pairs of a fill: from the source's stack range through its Palette window to a range of this module (R463). -/
def fillPairsOk (source : Nat) (pairs : List FillPair) : Bool :=
  pairs.all fun p => decide (p.src < 2 ^ 64) && decide (p.dst < 2 ^ 64) && decide (p.len ≤ 2 ^ 37) && decide (p.window < 2 ^ 64)
    && decide (p.srcKey < 2 ^ 24) && decide (p.dstKey < 2 ^ 24) && decide (p.windowKey < 2 ^ 24) && bits p.src 63 48 = source
    && bits p.window 63 48 = source && bits p.src 47 44 = 2 && bits p.dst 47 44 = 2 && bits p.window 47 44 = 3 && 1 ≤ p.len
    && p.src % 64 = p.dst % 64

/-- The arguments of SPARE_FILL (Table 15-10): up to four pairs inline. -/
def spareFillArgs (s : State) (h : Hdr) (job source : Nat) (block : Ref) (pairs : List FillPair) : List Arg :=
  let n := pairs.length
  [jobArg job, Arg.num 2 (decide (source < 65536))]
    ++ (if 4 < n then [refArg s h block] else if n = 0 then [Arg.num 2 true] else [Arg.num 2 true, Arg.blk (56 * n - 4) (fillPairsOk source pairs)])

/-- A fill of a job begins; what an earlier one made promotable stays so until this one ends. -/
def Ctl.beginFill (job source : Nat) (pairs : List FillPair) (c : Ctl) : Ctl :=
  let old := c.colls.spares.getD job {}
  let y : Spare := { source, pairs, running := true, promotable := old.promotable, promoted := old.promoted }
  c.onColls fun z => { z with spares := Tab.set job y z.spares }

/-- SPARE_FILL (R463); it answers when the fill has ended. -/
def execSpareFill (h : Hdr) (job source : Nat) (block : Ref) (pairs : List FillPair) (s : State) : Host.Outcome State Fault Refusal :=
  let n := pairs.length
  let args := spareFillArgs s h job source block pairs
  mbxRow { op := 0x0520, roles := [2] } h args (if 4 < n then [block] else []) s fun x w =>
    match jobCheck w.c x job (offOf args 0) with
    | some (e, d) => .fail e d
    | none =>
      if 64 < n || !fillPairsOk source pairs then badArg args 2
      else if !w.c.usable 18 then .fail 0x0205 0
      else if (w.c.colls.spares.get? job).any (·.running) then .fail 0x0203 0
      else if pairs.any fun p => !(w.c.inJobRegion job p.dst p.len
          && ((w.c.regionAt 2 (bits p.dst 43 0)).any fun r => r.2.key = p.dstKey)) then badArg args 2
      else
        let w := w.on (Ctl.beginFill job source pairs)
        if n = 0 then .ok (encode [.n 1 0]) (w.on (Ctl.fillEnd job 0)) else .wait (.fill job) (w.on (Ctl.fillPump 16 job))

/-- SPARE_PROMOTE (R464). -/
def execSparePromote (h : Hdr) (job : Nat) (s : State) : Host.Outcome State Fault Refusal :=
  let args := [jobArg job]
  mbxRow { op := 0x0521, roles := [2] } h args [] s fun _ w =>
    if !w.c.jobLive job then badArg args 0
    else if (w.c.colls.spares.get? job).any fun x => x.promotable && !x.running then
      .ok [] (w.on (Ctl.updSpare job fun x => { x with promoted := true }))
    else .fail 0x0204 0

/-- SPARE_STATUS (Table 15-10). -/
def execSpareStatus (h : Hdr) (job : Nat) (s : State) : Host.Outcome State Fault Refusal :=
  let args := [jobArg job]
  mbxRow { op := 0x0522, roles := [2, 0], lock := true } h args [] s fun _ w =>
    if !w.c.jobLive job then badArg args 0
    else
      let x := w.c.colls.spares.getD job {}
      .ok (encode [.n 1 x.done, .n 1 x.outcome, .n 1 (b2n x.promotable)]) w

end Sys2Proof.Machine
end

