-- ==== Sys2Proof/Machine/Dma.lean ====
section
/-! DEFINITION. The DMA engine: descriptors, bursts, records, halts, and its commands and window registers (chapter 11,
R550, R553). -/

namespace Sys2Proof.Machine

open Sys2Proof

/-! Descriptors (Table 11-1). -/

def dOp (d : List Byte) : Nat := fieldAt d 0 1
def dFlags (d : List Byte) : Nat := fieldAt d 1 1
def dSrcKind (d : List Byte) : Nat := fieldAt d 4 1
def dDstKind (d : List Byte) : Nat := fieldAt d 5 1
def dRows (d : List Byte) : Nat := fieldAt d 6 2 + 1
def dSrc (d : List Byte) : Nat := fieldAt d 8 8
def dDst (d : List Byte) : Nat := fieldAt d 16 8
def dLen (d : List Byte) : Nat := fieldAt d 32 8
def dSrcPitch (d : List Byte) : Nat := fieldAt d 40 8
def dDstPitch (d : List Byte) : Nat := fieldAt d 48 8
def dFence (d : List Byte) : Bool := bit (dFlags d) 1
def dQuiet (d : List Byte) : Bool := bit (dFlags d) 2

/-- Bytes of a descriptor. -/
def dTotal (d : List Byte) : Nat := if dOp d = 3 then 0 else dRows d * dLen d

/-- Where row i starts, as the address grows without wrapping. -/
def dSrcRow (d : List Byte) (i : Nat) : Nat := dSrc d + i * dSrcPitch d
def dDstRow (d : List Byte) (i : Nat) : Nat := dDst d + i * dDstPitch d

/-- Whether a row leaves its address space: 2^44 bytes of a fabric space, 2^64 of a host. -/
def rowLeaves (kind start len : Nat) : Bool :=
  decide (2 ^ 64 < start + len) || (kind = 0 && decide (2 ^ 44 < start % 2 ^ 44 + len))

/-- Fields and RSVD bits of Table 11-1. -/
def descFieldBad (d : List Byte) : Bool :=
  let op := dOp d
  let nop := op = 3
  op = 0 || decide (3 < op) || bits (dFlags d) 7 3 != 0 || decide (2 < dSrcKind d) || decide (2 < dDstKind d)
    || (op != 1 && dSrc d != 0) || (nop && dDst d != 0)
    || (if op = 1 && dSrcKind d = 0 then decide (2 ^ 24 ≤ fieldAt d 24 4) else fieldAt d 24 4 != 0)
    || (if !nop && dDstKind d = 0 then decide (2 ^ 24 ≤ fieldAt d 28 4) else fieldAt d 28 4 != 0)
    || (if nop then dLen d != 0 else dLen d = 0 || decide (2 ^ 36 < dLen d))
    || decide (2 ^ 40 ≤ dSrcPitch d) || decide (2 ^ 40 ≤ dDstPitch d) || (op != 2 && fieldAt d 56 8 != 0)

/-- DESC_INVALID (R324). -/
def descBad (d : List Byte) (ports : Nat) : Bool :=
  let kindBad := fun (k : Nat) => (k = 1 && !bit ports 0) || (k = 2 && !bit ports 1)
  descFieldBad d || kindBad (dSrcKind d) || kindBad (dDstKind d)
    || (dOp d != 3 && (List.range (dRows d)).any fun i =>
      rowLeaves (dDstKind d) (dDstRow d i) (dLen d)
        || (dOp d = 1 && (rowLeaves (dSrcKind d) (dSrcRow d i) (dLen d)
          || (dSrcKind d = dDstKind d && decide (dSrcRow d i < dDstRow d i + dLen d)
            && decide (dDstRow d i < dSrcRow d i + dLen d)))))

/-- The burst at byte pos: source and destination address and length (R326). -/
def burstAt (d : List Byte) (pos : Nat) : Nat × Nat × Nat :=
  let row := pos / dLen d
  let off := pos % dLen d
  let dst := dDstRow d row + off
  (dSrcRow d row + off, dst, min (512 - dst % 512) (dLen d - off))

/-- Mark a burst done: the leading bytes grow over what is done behind them. -/
def DescRun.advance (fuel : Nat) (d : DescRun) : DescRun :=
  match fuel with
  | 0 => d
  | f + 1 =>
    match d.done.find? (·.1 = d.doneTo) with
    | some x => advance f { d with doneTo := d.doneTo + x.2, done := d.done.erase x }
    | none => d

def DescRun.finishBurst (d : DescRun) (b : BurstRun) : DescRun :=
  let d := { d with flying := d.flying.filter (·.pos != b.pos), done := d.done ++ [(b.pos, b.len)] }
  d.advance d.done.length

/-- Whether no burst of a descriptor is in flight. -/
def DescRun.landed (d : DescRun) : Bool := d.flying.all (·.len = 0)

/-- Whether every write of a descriptor is complete (R329). -/
def DescRun.allDone (d : DescRun) : Bool := d.landed && decide (dTotal d.raw ≤ d.doneTo)

/-- The completion timestamp: when its writes are complete, or its last burst after its end by an ABORT or by DESC_INVALID
(R329). -/
def DescRun.stamped (tick : Nat) (d : DescRun) : DescRun :=
  if d.stamp.isNone && d.landed && (d.allDone || (d.final.isSome && d.final != some 3)) then { d with stamp := some tick } else d

/-- Restart at BYTES_DONE (R334). -/
def DescRun.restart (d : DescRun) : DescRun :=
  { d with next := d.doneTo, done := [], flying := [], final := if d.final = some 4 then some 4 else none, stamp := none
           stalled := false, flushed := false, recorded := false }

/-- A descriptor that goes on after a halt: what is in flight completes first, and then it restarts at its BYTES_DONE (R334,
R649). -/
def DescRun.resume (d : DescRun) : DescRun :=
  if d.final.isNone && d.landed && dTotal d.raw ≤ d.next && d.doneTo < dTotal d.raw then d.restart else d

namespace Ctl

def updChan (n : Nat) (f : DmaChan → DmaChan) (c : Ctl) : Ctl :=
  { c with chans := c.chans.map fun x => if x.1 = n then (n, f x.2) else x }

def updDesc (n idx : Nat) (f : DescRun → DescRun) : Ctl → Ctl :=
  updChan n fun x => { x with begun := x.begun.map fun d => if d.idx = idx then f d else d }

/-- The function in whose window a channel is live. -/
def liveFn (x : DmaChan) : Option Nat := if x.dead || 1 < x.fn then none else some x.fn

/-- A hardware set of a CHAN_STATUS bit: 0 DONE, 1 HALTED, 2 ABORTED, 3 DESC_ERR, 4 BAD_INDEX (R65, R336). -/
def setChanBit (n b : Nat) (c : Ctl) : Ctl :=
  match c.chans.get? n with
  | none => c
  | some x =>
    let c := c.updChan n fun x => { x with status := x.status ||| 2 ^ b, count := inc8 x.count }
    match liveFn x with
    | some f => c.updFn f (Fn.setDma x.queue)
    | none => c

/-- A W1C write to CHAN_STATUS; bits that stay set their group bit again (R336). -/
def w1cChan (n v : Nat) (c : Ctl) : Ctl :=
  let c := c.updChan n fun x => { x with status := clearBits x.status (v % 32) }
  match c.chans.get? n with
  | some x =>
    match liveFn x with
    | some f => if x.status != 0 then c.updFn f (Fn.setDma x.queue) else c
    | none => c
  | none => c

def badControl (n : Nat) : Ctl → Ctl := updChan n fun x => { x with badControl := inc32 x.badControl }

/-- A doorbell (R290, R291): accepted in every state; it sets an idle channel to work. -/
def doorbell (n v : Nat) (c : Ctl) : Ctl :=
  match c.chans.get? n with
  | none => c
  | some x =>
    let step := diff32 v (x.pi % 2 ^ 32)
    if x.pi + step ≤ x.ci + x.ring.size then
      c.updChan n fun x => { x with pi := x.pi + step, st := if x.st = .idle && 0 < step then .running else x.st }
    else (c.updChan n fun x => { x with badIndex := inc32 x.badIndex }).setChanBit n 4

/-- A CQ_HEAD write through the window of channel n (R330, R291). -/
def cqHead (n v : Nat) (c : Ctl) : Ctl :=
  match c.chans.get? n with
  | none => c
  | some x =>
    match c.cqs.get? x.queue with
    | none => c
    | some q =>
      let step := diff32 v (q.head % 2 ^ 32)
      if step ≤ q.records - q.head then { c with cqs := Tab.set x.queue { q with head := q.head + step } c.cqs }
      else (c.updChan n fun x => { x with badIndex := inc32 x.badIndex }).setChanBit n 4

/-- Every begun descriptor that has not completed is to record ABORTED. -/
def abortBegun (tick : Nat) (x : DmaChan) : List DescRun :=
  (x.begun.filter (!·.recorded)).map fun d => if d.final.isNone && !d.allDone then { d with final := some 2 }.stamped tick else d

/-- ABORT (R333, Table 11-3). -/
def dmaAbort (n : Nat) (c : Ctl) : Ctl :=
  match c.chans.get? n with
  | none => c
  | some x =>
    if x.st = .stopped || x.st = .disabled then c.badControl n
    else (c.updChan n fun x => { x with
      st := .stopped, fetchFailed := false, ahead := [], begun := abortBegun c.tick x }).setChanBit n 2

/-- The state after a resume: work or none. -/
def resumed (x : DmaChan) : DmaChan :=
  { x with
    st := if x.begun.isEmpty && x.next = x.pi then .idle else .running
    failed := false, fetchFailed := false, errAddr := 0, errInfo := 0, errDesc := 0 }

/-- The descriptors that go on after a halt (R334): one with no burst in flight restarts at its own BYTES_DONE; what a fetch that failed
has left in flight completes first (R649). -/
def goOn (d : DescRun) : DescRun :=
  if d.recorded || (d.final.isNone && d.landed && !d.allDone) then d.restart
  else if d.final = some 3 then { d with final := none } else d

/-- RESUME_RETRY (R334, R649). -/
def dmaRetry (n : Nat) (c : Ctl) : Ctl :=
  match c.chans.get? n with
  | none => c
  | some x =>
    if x.st != .halted then c.badControl n
    else c.updChan n fun x => resumed { x with
      ahead := if x.fetchFailed then [] else x.ahead
      begun := x.begun.map goOn }

/-- RESUME_SKIP (R334, R649). -/
def dmaSkip (n : Nat) (c : Ctl) : Ctl :=
  match c.chans.get? n with
  | none => c
  | some x =>
    if x.st = .stopped then c.updChan n resumed
    else if x.st != .halted then c.badControl n
    else
      c.updChan n fun (x : DmaChan) =>
        let x : DmaChan := { x with begun := (x.begun.filter fun (d : DescRun) => !d.recorded).map goOn }
        resumed (if x.fetchFailed then { x with next := x.next + 1, ci := x.ci + 1, ahead := x.ahead.drop 1 } else x)

/-! Records (R329, R330). -/

def chanIdle (x : DmaChan) : DmaChan :=
  if x.st = .running && x.begun.isEmpty && x.next = x.pi then { x with st := .idle } else x

/-- A completion record (Table 11-2), with the PHASE its place gives. -/
def dmaRecord (n : Nat) (d : DescRun) (status records m tick : Nat) : List Byte :=
  bytesAt d.raw 2 2 ++ leBytes 1 n ++ leBytes 1 status ++ leBytes 4 d.idx ++ leBytes 8 d.doneTo
    ++ leBytes 8 (dTotal d.raw - d.doneTo) ++ leBytes 8 (tick % 2 ^ 63 + (records / m + 1) % 2 * 2 ^ 63)

/-- What follows a descriptor's record, or its quiet completion: the slot is released, and a bus error's record brings
the channel to HALTED (R330, R332): that of the descriptor whose error was the first. -/
def afterRecord (n : Nat) (d : DescRun) (status : Nat) (recorded : Bool) (c : Ctl) : Ctl :=
  let c := c.updChan n fun x => { x with
    ci := if d.released then x.ci else x.ci + 1
    nDone := if status = 2 || status = 3 then x.nDone else inc32 x.nDone
    begun := if status = 3 && x.st != .stopped && !x.closing && x.rebind.isNone then x.begun.map fun e =>
        if e.idx = d.idx then { e with recorded := true, released := true } else e
      else x.begun.filter fun e => e.idx != d.idx }
  let c := if recorded && (bit (dFlags d.raw) 0 || status != 0) then c.setChanBit n 0 else c
  let c := if status = 4 then c.setChanBit n 3 else c
  let c := if status = 3 && (c.chans.get? n).any (·.errDesc = d.idx) then
      (c.updChan n fun x => { x with st := if x.st = .running then .halted else x.st }).setChanBit n 1
    else c
  c.updChan n chanIdle

/-- A channel whose records are all written and that was to be destroyed or rebound (R338, R553). -/
def settleChan (n : Nat) (c : Ctl) : Ctl :=
  match c.chans.get? n with
  | none => c
  | some x =>
    if !x.begun.isEmpty then c
    else if x.closing then
      ({ c with chans := Tab.del n c.chans }).finishOne (.channel n) 0 (encode [.n 4 (x.pi - x.next), .n 4 x.lostRecs])
    else
      match x.rebind with
      | some (f, r) =>
        (c.updChan n fun x => { x with
          fn := f, ring := r, st := .idle, pi := 0, ci := 0, next := 0, ahead := [], failed := false, fetchFailed := false, errAddr := 0
          errInfo := 0, errDesc := 0, noRecords := false, dead := false, rebind := none }).finishOne (.rebind n f r) 0 []
      | none => c

end Ctl

/-- Write a record of a channel to its queue: none where the queue is full or no tag is free. -/
def W.putRecord (n : Nat) (x : DmaChan) (d : DescRun) (status tick : Nat) (w : W) : Option W :=
  match w.c.cqs.get? x.queue with
  | none => none
  | some q =>
    if q.loc.size ≤ q.records - q.head then none
    else
      let out := Ctl.dmaRecord n d status q.records q.loc.size tick
      let a := q.loc.addr + 32 * (q.records % q.loc.size)
      let bump := fun (c : Ctl) => { c with cqs := Tab.set x.queue { q with records := q.records + 1 } c.cqs }
      if q.loc.kind = 0 then
        (w.c.request (.dmaRecord x.queue) (Ctl.reqPkt 2 q.job (a % 2 ^ 64) q.loc.key 0 out) []).map fun r =>
          { w with c := bump r.2 }
      else if (w.c.fn (q.loc.kind - 1)).linkUp then
        some ({ w with b := w.b.op (.raw (hostBase (q.loc.kind - 1) + a % 2 ^ 64) out) }.on bump)
      else some (w.on bump)

/-- Whether a record must wait for a read of the port that its descriptor has written: its queue lies in the other host (R328). -/
def needsFlush (d : DescRun) (q : DmaCq) : Bool :=
  !d.flushed && (d.doneTo != 0 || !d.done.isEmpty) && dDstKind d.raw != 0 && q.loc.kind != 0 && q.loc.kind != dDstKind d.raw

/-- The read of no bytes from the port written. -/
def flushRun (d : DescRun) : BurstRun := { pos := dTotal d.raw, len := 0, at_ := .hostRead }

/-- Complete the first descriptor of a channel that has no record, where its writes are complete and its record has a
place (R328 to R330). The read that its record waits for goes out first, and completes. -/
def W.recordStep (n : Nat) (w : W) : W :=
  match w.c.chans.get? n with
  | none => w
  | some x =>
    match x.begun.find? (!·.recorded) with
    | none => w
    | some d =>
      if !(d.landed && (d.final.isSome || d.allDone) && (d.final != some 3 || x.begun.all (·.landed))) then w
      else
        let status := d.final.getD (if d.carried then 1 else 0)
        let q := w.c.cqs.get? x.queue
        let full := q.all fun q => decide (q.loc.size ≤ q.records - q.head)
        if (status = 0 && dQuiet d.raw) || x.noRecords then w.on (Ctl.afterRecord n d status false)
        else if full && x.closing then
          (w.on fun c => c.updChan n fun x => { x with lostRecs := x.lostRecs + 1 }).on (Ctl.afterRecord n d status false)
        else if full then
          if d.stalled then w
          else w.on fun c => (c.updChan n fun x => { x with cqStalls := inc32 x.cqStalls }).updDesc n d.idx fun d =>
            { d with stalled := true }
        else if d.flying.isEmpty && q.any (needsFlush d) then w.on (Ctl.updDesc n d.idx fun d => { d with flying := [flushRun d] })
        else if !d.flying.isEmpty && !(w.c.fn (dDstKind d.raw - 1)).linkUp then w
        else
          match w.putRecord n x d status (d.stamp.getD w.c.tick) with
          | none => w
          | some w => w.on (Ctl.afterRecord n d status true)

def W.recordNext (n : Nat) (w : W) : W := (w.recordStep n).on (Ctl.settleChan n)

/-! Bursts (R326, R328, R331). -/

def W.completeBurst (n : Nat) (d : DescRun) (b : BurstRun) (w : W) : W :=
  w.on fun c => (c.updDesc n d.idx fun d => (d.finishBurst b).stamped c.tick).updChan n fun x => { x with bytesMoved := x.bytesMoved + b.len }

def W.setBurst (n idx : Nat) (b : BurstRun) (w : W) : W :=
  w.on (Ctl.updDesc n idx fun d => { d with flying := d.flying.filter (·.pos != b.pos) ++ [b] })

/-- Poisoned lines of a destination, from the poisoned lines of the source (R331). -/
def destMask (src dst len mask : Nat) : Nat :=
  ofBitList ((List.range (len + 63)).filter fun l => (List.range len).any fun i =>
    bit mask ((src % 64 + i) / 64) && (dst % 64 + i) / 64 = l)

/-- Write a burst's data, under the tag that the burst holds (R322, R326, R331): none while that still lingers. -/
def W.writeBurst (n : Nat) (x : DmaChan) (d : DescRun) (b : BurstRun) (data : List Byte) (mask : Nat) (w : W) : Option W :=
  let (src, dst, len) := burstAt d.raw b.pos
  let carry := fun (w : W) =>
    if mask = 0 then w
    else w.on fun c => (c.updDesc n d.idx fun d => { d with carried := true }).updChan n fun x =>
      { x with poisonLines := (x.poisonLines + popCount mask 64) % 2 ^ 32 }
  if dDstKind d.raw = 0 then
    match b.tag with
    | none => none
    | some tag =>
      if w.c.fabric.lingering.has tag then none
      else
        let p := Ctl.reqPkt 2 x.job (dst % 2 ^ 64) (fieldAt d.raw 28 4) (destMask src dst len mask) data
        some (carry ({ w with c := w.c.requestOn tag (.dma n d.idx b.pos true) p [] }.setBurst n d.idx { b with at_ := .writing }))
  else if mask != 0 then some (w.setBurst n d.idx { b with at_ := .hostRead, err := some (3, 0, 0, src) })
  else
    let port := dDstKind d.raw - 1
    let w := w.setBurst n d.idx b
    some ((if (w.c.fn port).linkUp then { w with b := w.b.op (.raw (hostBase port + dst % 2 ^ 64) data) }
      else w).completeBurst n d b)

/-- Data that a burst has read: written, or held while its tag lingers. -/
def W.burstData (n : Nat) (x : DmaChan) (d : DescRun) (b : BurstRun) (data : List Byte) (mask : Nat) (w : W) : W :=
  match w.writeBurst n x d b data mask with
  | some w => w
  | none => w.setBurst n d.idx { b with at_ := .ready data mask }

/-- A fabric access of a burst completes (R328, R332). -/
def W.dmaDone (n idx pos : Nat) (write : Bool) (res : Except Nat (List Byte × Nat)) (w : W) : W :=
  match w.c.chans.get? n with
  | none => w
  | some x =>
    match x.begun.find? (·.idx = idx) with
    | none => w
    | some d =>
      match d.flying.find? (·.pos = pos) with
      | none => w
      | some b =>
        let (src, dst, len) := burstAt d.raw pos
        match res with
        | .error code =>
          w.setBurst n idx { b with err := some (1, code, b2n write, if write then dst % 2 ^ 64 else src % 2 ^ 64) }
        | .ok (data, mask) =>
          if write then w.completeBurst n d b else w.burstData n x d b (bytesAt data (src % 64) len) mask

/-- Whether a channel may issue: running, and no bus error met (R332). -/
def mayIssue (x : DmaChan) : Bool :=
  x.st = .running && !x.failed && !(x.begun.any fun d => d.flying.any (·.err.isSome))

/-- The descriptor whose burst is next, and whether every one before it is complete (R327). -/
def nextDesc (x : DmaChan) : Option (DescRun × Bool) :=
  match (x.begun.map (·.resume)).find? fun d => d.final.isNone && decide (d.next < dTotal d.raw) with
  | none => none
  | some d => some (d, (x.begun.takeWhile fun e => e.idx != d.idx).all fun e => e.recorded || e.allDone || (e.final.isSome && e.landed))

/-- Non-posted requests that the bursts reading from a host have out on its port, each of at most the max read request size. -/
def Ctl.hostReadsOut (c : Ctl) (port : Nat) : Nat :=
  (c.chans.vals.flatMap fun x => x.begun.flatMap fun d =>
    if dOp d.raw != 2 && dSrcKind d.raw = port + 1 then
      (d.flying.filter fun b => b.at_ = .hostRead).map fun b => ceilDiv b.len (c.fn port).mrrs
    else []).sum

/-- Whether a burst may read from its host: a port has at most 768 non-posted requests outstanding (Table 18-1). -/
def Ctl.hostRoom (c : Ctl) (d : DescRun) : Bool :=
  dOp d.raw = 2 || dSrcKind d.raw = 0 ||
    decide (c.hostReadsOut (dSrcKind d.raw - 1) + ceilDiv (burstAt d.raw d.next).2.2 (c.fn (dSrcKind d.raw - 1)).mrrs ≤ 768)

/-- Whether a channel can be granted a burst: the engine is usable, the channel may issue, holds a token and can have a tag, no
FENCE holds its next read back, and its host can take the read (R45, R320, R322, R327, R544). -/
def Ctl.dmaReady (c : Ctl) (n : Nat) (x : DmaChan) : Bool :=
  c.usable 18 && mayIssue x && x.gauge != 0 && (c.dmaTag n).isSome
    && (nextDesc x).any fun y => !(dFence y.1.raw && y.1.next = 0 && !y.2) && c.hostRoom y.1

/-- The channel that the network serves next: the channels that can have a burst take turns (R321). -/
def Ctl.dmaNext (c : Ctl) : Option Nat :=
  ((List.range 64).map fun i => (c.fabric.dmaTurn + 1 + i) % 64).find? fun n => (c.chans.get? n).any (c.dmaReady n)

/-- Issue a burst under a tag (R320, R322, R326). -/
def W.issueBurst (n tag : Nat) (x : DmaChan) (d : DescRun) (host : HostRead) (w : W) : W :=
  let (src, _, len) := burstAt d.raw d.next
  let b : BurstRun := { pos := d.next, len, at_ := .reading, tag := some tag }
  let w := w.on fun c => ((c.updChan n fun x => { x with gauge := x.gauge - 1 }).updDesc n d.idx fun e =>
    { e.resume with next := d.next + len }).onFabric fun f => { f with dmaTurn := n }
  if dOp d.raw = 2 then
    let row := d.next % dLen d.raw
    w.burstData n x d b ((List.range len).map fun i => (bytesAt d.raw (56 + (row + i) % 8) 1).headD 0) 0
  else if dSrcKind d.raw = 0 then
    let p := Ctl.reqPkt 1 x.job (src / 64 * 64 % 2 ^ 64) (fieldAt d.raw 24 4) (roundUp (src % 64 + len) 64 - 1) []
    { w with c := w.c.requestOn tag (.dma n d.idx b.pos false) p [] }.setBurst n d.idx b
  else
    match host with
    | .none => w.setBurst n d.idx { b with at_ := .hostRead }
    | .data l => w.burstData n x d b (bytesAt l (src % 64) len) 0
    | .poisoned l mask =>
      (w.on (Ctl.updFn (dSrcKind d.raw - 1) fun f => { f with poisonedCpl := inc32 f.poisonedCpl })).burstData n x d b
        (bytesAt l (src % 64) len) (mask % 2 ^ ((src % 64 + len + 63) / 64))

/-- DMA_BURST_ISSUE (R320 to R322, R326, R327): a write that waits for its tag goes first; else the channel has its turn. -/
def execDmaBurstIssue (n : Nat) (host : HostRead) (s : State) : Host.Outcome State Fault Refusal :=
  ret (n < 64) (s.act fun w =>
    match w.c.chans.get? n with
    | none => w
    | some x =>
      let held := x.begun.findSome? fun d => d.flying.findSome? fun b =>
        match b.at_ with
        | .ready data mask => if b.err.isNone then some (d, b, data, mask) else none
        | _ => none
      match held with
      | some (d, b, data, mask) => (w.writeBurst n x d b data mask).getD w
      | none =>
        if w.c.dmaNext != some n then w
        else
          match nextDesc x, w.c.dmaTag n with
          | some (d, _), some tag => w.issueBurst n tag x d host
          | _, _ => w)

/-! The begin of a descriptor (R323 to R325, R649). -/

/-- Whether a channel is to begin a descriptor: it runs, every burst of those begun is issued, and the ring holds
another. -/
def mayBegin (x : DmaChan) : Bool :=
  x.st = .running && !x.failed && !x.fetchFailed && decide (x.next < x.pi)
    && x.begun.all (fun d => d.final.isSome || decide (dTotal d.raw ≤ d.resume.next))

/-- Where the descriptor of an index lies. -/
def fetchAddr (x : DmaChan) (idx : Nat) : Nat := (x.ring.addr + 64 * (idx % x.ring.size)) % 2 ^ 64

/-- A fetch from this module's memory, under the ring's key: it waits while a READ would be held, in a link that retrains or by a stack
in TRAINING (Tables 10-5 and 19-1). -/
def W.fetchHere (x : DmaChan) (a : Nat) (w : W) : Option (Fetched × W) :=
  let p := { Ctl.reqPkt 1 x.job a x.ring.key 63 [] with src := w.c.selfModule, tag := 49152 }
  match w.c.homeCheck p with
  | .error e => some (.bad 1 e, w)
  | .ok _ =>
    if w.c.wayHeld p || w.c.writeHeld p then none
    else
      let r := w.readRange (bits a 47 44) (bits a 43 0) 64 0
      some (if r.1.2 != 0 then .bad 3 0 else .got r.1.1, r.2)

/-- Fetch the descriptors ahead of a running channel, up to 8 of them (R325): from this module's memory, or by a fabric READ; those of a
ring in a host come with the command that begins them. -/
def W.fetchAhead (n : Nat) : Nat → W → W
  | 0, w => w
  | f + 1, w =>
    match w.c.chans.get? n with
    | none => w
    | some x =>
      let idx := x.next + x.ahead.length
      let a := fetchAddr x idx
      let add := fun (e : Fetched) (w : W) => W.fetchAhead n f (w.on (Ctl.updChan n fun x => { x with ahead := x.ahead ++ [e] }))
      if x.st != .running || 8 ≤ x.ahead.length || x.pi ≤ idx || !w.c.usable 18 then w
      else if x.ring.kind != 0 then add .host w
      else if bits a 63 48 = w.c.selfModule then
        match w.fetchHere x a with
        | some r => add r.1 r.2
        | none => w
      else
        match w.c.dmaTag n with
        | some tag => add (.out tag) { w with c := w.c.requestOn tag (.dmaFetch n idx) (Ctl.reqPkt 1 x.job a x.ring.key 63 []) [] }
        | none => w

/-- The fetch of a descriptor from another module completes (R649); one that is awaited no more has no effect. -/
def W.dmaFetched (n tag : Nat) (res : Except Nat (List Byte × Nat)) (w : W) : W :=
  let e : Fetched := match res with
    | .error code => .bad 1 code
    | .ok (data, mask) => if mask != 0 then .bad 3 0 else .got (bytesAt data 0 64)
  w.on (Ctl.updChan n fun x => { x with ahead := x.ahead.map fun y => if y = .out tag then e else y })

/-- The bytes of the descriptor that a channel begins next, where its fetch has succeeded. -/
def nextRaw (x : DmaChan) (fetched : List Byte) : Option (List Byte) :=
  match x.ahead with
  | .got raw :: _ => some raw
  | .host :: _ => some (bytesAt fetched 0 64)
  | _ => none

/-- A channel begins a descriptor: it is checked in full (R324), and one that moves nothing is complete. -/
def W.beginDesc (n : Nat) (raw : List Byte) (w : W) : W :=
  w.on fun c => c.updChan n fun x => { x with
    next := x.next + 1
    ahead := x.ahead.drop 1
    begun := x.begun ++ [DescRun.stamped c.tick { idx := x.next, raw, final := if descBad raw x.ports then some 4 else none }] }

/-- The row of a descriptor opcode: the channel begins its next descriptor where that is of the opcode; one that is
invalid is begun by each of them and completes with DESC_INVALID. -/
def beginRow (op n : Nat) (fetched : List Byte) (s : State) : Host.Outcome State Fault Refusal :=
  ret (n < 64) (s.act fun w =>
    let w := w.fetchAhead n 8
    match w.c.chans.get? n with
    | none => w
    | some x =>
      match nextRaw x fetched with
      | none => w
      | some raw => if mayBegin x && (dOp raw = op || descBad raw x.ports) then w.beginDesc n raw else w)

/-- COPY (R323 to R326). -/
def execDmaCopy (n : Nat) (fetched : List Byte) (s : State) : Host.Outcome State Fault Refusal := beginRow 1 n fetched s
/-- FILL (R323, R326). -/
def execDmaFill (n : Nat) (fetched : List Byte) (s : State) : Host.Outcome State Fault Refusal := beginRow 2 n fetched s
/-- NOP (R323): it moves nothing and completes. -/
def execDmaNop (n : Nat) (fetched : List Byte) (s : State) : Host.Outcome State Fault Refusal := beginRow 3 n fetched s

/-- DMA_DESCRIPTOR_COMPLETE (R329, R330). -/
def execDmaDescriptorComplete (n : Nat) (s : State) : Host.Outcome State Fault Refusal :=
  ret (n < 64) (s.act (W.recordNext n))

/-- DMA_RECORD_DEFERRED (R330): room has come in a full queue, and the first channel that waits writes its record. -/
def execDmaRecordDeferred (q : Nat) (s : State) : Host.Outcome State Fault Refusal :=
  ret (q < 16) (s.act fun w =>
    match w.c.chans.find? fun x => x.2.queue = q && (x.2.begun.find? (!·.recorded)).any (·.stalled) with
    | some (n, _) => w.recordNext n
    | none => w)

/-! Bus errors (R332, R649). -/

/-- ERR_INFO (Table 11-7). -/
def errInfo (kind status port dir : Nat) : Nat := status * 65536 + kind * 256 + port * 2 + dir

/-- A bus error: the first is latched and stops the channel; its descriptor records BUS_ERROR, or ABORTED after an
ABORT, and so does one before it whose burst fails after that. -/
def Ctl.dmaFault (n idx pos addr info : Nat) (c : Ctl) : Ctl :=
  let c := c.updDesc n idx fun d => { d with flying := d.flying.filter (·.pos != pos), flushed := d.flushed || pos = dTotal d.raw }
  match c.chans.get? n with
  | none => c
  | some x =>
    let c := c.updChan n fun x => { x with busErrors := inc32 x.busErrors }
    let c := if x.failed then c else c.updChan n fun x => { x with failed := true, errAddr := addr, errInfo := info, errDesc := idx }
    c.updDesc n idx fun d =>
      DescRun.stamped c.tick { d with final := if d.final.isNone && (!x.failed || idx < x.errDesc) then some 3 else d.final }

/-- The host port that a burst reads. -/
def portOf (d : DescRun) (b : BurstRun) : Nat := (if b.len = 0 then dDstKind d.raw else dSrcKind d.raw) - 1

/-- The host address that a burst reads; the read of R328 is of the port's memory at its descriptor's destination. -/
def readAddr (d : DescRun) (b : BurstRun) : Nat := (if b.len = 0 then dDst d.raw else (burstAt d.raw b.pos).1) % 2 ^ 64

/-- DMA_BUS_ERROR (R332): the burst named meets the error its access completed with; one whose host read is outstanding
meets a PCIe error. -/
def execDmaBusError (n : Nat) (e : BusErr) (s : State) : Host.Outcome State Fault Refusal :=
  ret (n < 64) (s.act (W.on fun c =>
    match c.chans.get? n with
    | none => c
    | some x =>
      match x.begun.findSome? fun d => (d.flying.find? fun b =>
          b.pos = e.burst && (b.err.isSome || (e.kind = 2 && b.at_ = .hostRead))).map fun b => (d, b) with
      | none => c
      | some (d, b) =>
        match b.err with
        | some (kind, status, dir, addr) =>
          if kind = e.kind then c.dmaFault n d.idx b.pos (addr % 2 ^ 64) (errInfo kind status 0 dir) else c
        | none =>
          let port := portOf d b
          let c := if e.status = 1 then c.updFn port fun f => { f with cplTimeouts := inc32 f.cplTimeouts } else c
          c.dmaFault n d.idx b.pos (readAddr d b) (errInfo 2 0 port 0)))

/-- DESCRIPTOR_FETCH_FAIL (R649): the fetch failed for the index that the channel would begin; that of a ring in a host fails as the
command says. -/
def execDescriptorFetchFail (n : Nat) (e : BusErr) (s : State) : Host.Outcome State Fault Refusal :=
  ret (n < 64 && 1 ≤ e.kind && e.kind ≤ 3 && e.status < 65536) (s.act fun w =>
    let w := w.fetchAhead n 8
    match w.c.chans.get? n with
    | none => w
    | some x =>
      let fail := match x.ahead with
        | .bad kind status :: _ => some (kind, status)
        | .host :: _ => if e.kind = 1 then none else some (e.kind, 0)
        | _ => none
      match fail with
      | some (kind, status) =>
        if !mayBegin x then w
        else
          let port := if kind = 2 then x.ring.kind - 1 else 0
          w.on fun c =>
            (c.updChan n fun x => { x with
              busErrors := inc32 x.busErrors, errAddr := fetchAddr x x.next, errInfo := errInfo kind status port 0
              errDesc := x.next, failed := true, fetchFailed := true, st := .halted }).setChanBit n 1
      | none => w)

/-! The window (R337, Tables 11-4 to 11-6). -/

/-- Whether channel n's window is live in a function. -/
def Ctl.windowLive (c : Ctl) (fn n : Nat) : Bool := (c.chans.get? n).any fun x => Ctl.liveFn x = some fn

def windowRow (fn n : Nat) (f : Ctl → Ctl) (s : State) : Host.Outcome State Fault Refusal :=
  ret (fn < 2 && n < 64) (s.act (W.on fun c => if c.windowLive fn n then f c else c))

/-- DESC_PI_DOORBELL (R290, R291). -/
def execDescPiDoorbell (fn n v : Nat) (s : State) : Host.Outcome State Fault Refusal := windowRow fn n (Ctl.doorbell n v) s
/-- CQ_HEAD_WRITE (R330). -/
def execCqHeadWrite (fn n v : Nat) (s : State) : Host.Outcome State Fault Refusal := windowRow fn n (Ctl.cqHead n v) s
/-- ABORT (R333). -/
def execDmaAbort (fn n : Nat) (s : State) : Host.Outcome State Fault Refusal := windowRow fn n (Ctl.dmaAbort n) s
/-- RESUME_RETRY (R334). -/
def execResumeRetry (fn n : Nat) (s : State) : Host.Outcome State Fault Refusal := windowRow fn n (Ctl.dmaRetry n) s
/-- RESUME_SKIP (R334). -/
def execResumeSkip (fn n : Nat) (s : State) : Host.Outcome State Fault Refusal := windowRow fn n (Ctl.dmaSkip n) s

/-- CHAN_STATUS (Table 11-5). -/
def chanStatusWord (x : DmaChan) : Nat := x.count * 2 ^ 24 + x.st.code * 256 + x.status

/-! Mailbox commands (Table 11-8, R553). -/

def isPow2 (n lo hi : Nat) : Bool := (List.range 17).any fun k => n = 2 ^ k && decide (lo ≤ k) && decide (k ≤ hi)

/-- Arguments of a ring location: kind, address, key, size. -/
def ringArgs (r : RingLoc) (lo hi : Nat) : List Arg :=
  [Arg.num 1 (decide (r.kind < 3)), Arg.num 8 (decide (r.addr < 2 ^ 64)), Arg.num 4 (decide (r.key < 2 ^ 24)),
    Arg.num 4 (isPow2 r.size lo hi)]

/-- DMA_CQ_CREATE (R319, R329). Queue 0xFF is "any". -/
def execDmaCqCreate (h : Hdr) (queue job : Nat) (loc : RingLoc) (s : State) : Host.Outcome State Fault Refusal :=
  let args := [Arg.num 1 (queue < 16 || queue = 0xFF), Arg.num 2 (1 ≤ job && job < 65536)] ++ ringArgs loc 6 16
  mbxRow { op := 0x0250, roles := [0, 1] } h args [] s fun x w =>
    match jobCheck w.c x job (offOf args 1) with
    | some (e, d) => .fail e d
    | none =>
      if !w.c.usable 18 then .fail 0x0205 0
      else if queue != 0xFF && w.c.cqs.has queue then .fail 0x0107 (offOf args 0)
      else
        match if queue = 0xFF then w.c.cqs.firstFree 0 16 else some queue with
        | none => .fail 0x0301 0
        | some q => .ok (encode [.n 1 q]) (w.on fun c => { c with cqs := Tab.set q { job, loc } c.cqs })

/-- DMA_CQ_DESTROY (R338). -/
def execDmaCqDestroy (h : Hdr) (q : Nat) (s : State) : Host.Outcome State Fault Refusal :=
  let args := [Arg.num 1 (decide (q < 16))]
  mbxRow { op := 0x0251, roles := [0, 1] } h args [] s fun x w =>
    match w.c.cqs.get? q with
    | none => badArg args 0
    | some c =>
      if !x.owns c.job then .fail 0x0404 0
      else if w.c.chans.vals.any (·.queue = q) then .fail 0x0204 0
      else .ok [] (w.on fun c => { c with cqs := Tab.del q c.cqs })

/-- DMA_CHANNEL_CREATE (R319, R323, R337). -/
def execDmaChannelCreate (h : Hdr) (a : ChanArgs) (s : State) : Host.Outcome State Fault Refusal :=
  let args := [Arg.num 1 (a.chan < 64 || a.chan = 0xFF), Arg.num 2 (1 ≤ a.job && a.job < 65536), Arg.num 1 (decide (a.queue < 16))]
    ++ ringArgs a.ring 4 16 ++ [Arg.num 2 (1 ≤ a.share && a.share ≤ 256), Arg.num 1 (a.fn < 2 || a.fn = 0xFF),
      Arg.num 1 (decide (a.hostPorts < 4))]
  mbxRow { op := 0x0252, roles := [0, 1] } h args [] s fun x w =>
    match jobCheck w.c x a.job (offOf args 1) with
    | some (e, d) => .fail e d
    | none =>
      if !w.c.usable 18 then .fail 0x0205 0
      else
        match w.c.cqs.get? a.queue with
        | none => badArg args 2
        | some q =>
          if !x.owns q.job then .fail 0x0404 0
          else if q.job != a.job then .fail 0x0107 (offOf args 1)
          else if a.chan != 0xFF && w.c.chans.has a.chan then .fail 0x0107 (offOf args 0)
          else
            match if a.chan = 0xFF then w.c.chans.firstFree 0 64 else some a.chan with
            | none => .fail 0x0301 0
            | some n =>
              let d : DmaChan := {
                job := a.job, session := x.sid, queue := a.queue, ring := a.ring, share := a.share, newShare := a.share
                fn := a.fn, ports := a.hostPorts }
              .ok (encode [.n 1 n]) (w.on fun c => { c with chans := Tab.set n d c.chans })

/-- Look a channel up for a command (R522). -/
def chanFor (c : Ctl) (x : Ctx) (n : Nat) (args : List Arg) : Except Res DmaChan :=
  match c.chans.get? n with
  | none => .error (badArg args 0)
  | some d => if x.owns d.job then .ok d else .error (.fail 0x0404 0)

def chanArg (n : Nat) : Arg := Arg.num 1 (decide (n < 64))

/-- Stop a channel for good (R338): it acts as an ABORT; the channel goes once its records are written or discarded.
A channel already STOPPED has its begun descriptors aborted too; a rebind that waits for it ends with WRONG_STATE. -/
def Ctl.closeChan (n : Nat) (c : Ctl) : Ctl :=
  let c := if (c.chans.get? n).any fun x => x.st = .stopped || x.st = .disabled then c else c.dmaAbort n
  let c := match (c.chans.get? n).bind (·.rebind) with
    | some (f, r) => (c.updChan n fun x => { x with rebind := none }).finishOne (.rebind n f r) 0x0204 []
    | none => c
  c.updChan n fun x => { x with closing := true, begun := Ctl.abortBegun c.tick x }

/-- The records of a closing channel that waited for room in a full queue are written where room has come, and discarded. -/
def W.discardRecords (n : Nat) : Nat → W → W
  | 0, w => w
  | fuel + 1, w =>
    match w.c.chans.get? n with
    | some x => if x.begun.any (·.stalled) then W.discardRecords n fuel (w.recordStep n) else w
    | none => w

/-- DMA_CHANNEL_DESTROY (R338): written once the bursts in flight are complete. -/
def execDmaChannelDestroy (h : Hdr) (n : Nat) (s : State) : Host.Outcome State Fault Refusal :=
  let args := [chanArg n]
  mbxRow { op := 0x0253, roles := [0, 1] } h args [] s fun x w =>
    match chanFor w.c x n args with
    | .error r => r
    | .ok d =>
      if d.closing then .fail 0x0204 0
      else
        let w := (w.on (Ctl.closeChan n)).discardRecords n (d.begun.length + 1)
        let lost := ((w.c.chans.get? n).map (·.lostRecs)).getD 0
        let w := w.on (Ctl.settleChan n)
        if w.c.chans.has n then .wait (.channel n) w else .ok (encode [.n 4 (d.pi - d.next), .n 4 lost]) w

/-- DMA_CHANNEL_SHARE_SET (R338, R285): the new rate from the next refill. -/
def execDmaChannelShareSet (h : Hdr) (n share : Nat) (s : State) : Host.Outcome State Fault Refusal :=
  let args := [chanArg n, Arg.num 2 (1 ≤ share && share ≤ 256)]
  mbxRow { op := 0x0254, roles := [0, 1] } h args [] s fun x w =>
    match chanFor w.c x n args with
    | .error r => r
    | .ok _ => .ok (encode [.n 2 share]) (w.on (Ctl.updChan n fun d => { d with newShare := share }))

/-- DMA_CHANNEL_KICK (Table 11-8): as a doorbell write. -/
def execDmaChannelKick (h : Hdr) (n pi : Nat) (s : State) : Host.Outcome State Fault Refusal :=
  let args := [chanArg n, Arg.num 4 (decide (pi < 2 ^ 32))]
  mbxRow { op := 0x0255, roles := [0, 1] } h args [] s fun x w =>
    match chanFor w.c x n args with
    | .error r => r
    | .ok _ => .ok [] (w.on (Ctl.doorbell n pi))

/-- CQ_HEAD as every window of a group shows it. -/
def Ctl.headOf (c : Ctl) (q : Nat) : Nat := ((c.cqs.get? q).map (·.head)).getD 0

/-- DMA_CHANNEL_STATUS (Table 11-8): the window's registers, then the counters. -/
def execDmaChannelStatus (h : Hdr) (n : Nat) (s : State) : Host.Outcome State Fault Refusal :=
  let args := [chanArg n]
  mbxRow { op := 0x0256, roles := [0, 1], lock := true } h args [] s fun x w =>
    match chanFor w.c x n args with
    | .error r => r
    | .ok d =>
      .ok (encode [.n 4 d.pi, .n 4 d.ci, .n 4 (chanStatusWord d), .n 4 0, .n 8 d.errAddr, .n 4 d.errInfo,
        .n 4 (w.c.headOf d.queue), .n 4 d.errDesc, .raw 4 (zeros 28), .n 4 d.nDone, .n 8 d.bytesMoved, .n 4 d.busErrors,
        .n 4 d.poisonLines, .n 4 d.badIndex, .n 4 d.badControl, .n 4 d.cqStalls]) w

/-- HOST_CHANNEL_REBIND (R553): the begun descriptors record ABORTED first. -/
def execHostChannelRebind (h : Hdr) (n fn : Nat) (ring : RingLoc) (s : State) : Host.Outcome State Fault Refusal :=
  let args := [chanArg n, Arg.num 1 (fn < 2 || fn = 0xFF)] ++ ringArgs ring 4 16
  mbxRow { op := 0x0131, roles := [0, 1] } h args [] s fun x w =>
    match chanFor w.c x n args with
    | .error r => r
    | .ok d =>
      if d.st = .running || d.closing || d.rebind.isSome then .fail 0x0204 0
      else
        let w := w.on fun c =>
          (c.updChan n fun x => { x with begun := Ctl.abortBegun c.tick x, rebind := some (fn, ring) }).settleChan n
        match (w.c.chans.get? n).bind (·.rebind) with
        | some _ => .wait (.rebind n fn ring) w
        | none => .ok [] w

/-- HOST_CQ_REBIND (R553). -/
def execHostCqRebind (h : Hdr) (q : Nat) (loc : RingLoc) (s : State) : Host.Outcome State Fault Refusal :=
  let args := [Arg.num 1 (decide (q < 16))] ++ ringArgs loc 6 16
  mbxRow { op := 0x0132, roles := [0, 1] } h args [] s fun x w =>
    match w.c.cqs.get? q with
    | none => badArg args 0
    | some c =>
      if !x.owns c.job then .fail 0x0404 0
      else if w.c.chans.vals.any fun d => d.queue = q && d.st = .running then .fail 0x0204 0
      else .ok [] (w.on fun c => { c with cqs := c.cqs.map fun y => if y.1 = q then (q, { y.2 with loc, records := 0, head := 0 }) else y })

/-- A function reset at the DMA engine (R550): its channels stop as by ABORT, their windows dead; every host read
outstanding to its port completes as a timeout. -/
def Ctl.dmaFnReset (fn : Nat) (c : Ctl) : Ctl :=
  let c := c.chans.foldl (fun c (n, x) =>
    if x.fn != fn then c
    else
      let c := if x.st = .stopped then c else c.dmaAbort n
      let inside := (c.cqs.get? x.queue).any (·.loc.kind = fn + 1)
      c.updChan n fun x => { x with dead := true, noRecords := inside }) c
  c.chans.foldl (fun c (n, x) =>
    (x.begun.flatMap fun d => (d.flying.filter fun b => b.at_ = .hostRead && b.err.isNone && portOf d b = fn).map
      fun b => (d, b)).foldl (fun c (y : DescRun × BurstRun) =>
        (c.updFn fn fun f => { f with cplTimeouts := inc32 f.cplTimeouts }).dmaFault n y.1.idx y.2.pos (readAddr y.1 y.2)
          (errInfo 2 0 fn 0)) c) c

end Sys2Proof.Machine
end

