-- ==== Sys2Proof/Machine/Complete.lean ====
section
/-! DEFINITION. How a transaction of this module ends: responses, acknowledgements, NAKs, timeouts and lingering tags
(chapters 9, 13 and 14). -/

namespace Sys2Proof.Machine

open Sys2Proof

/-- What a requester does when its transaction completes: data and the mask of poisoned lines, or a fabric status. -/
def W.done (tag : Nat) (t : Txn) (res : Except Nat (List Byte × Nat)) (w : W) : W :=
  let dead : Bool := match res with
    | .error e => decide (e = 0x050B)
    | .ok _ => false
  match t.who with
  | .tile n id line => w.tileLine n id line res
  | .dma n idx pos write => w.dmaDone n idx pos write res
  | .dmaFetch n _ => w.dmaFetched n tag res
  | .coll id _ _ => if dead then w.moduleTrigger t.pkt.job t.pkt.dest 3 else w.collAcked id
  | .pipe id _ => if dead then w.moduleTrigger t.pkt.job t.pkt.dest 3 else w.pipeAcked id
  | .fill job pos => w.fillDone job pos res
  | .rc _ =>
    w.on (Ctl.finishOne (.stage tag) (match res with
      | .error e => e
      | .ok _ => 0) [])
  | .frog .. | .dmaRecord _ | .palette .. | .record => w

/-- Work that waits for a tag goes on: the collectives' and channels' packets, a fill's reads, a tile's lines. -/
def W.tagFreed (tag : Nat) (w : W) : W :=
  if tag < 49152 then w.meshPump 4 (tag / 256)
  else if 57344 ≤ tag && tag < 61440 then
    let w := (w.c.colls.colls.filter fun (x : Nat × Coll) => !x.2.outq.isEmpty).foldl (fun (w : W) (x : Nat × Coll) => w.on (Ctl.sendColl x.1 [])) w
    (w.c.colls.pipes.filter fun (x : Nat × Pipe) => !x.2.outq.isEmpty).foldl (fun (w : W) (x : Nat × Pipe) => w.on (Ctl.sendPipe x.1 [])) w
  else
    (w.c.colls.spares.filter fun (x : Nat × Spare) => x.2.running).foldl (fun (w : W) (x : Nat × Spare) => w.on (Ctl.fillPump 16 x.1)) w

/-- A response or acknowledgement that has arrived: discarded where its CRC fails (R381), else matched to its
transaction (R281, R282). -/
def W.respond (type : Nat) (p : Pkt) (seq : Nat) (res : Except Nat (List Byte × Nat)) (w : W) : W :=
  if p.type != type || !(w.c.fabric.arrivals.contains p) then w
  else
    let w := w.on (Ctl.takeArrival p)
    if !p.crcOk then w.on (Ctl.countDrop none 6)
    else
      let r := w.c.takeResp p.tag seq p.src
      let w := { w with c := r.2 }
      match r.1 with
      | some t => (w.done p.tag t res).tagFreed p.tag
      | none => w.tagFreed p.tag

/-- READ_RESP (R415): TYPE_ARG marks the poisoned lines. -/
def execReadResp (p : Pkt) (s : State) : Host.Outcome State Fault Refusal :=
  ret (pktOk p) (s.act (W.respond 0x10 p p.flowSeq (.ok (p.payload, p.typeArg))))

/-- ATOMIC_RESP (R415): the old value; a poisoned line is marked by POISON. -/
def execAtomicResp (p : Pkt) (s : State) : Host.Outcome State Fault Refusal :=
  ret (pktOk p) (s.act (W.respond 0x11 p p.flowSeq (.ok (p.payload, b2n (bit p.flags 2)))))

/-- ERROR_RESP (R411): the transaction completes with the status in TYPE_ARG. -/
def execErrorResp (p : Pkt) (s : State) : Host.Outcome State Fault Refusal :=
  ret (pktOk p) (s.act (W.respond 0x12 p p.flowSeq (.error (bits p.typeArg 15 0))))

/-- The acknowledgement of one recipient of a multicast, while others are awaited (R395). -/
def Ctl.partAck (p : Pkt) (c : Ctl) : Option Ctl :=
  match c.fabric.txns.get? p.tag with
  | some t =>
    if t.pkt.flowSeq = p.typeArg && t.copies != 0 && !t.want.isEmpty && t.want != [p.src] then
      let c' := c.onFabric fun f => { f with
        txns := Tab.set p.tag { t with want := t.want.erase p.src, acks := t.acks + 1 } f.txns }
      some (if t.want.contains p.src then c' else c'.countDup (tagUnit p.tag))
    else none
  | none => none

/-- ACK (R383): one packet of a flow is acknowledged and its window slot free; a multicast's once every recipient has
acknowledged. -/
def execFlowAck (p : Pkt) (s : State) : Host.Outcome State Fault Refusal :=
  ret (pktOk p) (s.act fun w =>
    if p.type = 0x18 && w.c.fabric.arrivals.contains p && p.crcOk then
      match w.c.partAck p with
      | some c => { w with c }.on (Ctl.takeArrival p)
      | none => w.respond 0x18 p p.typeArg (.ok ([], 0))
    else w.respond 0x18 p p.typeArg (.ok ([], 0)))

/-- A transaction is given up: TARGET_DEAD (R429). -/
def W.giveUp (tag : Nat) (t : Txn) (w : W) : W :=
  (((w.on (Ctl.retire tag false)).on (Ctl.targetDead t.pkt.job t.pkt.dest)).done tag t (.error 0x050B)).tagFreed tag

/-- Send a transaction's packet again. -/
def Ctl.resend (tag : Nat) (t : Txn) (c : Ctl) : Ctl :=
  let c := c.onFabric fun f => { f with txns := Tab.set tag t f.txns }
  match t.who with
  | .frog .. => c.frogCopy tag
  | _ => c.sendCopy tag

/-- NAK (R396, R397): HOP_DROP is resent at once and counts for nothing; another reason ends the copy, and the next goes out when
the timeout expires. One that comes at the moment at which the timeout has had the packet sent again is late: no second resend
follows (R71, R73). -/
def execFlowNak (p : Pkt) (s : State) : Host.Outcome State Fault Refusal :=
  ret (pktOk p) (s.act fun w =>
    if p.type != 0x19 || !(w.c.fabric.arrivals.contains p) then w
    else
      let w := w.on (Ctl.takeArrival p)
      if !p.crcOk then w.on (Ctl.countDrop none 6)
      else
        match w.c.fabric.txns.get? p.tag with
        | some t =>
          if t.copies = 0 || t.pkt.flowSeq % 2 ^ 24 != bits p.typeArg 31 8 then w.on (Ctl.countDup (tagUnit p.tag))
          else
            let n := { t with naks := t.naks + 1 }
            if t.late && t.sentAt = w.c.tick then
              (w.on (Ctl.onFabric fun f => { f with txns := Tab.set p.tag n f.txns })).on (Ctl.countLate (tagUnit p.tag))
            else if bits p.typeArg 7 0 = 1 then
              if Ctl.givenUp n then w.giveUp p.tag n else w.on (Ctl.resend p.tag n)
            else
              let n := { n with
                bad := if t.home.isSome || t.nakWait then t.bad else t.bad + 1
                nakWait := true }
              let w := w.on (Ctl.onFabric fun f => { f with txns := Tab.set p.tag n f.txns })
              if Ctl.givenUp n then w.giveUp p.tag n else w
        | none => w.on (Ctl.countDup (tagUnit p.tag)))

/-- FABRIC_TIMEOUT_EXPIRE (R75, R421, R425, R429): the packet is sent again under its number, to the home where a replica
did not answer. -/
def execFabricTimeoutExpire (tag : Nat) (s : State) : Host.Outcome State Fault Refusal :=
  ret (tag < 65536) (s.act fun w =>
    match w.c.fabric.txns.get? tag with
    | none => w
    | some t =>
      let frog := match t.who with
        | .frog .. => true
        | _ => false
      if frog || t.copies = 0 || w.c.tick < t.due then w
      else
        let w := w.on (Ctl.countTimeout (tagUnit tag))
        match t.home with
        | some p =>
          let base := (((w.c.fabric.maps.getD p.job []).find? fun r => r.home = p.dest && r.space = p.space && decide (r.base ≤ p.offset)
            && decide (p.offset + p.span ≤ r.base + r.len)).bind fun r => (r.replicas.find? fun x => x.module = t.pkt.dest && x.key = t.pkt.key).map (·.base)).getD 0
          w.on fun c => (c.onFabric fun f => { f with
            skip := Tab.set (Ctl.skipKey t.pkt.dest base) (c.tick + 1000000000) f.skip
            fallback := inc32 f.fallback }).resend tag { t with
              pkt := p
              home := none
              away := t.copies
              late := true }
        | none =>
          let t := { t with
            late := true
            bad := if t.nakWait then t.bad else t.bad + 1 }
          if Ctl.givenUp t then w.giveUp tag t else w.on (Ctl.resend tag t))

/-- TAG_LINGER_END (R281): four timeouts after the last copy the tag returns to the pool. -/
def execTagLingerEnd (tag : Nat) (s : State) : Host.Outcome State Fault Refusal :=
  ret (tag < 65536) (s.act fun w =>
    match w.c.fabric.lingering.get? tag with
    | some l =>
      if l.due ≤ w.c.tick then (w.on (Ctl.endLinger tag)).tagFreed tag else w
    | none => w)

end Sys2Proof.Machine
end

