-- ==== Sys2Proof/Machine/System.lean ====
section
/-! DEFINITION. The system, session, credential and job commands (chapter 17), and the rows of the mailbox
doorbells. -/

namespace Sys2Proof.Machine

def nonceBytes (b : BitVec 256) : List Byte := leBytes 32 b.toNat

/-- Credential number range (Table 17-9). -/
def credOk (n : Nat) : Bool := 1 ≤ n && n ≤ 1023

/-- SYS_VERSION (R515 to R517). -/
def execSysVersion (h : Hdr) (minMajor minMinor maxMajor maxMinor : Nat) (s : State) :
    Host.Outcome State Fault Refusal :=
  let one := fun a => Arg.num 1 (decide (a < 256))
  mbxRow { op := 0x0100, any := true, lock := true, gesso := true } h
    [one minMajor, one minMinor, one maxMajor, one maxMinor] [] s fun _ w =>
    let p := w.c.pair h.pair
    let lowOk := minMajor < 1 || (minMajor = 1 && minMinor = 0)
    let highOk := decide (1 ≤ maxMajor)
    if p.st != .bound && p.started != 0 then .fail 0x0203 0
    else if !(lowOk && highOk) then .fail 0x0108 0
    else
      let w := w.on fun c => c.updPair h.pair fun p =>
        if p.st = .bound then { p with st := .negotiated }
        else { p with
          st := .negotiated, session := none, ended := false, challenge := none, cmdPi := 0, cmdCi := 0, rspPi := 0
          rspCi := 0, evtPi := 0, evtCi := 0, rspMsgs := [], evtMsgs := [], held := [], evtSeq := 0, lost := 0 }
      .ok (encode [.n 1 1, .n 1 0, .n 4 w.c.rc.epoch, .n 8 Config.serial.toNat, .n 1 h.pair]) w

/-- SYS_SESSION_CHALLENGE (R519). -/
def execSysSessionChallenge (h : Hdr) (s : State) : Host.Outcome State Fault Refusal :=
  mbxRow { op := 0x0101, any := true, lock := true } h [] [] s fun _ w =>
    if (w.c.pair h.pair).st != .negotiated then .fail 0x0204 0
    else
      let (nonce, c) := w.c.draw
      .ok (encode [.raw 8 (nonceBytes nonce)])
        { w with c := c.updPair h.pair fun p => { p with challenge := some (nonce.toNat, c.tick + 10000000000) } }

/-- The proof of R519 with customisation string s. -/
def sessionProof (key : List Byte) (nonceM : Nat) (nonceC : List Byte) (pair cred role : Nat) (s : String) : List Byte :=
  kmac256 key (leBytes 32 nonceM ++ nonceC ++ leBytes 2 pair ++ leBytes 2 cred ++ leBytes 1 role) 256 s

/-- Give pair n a session of a credential; the session and its number. -/
def Ctl.openSession (n cred role : Nat) (jobs : List Nat) (c : Ctl) : Nat × Ctl :=
  let id := c.rc.nextSession
  let c := c.onRc fun r => { r with nextSession := if id + 1 < 2 ^ 32 then id + 1 else 1 }
  (id, c.updPair n fun p => { p with st := .opened, session := some { id, cred, role, jobs }, ended := false })

/-- FW_TRIAL to an OWNER session as it opens while a trial bank runs (Table 17-19). -/
def Ctl.tellTrial (n : Nat) (c : Ctl) : Ctl :=
  match c.rc.commitDue with
  | some due =>
    if (c.rc.banks.getD c.rc.runBank {}).st = 2 && (c.ctxOf n).role = 0 then
      c.evtWrite n 0x0103 (encode [.n 1 c.rc.runBank, .n 4 ((due - c.tick) / 1000000000)])
    else c
  | none => c

/-- Whether the open of R519 succeeds. -/
def Ctl.openOk (c : Ctl) (n wire cred role : Nat) (nonceC proof : List Byte) : Bool :=
  let p := c.pair n
  let path := if p.remote.isSome then 2 else p.fn
  match p.challenge, c.rc.creds.get? cred with
  | some (m, due), some k =>
    decide (c.tick < due) && k.role = role && bit k.access path
      && proof = sessionProof k.key m nonceC wire cred role "OLM"
  | _, _ => false

/-- A failed open counts against its CRED_ID; the eighth in a row stops its opens for 10 s (R519). -/
def Ctl.openFailed (cred : Nat) (c : Ctl) : Ctl :=
  let (n, _) := c.rc.credFails.getD cred (0, 0)
  c.onRc fun r => { r with
    credFails := Tab.set cred (if n + 1 < 8 then (n + 1, 0) else (0, c.tick + 10000000000)) r.credFails }

/-- The open proper, for a pair and the number it has on the wire (0xFFFF on the remote mailbox). -/
def Ctl.tryOpen (n wire cred role : Nat) (nonceC proof : List Byte) (c : Ctl) : Option (List Byte) × Ctl :=
  let stopped := decide (c.tick < (c.rc.credFails.getD cred (0, 0)).2)
  let m := ((c.pair n).challenge.map (·.1)).getD 0
  let ok := c.openOk n wire cred role nonceC proof
  let c := c.updPair n fun p => { p with challenge := none }
  if stopped then (none, c)
  else if ok then
    let k := (c.rc.creds.get? cred).getD ⟨role, [], [], 0⟩
    let c := c.onRc fun r => { r with credFails := Tab.del cred r.credFails }
    let (id, c) := c.openSession n cred role k.jobs
    (some (encode [.n 4 id, .raw 8 (sessionProof k.key m nonceC wire cred role "OLK")]), c)
  else (none, c.openFailed cred)

/-- SYS_SESSION_OPEN (R519). Every failure is PROOF_FAILED. -/
def execSysSessionOpen (h : Hdr) (cred role : Nat) (nonce proof : List Byte) (s : State) :
    Host.Outcome State Fault Refusal :=
  mbxRow { op := 0x0102, any := true, lock := true } h
    [Arg.num 2 (credOk cred), Arg.num 1 (decide (role ≤ 3)), Arg.blk 32 (nonce.length = 32), Arg.blk 32 (proof.length = 32)]
    [] s fun _ w =>
    if (w.c.pair h.pair).st != .negotiated then .fail 0x0204 0
    else
      match w.c.tryOpen h.pair h.pair cred role nonce proof with
      | (some body, c) => .okThen body { w with c } (Ctl.tellTrial h.pair)
      | (none, c) => .failWith 0x0402 0 { w with c }

/-- SYS_SESSION_CLOSE: written after every earlier command of the session, so it is taken once they have ended;
a remote pair is then UNBOUND (R509, R541, Table 17-12). -/
def execSysSessionClose (h : Hdr) (s : State) : Host.Outcome State Fault Refusal :=
  if (s.ctl.pair h.pair).started != 0 then ret (hdrOk h) s
  else
    mbxRow { op := 0x0103, lock := true } h [] [] s fun _ w =>
      .okThen [] w fun c => if (c.pair h.pair).remote.isSome then c.unbind h.pair else c.endSession h.pair

/-- SYS_IDENTIFY (Table 17-12). -/
def execSysIdentify (h : Hdr) (s : State) : Host.Outcome State Fault Refusal :=
  mbxRow { op := 0x0104, any := true, lock := true, gesso := true } h [] [] s fun _ w =>
    .ok (encode [.raw 1 (asciiBytes "TK90-M640-OA    "), .n 8 Config.serial.toNat, .n 4 0x00900100,
      .n 4 w.c.rc.fwVersion, .n 4 w.c.rc.epoch, .n 2 w.c.selfModule]) w

/-- SYS_READINESS: the 64 READY_ENTRY values (Table 17-12). -/
def execSysReadiness (h : Hdr) (s : State) : Host.Outcome State Fault Refusal :=
  mbxRow { op := 0x0105, any := true, lock := true, gesso := true } h [] [] s fun _ w =>
    .ok (encode ((List.range 64).map fun i => .n 4 (w.c.readyWord i))) w

/-- SYS_PAIR_RELEASE: written, then the pair is UNBOUND (Table 17-12, R509). -/
def execSysPairRelease (h : Hdr) (s : State) : Host.Outcome State Fault Refusal :=
  mbxRow { op := 0x0106, any := true, lock := true } h [] [] s fun _ w => .okThen [] w (Ctl.unbind h.pair)

/-- An event of the log as a message, numbered by EVENT_LOG_SEQ. -/
def LogEvent.bytes (e : LogEvent) : List Byte := Msg.bytes ⟨true, e.code, e.seq, 0, 0, 0, e.tick, e.body, 0⟩

/-- SYS_EVENT_LOG_READ (R535, Table 17-12). -/
def execSysEventLogRead (h : Hdr) (first count : Nat) (s : State) : Host.Outcome State Fault Refusal :=
  mbxRow { op := 0x0108, roles := [0], lock := true } h
    [Arg.num 4 (decide (first < 2 ^ 32)), Arg.num 1 (1 ≤ count && count ≤ 16)] [] s fun _ w =>
    .ok (encode [.list (fitting 8 (((w.c.rc.log.filter fun e => first ≤ e.seq).take count).map LogEvent.bytes))]) w

/-- SYS_CRED_CREATE (R518, Table 17-12): 0xFFFF is any number. JOBS is for TENANT only. -/
def execSysCredCreate (h : Hdr) (cred role : Nat) (key : List Byte) (jobs : List Nat) (access : Nat) (s : State) :
    Host.Outcome State Fault Refusal :=
  let args := [Arg.num 2 (credOk cred || cred = 0xFFFF), Arg.num 1 (decide (role ≤ 3)), Arg.blk 32 (key.length = 32)]
    ++ listArgs jobs.length (decide (jobs.length ≤ 16) && jobs.all fun j => 1 ≤ j && j < 65536)
    ++ [Arg.num 1 (decide (access < 8))]
  mbxRow { op := 0x0110, roles := [0] } h args (inlineBlocks h args (listBlocks jobs.length)) s fun _ w =>
    if role != 1 && !jobs.isEmpty then .fail 0x0107 (offOf args 3)
    else if 16 < jobs.length || !(jobs.all fun j => 1 ≤ j && j < 65536) then .fail 0x0102 (offOf args 3)
    else if cred != 0xFFFF && w.c.rc.creds.has cred then .fail 0x0107 16
    else
      match (if cred = 0xFFFF then w.c.rc.creds.firstFree 1 1023 else some cred) with
      | none => .fail 0x0301 0
      | some n =>
        .ok (encode [.n 2 n]) (w.on (Ctl.onRc fun r => { r with creds := Tab.set n ⟨role, key, jobs, access⟩ r.creds }))

/-- Every session of a credential ends (R521): commands started run on. -/
def Ctl.endSessionsOf (cred : Nat) (c : Ctl) : Ctl :=
  c.pairs.foldl (fun d (n, p) =>
    if p.session.any (·.cred = cred) then
      if p.remote.isSome then d.unbind n
      else d.updPair n fun p => { p with session := none, st := .negotiated, ended := true }
    else d) c

/-- SYS_CRED_REVOKE (R521): the last OWNER credential stays. -/
def execSysCredRevoke (h : Hdr) (cred : Nat) (s : State) : Host.Outcome State Fault Refusal :=
  mbxRow { op := 0x0111, roles := [0] } h [Arg.num 2 (credOk cred)] [] s fun _ w =>
    match w.c.rc.creds.get? cred with
    | none => .fail 0x0102 16
    | some k =>
      if k.role = 0 && (w.c.rc.creds.vals.filter (·.role = 0)).length ≤ 1 then .fail 0x0204 0
      else
        .okThen [] (w.on (Ctl.onRc fun r => { r with creds := Tab.del cred r.creds })) (Ctl.endSessionsOf cred)

def Cred.bytes (n : Nat) (k : Cred) (sessions : List Nat) : List Byte :=
  encodeAt 0 [.n 2 n, .n 1 k.role, .inl (k.jobs.map (leBytes 2)), .n 1 k.access, .inl (sessions.map (leBytes 4))]

def Ctl.sessionsOf (c : Ctl) (cred : Nat) : List Nat :=
  c.pairs.vals.filterMap fun p => p.session.bind fun s => if s.cred = cred then some s.id else none

/-- SYS_CRED_LIST (Table 17-12). -/
def execSysCredList (h : Hdr) (first count : Nat) (s : State) : Host.Outcome State Fault Refusal :=
  mbxRow { op := 0x0112, roles := [0] } h [Arg.num 2 (credOk first), Arg.num 1 (1 ≤ count && count ≤ 64)] [] s
    fun _ w =>
    let l := (w.c.rc.creds.filter fun p => first ≤ p.1).take count
    .ok (encode [.list (fitting 8 (l.map fun p => p.2.bytes p.1 (w.c.sessionsOf p.1)))]) w

/-- SYS_OWNER_CLAIM (R520): on a NEGOTIATED PCIe pair while no OWNER credential exists. -/
def execSysOwnerClaim (h : Hdr) (key : List Byte) (access : Nat) (s : State) : Host.Outcome State Fault Refusal :=
  mbxRow { op := 0x0113, any := true, lock := true } h [Arg.blk 32 (key.length = 32), Arg.num 1 (decide (access < 8))]
    [] s fun _ w =>
    let p := w.c.pair h.pair
    if p.st != .negotiated || p.remote.isSome || w.c.rc.creds.vals.any (·.role = 0) then .fail 0x0204 0
    else
      match w.c.rc.creds.firstFree 1 1023 with
      | none => .fail 0x0301 0
      | some n =>
        let c := w.c.onRc fun r => { r with creds := Tab.set n ⟨0, key, [], access⟩ r.creds }
        let (id, c) := c.openSession h.pair n 0 []
        .ok (encode [.n 2 n, .n 4 id]) { w with c }

/-- SYS_REMOTE_SET (Table 17-12, R537). -/
def execSysRemoteSet (h : Hdr) (enE0 enE1 port : Nat) (s : State) : Host.Outcome State Fault Refusal :=
  mbxRow { op := 0x0140, roles := [0] } h
    [Arg.num 1 (decide (enE0 < 2)), Arg.num 1 (decide (enE1 < 2)), Arg.num 2 (decide (port < 65536))] [] s fun _ w =>
    let w := w.on (Ctl.onRc fun r => { r with enE0 := enE0 = 1, enE1 := enE1 = 1, mgmtPort := port })
    .ok (encode [.n 1 enE0, .n 1 enE1, .n 2 port]) w

/-! Jobs. -/

def jobNumOk (j : Nat) : Bool := 1 ≤ j && j < 65536

/-- JOB_CREATE (R533, Table 17-14). -/
def execJobCreate (h : Hdr) (job : Nat) (tiles : List Nat) (s : State) : Host.Outcome State Fault Refusal :=
  let args := [Arg.num 2 (jobNumOk job), Arg.blk 24 (tiles.all (· < 192))]
  mbxRow { op := 0x05E0, roles := [0] } h args [] s fun _ w =>
    if w.c.jobLive job then .fail 0x0204 0
    else if tiles.any fun t => (w.c.jobOfTile t).isSome then .fail 0x0107 (offOf args 1)
    else if 64 ≤ w.c.jobs.length then .fail 0x0301 0
    else
      .ok [] (w.on fun c => { c with jobs := Tab.set job { tiles := tiles.foldl (fun l t => insNat t l) [] } c.jobs })

/-- JOB_STATUS (Table 17-14): tiles, one state byte per tile, numbers of objects, teardown flag. -/
def execJobStatus (h : Hdr) (job : Nat) (s : State) : Host.Outcome State Fault Refusal :=
  let args := [Arg.num 2 (jobNumOk job)]
  mbxRow { op := 0x05E1, roles := [0, 1, 2], lock := true } h args [] s fun x w =>
    match w.c.jobs.get? job with
    | none => .fail 0x0102 16
    | some j =>
      if !x.owns job then .fail 0x0404 0
      else
        let count := fun (l : List Nat) => (l.filter (· = job)).length
        .ok (encode [bitmap 192 j.tiles, .raw 1 ((List.range 192).flatMap fun t =>
            leBytes 1 (if j.tiles.contains t then tileStCode (w.c.tile t).st else 0)),
          .n 2 (count (w.c.fabric.regions.vals.map (·.job))), .n 1 (count (w.c.chans.vals.map (·.job))),
          .n 2 (count (w.c.cqs.vals.map (·.job) ++ w.c.stackTab.vals.flatMap fun s => s.queues.vals.map (·.job))),
          .n 1 (count (w.c.colls.colls.vals.map (·.a.job))), .n 1 (count (w.c.colls.pipes.vals.map (·.a.job))),
          .n 1 (b2n j.ending)]) w

/-! Doorbells. -/

/-- The halves and quarters of DOORBELL[n] (Table 17-4). A doorbell of a pair bound elsewhere, or of pairs
224 to 255, does nothing (R510). -/
def Ctl.boundTo (c : Ctl) (fn n : Nat) : Bool :=
  n < 224 && (c.pair n).st != .unbound && (c.pair n).fn = fn

/-- Whether a setup block is good: ring addresses multiples of 4,096, INDEX_ADDR of 64, sizes 6 to 15 (Table
17-6). -/
def setupOk (b : SetupBlock) : Bool :=
  b.readable && b.rsvdZero && b.cmdRing % 4096 = 0 && b.rspRing % 4096 = 0 && b.evtRing % 4096 = 0 && b.indexAddr % 64 = 0
    && [b.cmdLog2, b.rspLog2, b.evtLog2].all fun k => 6 ≤ k && k ≤ 15

/-- Carry out a setup (R510): SETUP_RESULT 1 bound, 2 refused. -/
def Ctl.setup (fn n addr : Nat) (b : SetupBlock) (c : Ctl) : Ctl :=
  if addr % 64 = 0 && setupOk b then
    c.setPair n {
      st := .bound, fn, cmdRing := b.cmdRing, rspRing := b.rspRing, evtRing := b.evtRing, indexAddr := b.indexAddr
      cmdN := 2 ^ b.cmdLog2, rspN := 2 ^ b.rspLog2, evtN := 2 ^ b.evtLog2, setupResult := 1 }
  else c.updPair n fun p => { p with setupResult := 2 }

/-- DOORBELL_SETUP (R510, R567): a 64-bit write to the doorbell of an UNBOUND pair of 0-223; before the firmware
accepts commands it is held. -/
def execDoorbellSetup (fn n addr : Nat) (b : SetupBlock) (s : State) : Host.Outcome State Fault Refusal :=
  ret (fn < 2 && n < 256) (s.act (W.on fun c =>
    if n < 224 && (c.pair n).st = .unbound then
      if c.rc.run = 3 || c.rc.run = 5 then c.setup fn n addr b
      else c.onRc fun r => { r with heldSetups := r.heldSetups ++ [(fn, n, addr, b)] }
    else c))

/-- A write to CMD_PI (R512, R290, R291). -/
def Ctl.cmdPi (fn n v : Nat) (c : Ctl) : Ctl :=
  let p := c.pair n
  if !c.boundTo fn n then c
  else if Ctl.diff32 v p.cmdPi < 2 ^ 31 && Ctl.diff32 v p.cmdCi ≤ p.cmdN then
    c.updPair n fun p => { p with cmdPi := v % 2 ^ 32 }
  else c.updPair n fun p => { p with badIndex := inc32 p.badIndex }

/-- CMD_PI_DOORBELL. -/
def execCmdPiDoorbell (fn n v : Nat) (s : State) : Host.Outcome State Fault Refusal :=
  ret (fn < 2 && n < 256) (s.act (W.on (Ctl.cmdPi fn n v)))

/-- The 32-bit value that agrees with v modulo 2^16 and lies between the consumer index k and the producer index
p (R511). -/
def widenIndex (v k p : Nat) : Option Nat :=
  let w := Ctl.add32 k ((v + 65536 - k % 65536) % 65536)
  if Ctl.diff32 w k ≤ Ctl.diff32 p k then some w else none

/-- A write to RSP_CI (R527): ring space returns, and held responses are written. -/
def Ctl.rspCi (fn n v : Nat) (c : Ctl) : Ctl :=
  let p := c.pair n
  if !c.boundTo fn n then c
  else
    match widenIndex (v % 65536) p.rspCi p.rspPi with
    | some k => (c.updPair n fun p => { p with rspCi := k }).drainHeld 64 n
    | none => c.updPair n fun p => { p with badIndex := inc32 p.badIndex }

/-- RSP_CI_WRITE. -/
def execRspCiWrite (fn n v : Nat) (s : State) : Host.Outcome State Fault Refusal :=
  ret (fn < 2 && n < 256) (s.act (W.on (Ctl.rspCi fn n v)))

/-- A write to EVT_CI (R536). -/
def Ctl.evtCi (fn n v : Nat) (c : Ctl) : Ctl :=
  let p := c.pair n
  if !c.boundTo fn n then c
  else
    match widenIndex (v % 65536) p.evtCi p.evtPi with
    | some k => (c.updPair n fun p => { p with evtCi := k }).evtsLost n
    | none => c.updPair n fun p => { p with badIndex := inc32 p.badIndex }

/-- EVT_CI_WRITE. -/
def execEvtCiWrite (fn n v : Nat) (s : State) : Host.Outcome State Fault Refusal :=
  ret (fn < 2 && n < 256) (s.act (W.on (Ctl.evtCi fn n v)))

/-- CHALLENGE_EXPIRE (R519): 10 s after it was issued. -/
def execChallengeExpire (pair : Nat) (s : State) : Host.Outcome State Fault Refusal :=
  ret (pair < 256) (s.act (W.on fun c =>
    match (c.pair pair).challenge with
    | some (_, due) => if due ≤ c.tick then c.updPair pair fun p => { p with challenge := none } else c
    | none => c))

end Sys2Proof.Machine
end

