-- ==== Sys2Proof/Machine/Host.lean ====
section
/-! DEFINITION. The host's registers in BAR0, MSI-X, the reset of a function, the PCIe links and the Ethernet ports
(R506 to R508 and chapter 18). -/

namespace Sys2Proof.Machine

open Sys2Proof

/-! BAR0 (Table 17-1). -/

/-- Bits of a status register that are set again by sets pending while a W1C write is in application (R67). -/
def setAgain (bits : List Nat) (width : Nat) (f : Nat → Ctl → Ctl) (c : Ctl) : Ctl :=
  (bits.filter (· < width)).foldl (fun c b => f b c) c

namespace Ctl

/-- A W1C write to the status register at an offset, then the sets that met it; `none` where no status register lies
there. -/
def w1cAt (fn off v : Nat) (meets : List Nat) (c : Ctl) : Option Ctl :=
  if off = 0xC00 then some (setAgain meets 3 (fun b => updFn fn (Fn.setInt b)) (c.updFn fn (Fn.w1cInt v)))
  else if off = 0xC08 then some (setAgain meets 16 (fun g => updFn fn (Fn.setDma g)) (c.updFn fn (Fn.w1cDma v)))
  else if 0xC40 ≤ off && off < 0xC80 && off % 4 = 0 then
    let k := (off - 0xC40) / 4
    some (setAgain meets 16 (fun b => updFn fn (Fn.setMbx (16 * k + b))) (c.updFn fn (Fn.w1cMbx k v)))
  else if 0x1000 ≤ off && off < 0x2000 && off % 64 = 8 then
    let n := (off - 0x1000) / 64
    if c.windowLive fn n then some (setAgain meets 5 (setChanBit n) (c.w1cChan n v)) else some c
  else none

/-- CHAN_CONTROL (Table 11-6): a write of more than one of its bits is ignored and counted; the reserved bits have no effect
(R15). -/
def chanControl (n v : Nat) (c : Ctl) : Ctl :=
  match v % 8 with
  | 1 => c.dmaAbort n
  | 2 => c.dmaRetry n
  | 4 => c.dmaSkip n
  | 0 => c
  | _ => c.badControl n

/-- A 4-byte write to BAR0 (R14, R506): masks store, status registers clear, doorbells and channel windows act, and every
other offset ignores it. -/
def wordWrite (fn off v : Nat) (c : Ctl) : Ctl :=
  match c.w1cAt fn off v [] with
  | some c => c
  | none =>
    if off = 0xC04 then c.updFn fn fun f => { f with intMask := v % 8 }
    else if off = 0xC0C then c.updFn fn fun f => { f with dmaMask := v % 65536 }
    else if 0xC80 ≤ off && off < 0xCC0 then c.updFn fn fun f => { f with mbxMask := Tab.set ((off - 0xC80) / 4) (v % 65536) f.mbxMask }
    else if 0x400 ≤ off && off < 0xC00 then
      let n := (off - 0x400) / 8
      if off % 8 = 0 then c.cmdPi fn n v else (c.rspCi fn n (v % 65536)).evtCi fn n (v / 65536 % 65536)
    else if 0x1000 ≤ off && off < 0x2000 && c.windowLive fn ((off - 0x1000) / 64) then
      let n := (off - 0x1000) / 64
      if off % 64 = 0 then c.doorbell n v
      else if off % 64 = 0x0C then c.chanControl n v
      else if off % 64 = 0x1C then c.cqHead n v
      else c
    else c

/-! Reads of BAR0 (R14, R15, R506): what is reserved, what only writes act on, and the window of a channel that is not live in the
function read 0. -/

/-- The two halves of DOORBELL[n] (Table 17-4); a pair that the function does not hold shows its reset value (log 57). -/
def doorbellWord (fn n : Nat) (high : Bool) (c : Ctl) : Nat :=
  let p := c.pair n
  if p.st = .unbound || p.fn != fn || 224 ≤ n then 0
  else if high then p.evtCi % 65536 * 65536 + p.rspCi % 65536
  else p.cmdPi % 2 ^ 32

/-- A word of a channel's window (Table 11-4). -/
def windowWord (fn n off : Nat) (c : Ctl) : Nat :=
  match c.chans.get? n with
  | none => 0
  | some x =>
    if !c.windowLive fn n then 0
    else
      match off with
      | 0x00 => x.pi % 2 ^ 32
      | 0x04 => x.ci % 2 ^ 32
      | 0x08 => chanStatusWord x
      | 0x10 => x.errAddr % 2 ^ 32
      | 0x14 => x.errAddr / 2 ^ 32 % 2 ^ 32
      | 0x18 => x.errInfo
      | 0x1C => c.headOf x.queue % 2 ^ 32
      | 0x20 => x.errDesc
      | _ => 0

/-- The word that a read of 4 bytes at an aligned offset returns (Table 17-1). -/
def wordRead (fn off : Nat) (c : Ctl) : Nat :=
  let f := c.fn fn
  if off < 0x28 then
    [0x30394B54, 0x00900100, fn, 0x100, Config.serial.toNat % 2 ^ 32, Config.serial.toNat / 2 ^ 32, c.rc.epoch, c.rc.fwVersion,
      c.tick % 2 ^ 32, f.tickHi].getD (off / 4) 0
  else if 0x100 ≤ off && off < 0x200 then c.readyWord ((off - 0x100) / 4)
  else if 0x400 ≤ off && off < 0xC00 then c.doorbellWord fn ((off - 0x400) / 8) (off % 8 = 4)
  else if off = 0xC00 then f.intCount * 2 ^ 24 + f.intStatus
  else if off = 0xC04 then f.intMask
  else if off = 0xC08 then f.dmaCount * 2 ^ 24 + f.dmaStatus
  else if off = 0xC0C then f.dmaMask
  else if 0xC40 ≤ off && off < 0xC80 then
    f.mbxCount.getD ((off - 0xC40) / 4) 0 * 2 ^ 24 + f.mbxStatus.getD ((off - 0xC40) / 4) 0
  else if 0xC80 ≤ off && off < 0xCC0 then f.mbxMaskOf ((off - 0xC80) / 4)
  else if 0x1000 ≤ off && off < 0x2000 then c.windowWord fn ((off - 0x1000) / 64) (off % 64)
  else 0

/-- A read of BAR0 (R506): 4 or 8 bytes, naturally aligned; any other reads 0. -/
def barRead (fn off width : Nat) (c : Ctl) : Nat :=
  if off < 65536 && off % width = 0 then
    if width = 4 then c.wordRead fn off
    else if width = 8 then c.wordRead fn (off + 4) * 2 ^ 32 + c.wordRead fn off
    else 0
  else 0

end Ctl

/-- STATUS_W1C_WRITE (R65 to R69): `meets` lists the bits whose hardware set is pending while the write is in
application; each is applied after it. -/
def execStatusW1cWrite (fn offset v : Nat) (meets : List Nat) (s : State) : Host.Outcome State Fault Refusal :=
  ret (fn < 2) (s.act (W.on fun c =>
    match c.w1cAt fn offset v meets with
    | some c => c
    | none => c.wordWrite fn offset v))

/-- TICK_LO_READ (Table 17-1): the read returns TICK [31:0] and latches TICK [63:32]. -/
def execTickLoRead (fn : Nat) (s : State) : Host.Outcome State Fault Refusal :=
  ret (fn < 2) (s.act (W.on fun c =>
    c.updFn fn fun f => { f with tickLoData := c.wordRead fn 0x20, tickHi := c.tick / 2 ^ 32 % 2 ^ 32 }))

/-- REGISTER_WRITE (R506): 4 or 8 bytes, naturally aligned; any other access has no effect. -/
def execRegisterWrite (fn offset width v : Nat) (s : State) : Host.Outcome State Fault Refusal :=
  ret (fn < 2) (s.act (W.on fun c =>
    if offset < 65536 && (width = 4 || width = 8) && offset % width = 0 then
      let c := c.wordWrite fn offset (v % 2 ^ 32)
      if width = 8 then c.wordWrite fn (offset + 4) (v / 2 ^ 32 % 2 ^ 32) else c
    else c))

/-- MSIX_UNMASK (R549): a vector's mask bit is cleared, or with 33 the function mask; pending messages follow. -/
def execMsixUnmask (fn vector : Nat) (s : State) : Host.Outcome State Fault Refusal :=
  ret (fn < 2 && vector < 34) (s.act (W.on fun c =>
    c.updFn fn fun f =>
      (if vector = 33 then { f with fnMask := false } else { f with vecMask := clearBits f.vecMask (2 ^ vector) }).flush))

/-! The PCIe ports (R545, R550). -/

namespace Ctl

/-- The reset of a function (R550). -/
def fnReset (fn : Nat) (c : Ctl) : Ctl :=
  let c := (c.pairs.filter fun x => x.1 < 224 && x.2.fn = fn && x.2.st != .unbound).foldl (fun c x => c.unbind x.1) c
  let c := (c.onRc fun r => { r with heldSetups := r.heldSetups.filter (·.1 != fn) }).dmaFnReset fn
  c.updFn fn fun f => { f with
    intStatus := 0, intCount := 0, intMask := 7, dmaStatus := 0, dmaCount := 0, dmaMask := 0xFFFF
    mbxStatus := [], mbxCount := [], mbxMask := [], vecMask := 2 ^ 33 - 1, fnMask := false, vecPending := 0
    mps := 128, mrrs := 512, resets := f.resets + 1 }

/-- The link of a port trains from now (R545). -/
def pcieTrain (fn : Nat) (c : Ctl) : Ctl :=
  (c.updFn fn fun f => { f with linkUp := false, width := 0, rate := 0, trainStart := c.tick }).post (1 + fn) 1 6

/-- The port is powered and its firmware has started it (Table 19-3, step 4). -/
def pcieOn (c : Ctl) : Bool := c.rc.started

end Ctl

/-- FUNCTION_RESET (R550): cause 0 PERST# asserted, 1 hot reset, 2 Function Level Reset, 3 DL_Down, 4 D3hot to D0. All but
the first come over a link that is up; it trains anew after a hot reset (log 23). -/
def execFunctionReset (fn cause : Nat) (s : State) : Host.Outcome State Fault Refusal :=
  ret (fn < 2 && cause < 5) (s.act (W.on fun c =>
    if cause = 0 then
      if (c.fn fn).perst then c
      else ((c.fnReset fn).updFn fn fun f => { f with perst := true, linkUp := false, width := 0, rate := 0 }).post (1 + fn) 0 2
    else if !(c.fn fn).linkUp then c
    else if cause = 1 then (c.fnReset fn).pcieTrain fn
    else if cause = 3 then ((c.fnReset fn).updFn fn fun f => { f with linkDowns := f.linkDowns + 1 }).pcieTrain fn
    else c.fnReset fn))

/-- PERST_DEASSERTION (R545, Table 19-3): the port leaves OFF and trains, once the firmware has started it. -/
def execPerstDeassertion (fn : Nat) (s : State) : Host.Outcome State Fault Refusal :=
  ret (fn < 2) (s.act (W.on fun c =>
    if (c.fn fn).perst then
      let c := c.updFn fn fun f => { f with perst := false }
      if c.pcieOn then c.pcieTrain fn else c
    else c))

/-- PCIE_LINK_TRAINED (R545): rate 1 to 6 for 2.5 to 64 GT/s. A FAILED port trains again first. -/
def execPcieLinkTrained (fn width rate : Nat) (s : State) : Host.Outcome State Fault Refusal :=
  ret (fn < 2 && [1, 2, 4, 8].contains width && 1 ≤ rate && rate ≤ 6) (s.act (W.on fun c =>
    if (c.fn fn).perst || !c.pcieOn then c
    else
      let c := if c.stateOf (1 + fn) = 4 then c.post (1 + fn) 1 6 else c
      let c := c.updFn fn fun f => { f with linkUp := true, width, rate }
      if width = 8 && rate = 6 then c.post (1 + fn) 2 0 else c.post (1 + fn) 3 9))

/-- PCIE_TRAINING_TIMEOUT (R545): 1 s in TRAINING. -/
def execPcieTrainingTimeout (fn : Nat) (s : State) : Host.Outcome State Fault Refusal :=
  ret (fn < 2) (s.act (W.on fun c =>
    if (c.entry (1 + fn)).st = 1 && (c.fn fn).trainStart + 1000000000 ≤ c.tick then c.post (1 + fn) 4 0x0E else c))

/-- UNSUPPORTED_REQUEST_TLP (R547): answered with Unsupported Request, and counted. -/
def execUnsupportedRequestTlp (fn : Nat) (s : State) : Host.Outcome State Fault Refusal :=
  ret (fn < 2) (s.act (W.on fun c =>
    if (c.fn fn).linkUp then c.updFn fn fun f => { f with urSent := inc32 f.urSent } else c))

/-- HOST_PORT_STATUS (Table 18-6). -/
def execHostPortStatus (h : Hdr) (port : Nat) (s : State) : Host.Outcome State Fault Refusal :=
  mbxRow { op := 0x0130, roles := [0, 2], lock := true } h [Arg.num 1 (decide (port < 2))] [] s fun _ w =>
    let f := w.c.fn port
    .ok (encode [.n 1 (w.c.stateOf (1 + port)), .n 1 f.width, .n 1 f.rate, .n 2 f.mps, .n 2 f.mrrs, .n 4 f.correctable,
      .n 4 f.replays, .n 4 f.urSent, .n 4 f.cplTimeouts, .n 4 f.poisonedCpl, .n 4 f.linkDowns, .n 4 f.resets]) w

/-! Ethernet (R554 to R560). -/

namespace Ctl

/-- The state that its configuration, its PCS and the optics of K8 give an Ethernet port (R555). -/
def ethTarget (p : Nat) (c : Ctl) : Nat × Nat :=
  let e := c.ethPort p
  if !bit c.power.rails 5 then (0, 1)
  else if e.cfg.enable = 0 then (0, 2)
  else if e.fault || (c.link 16).st = 4 then (4, 0x0E)
  else if e.aligned then (2, 0)
  else (1, 5)

def settleEth (p : Nat) (c : Ctl) : Ctl :=
  let t := c.ethTarget p
  c.post (52 + p) t.1 t.2

def discardFrame (p : Nat) (c : Ctl) : Ctl := c.updEth p fun e => { e with discarded := e.discarded + 1 }

/-- Whether an echo request is answered: at most 100 a second (Table 18-5). -/
def echo (p : Nat) (c : Ctl) : Ctl :=
  let e := c.ethPort p
  let new := decide (e.echoWindow + 1000000000 ≤ c.tick)
  if !new && 100 ≤ e.echoInWindow then c
  else c.updEth p fun e => { e with
    echoWindow := if new then c.tick else e.echoWindow
    echoInWindow := if new then 1 else e.echoInWindow + 1
    echoReplies := e.echoReplies + 1, framesTx := e.framesTx + 1 }

/-- Judge a received frame (R555 to R557). `toIp` is the IPv4 address that an ARP or IP frame is for. -/
def ethFrame (p : Nat) (f : EthFrame) (c : Ctl) : Ctl :=
  let e := c.ethPort p
  if c.stateOf (52 + p) != 2 then c
  else
    let c := c.updEth p fun e => { e with framesRx := e.framesRx + 1 }
    if !f.fcsOk then (c.updEth p fun e => { e with fcsErr := e.fcsErr + 1 }).discardFrame p
    else if (if e.cfg.jumbo = 1 then 9022 else 1522) < f.len then c.discardFrame p
    else if f.vlan != e.cfg.vlan || f.fragment || f.options then c.discardFrame p
    else if e.cfg.ip = 0 && f.proto != 0 then c.discardFrame p
    else if !(f.dst = 0 || (f.dst = 1 && f.proto = 0)) then c.discardFrame p
    else if f.proto = 0 then
      if e.cfg.ip != 0 && f.toIp = e.cfg.ip then
        c.updEth p fun e => { e with arpReplies := e.arpReplies + 1, framesTx := e.framesTx + 1 }
      else c
    else if f.toIp != e.cfg.ip then c.discardFrame p
    else if f.proto = 1 then c.echo p
    else if f.proto = 2 && (f.udpPort = c.serve.port || f.udpPort = c.rc.mgmtPort) then
      if 4194304 < (e.rxQ.foldl (· + ·) 0) + f.len then
        (c.updEth p fun e => { e with rxOverflow := e.rxOverflow + 1 })
      else c.updEth p fun e => { e with rxQ := e.rxQ ++ [f.len] }
    else c.discardFrame p

end Ctl

/-- ETH_FRAME_RECEIVE (R556, R557): what an accepted UDP frame carries is a command of its own. -/
def execEthFrameReceive (port : Nat) (f : EthFrame) (s : State) : Host.Outcome State Fault Refusal :=
  ret (port < 2) (s.act (W.on (Ctl.ethFrame port f)))

/-- ETH_PCS_CHANGE (R555): alignment of the PCS and lock of the FEC, gained or lost together. -/
def execEthPcsChange (port : Nat) (aligned : Bool) (s : State) : Host.Outcome State Fault Refusal :=
  ret (port < 2) (s.act (W.on fun c => (c.updEth port fun e => { e with aligned }).settleEth port))

/-- K8_OPTICS_FAULT (R555). -/
def execK8OpticsFault (port : Nat) (s : State) : Host.Outcome State Fault Refusal :=
  ret (port < 2) (s.act (W.on fun c => (c.updEth port fun e => { e with fault := true }).settleEth port))

/-- ETH_CONFIG_SET (R559): disabling a port and enabling it restarts it (Table 19-4). -/
def execEthConfigSet (h : Hdr) (port : Nat) (cfg : EthCfg) (s : State) : Host.Outcome State Fault Refusal :=
  mbxRow { op := 0x0134, roles := [0] } h
    [Arg.num 1 (decide (port < 2)), Arg.num 1 (decide (cfg.enable < 2)), Arg.num 4 (decide (cfg.ip < 2 ^ 32)),
      Arg.num 1 (8 ≤ cfg.pfx && cfg.pfx ≤ 30), Arg.num 4 (decide (cfg.gateway < 2 ^ 32)), Arg.num 2 (decide (cfg.vlan ≤ 4094)),
      Arg.num 1 (decide (cfg.jumbo < 2))] [] s fun _ w =>
    let w := w.on fun c => (c.updEth port fun e => { e with cfg, fault := e.fault && cfg.enable = 1 }).settleEth port
    .ok (encode [.n 1 cfg.enable, .n 4 cfg.ip, .n 1 cfg.pfx, .n 4 cfg.gateway, .n 2 cfg.vlan, .n 1 cfg.jumbo]) w

/-- ETH_PORT_STATUS (Table 18-6). -/
def execEthPortStatus (h : Hdr) (port : Nat) (s : State) : Host.Outcome State Fault Refusal :=
  mbxRow { op := 0x0135, roles := [0, 2], lock := true } h [Arg.num 1 (decide (port < 2))] [] s fun _ w =>
    let e := w.c.ethPort port
    .ok (encode [.n 1 (w.c.stateOf (52 + port)), .n 8 (Config.macAddress port).toNat, .n 1 e.cfg.enable, .n 4 e.cfg.ip, .n 1 e.cfg.pfx,
      .n 4 e.cfg.gateway, .n 2 e.cfg.vlan, .n 1 e.cfg.jumbo, .n 8 e.framesRx, .n 8 e.framesTx, .n 8 e.fcsErr, .n 8 e.fecCorrected,
      .n 8 e.fecUncorrectable, .n 8 e.rxOverflow, .n 8 e.discarded]) w

end Sys2Proof.Machine
end

