-- ==== Sys2Proof/Machine/Power.lean ====
section
/-! DEFINITION. Rails, the housekeeping round, the current-limit controller, the fast limiter, the gauges and the restart of
one function (chapters 19 and 20, R284, R285). -/

namespace Sys2Proof.Machine

open Sys2Proof

/-! Rails (R574, R575, R634). -/

/-- A stack without power: what it holds and was doing is lost; its queues and settings stay. -/
def Stack.unpowered (s : Stack) : Stack :=
  { s with held := [], firstReading := true, below := 0, initDone := false, actLimit := 0, cool := 0 }

namespace Ctl

/-- Every command of every Palette queue that has not completed ends ABORTED. -/
def abortPalettes (all : Bool) (c : Ctl) : Ctl :=
  c.stackTab.foldl (fun c (x : Nat × Stack) => x.2.queues.keys.foldl (fun c q => c.abortQueue x.1 q all) c) c

/-- Every channel stops as by ABORT (R603). -/
def abortChans (c : Ctl) : Ctl :=
  c.chans.foldl (fun c (x : Nat × DmaChan) => if x.2.st = .stopped || x.2.st = .disabled then c else c.dmaAbort x.1) c

/-- The entries on the removed rails (R575), but for the optical ports'. -/
def railEntries : List Nat := (List.range 12).map (· + 3) ++ [17, 18, 19, 52, 53]

/-- What the loss of the rails does to the units on them (R575): tiles, links, router, packets that had arrived and sequences. Tags, flow
windows and flow records stay (R293): of the quantities of Table 9-6 the tiles' alone follow their reset. -/
def dropRails (c : Ctl) : Ctl :=
  let c := ((c.abortPalettes true).abortChans).endWhere (fun _ => true) 4
  let c := c.updModel fun m => { m with waiting := false, stored := false, batch := [], appends := [] }
  let c := c.cancelTxns fun t => match t.who with
    | .tile .. => true
    | _ => false
  let c := { c with
    tiles := []
    stackTab := c.stackTab.map fun (x : Nat × Stack) => (x.1, x.2.unpowered)
    links := []
    router := { c.router with ports := [] }
    fabric := { c.fabric with arrivals := [], blocked := [] }
    optics := { c.optics with steer := [], steering := [], turn := [] } }
  let c := c.markFull
  let c := c.finish fun x => match x with
    | .stage _ => some (0x0508, [])
    | .steer _ => some (0x0204, [])
    | .slotRetire .. => some (0x0204, [])
    | _ => none
  (List.range 32).foldl (fun c p => c.settlePort p) (railEntries.foldl (fun c i => c.post i 0 1) c)

end Ctl

/-- The power stage removes every rail but standby; `keep` is what stays of the rail bits (R575, R580, R634). -/
def W.railsOff (keep : Nat) (w : W) : W :=
  if w.c.power.rails = 0 then w
  else
    let w := w.triggerWhere 1 w.c.selfModule false (fun _ => true) (fun _ => true)
    let w := { w with b := w.b.op (.zero 0 (2 ^ 66)) }
    w.on fun c =>
      ((c.onPower fun p => { p with rails := p.rails &&& keep, railsDue := false, foldback := false }).dropRails.finishOne .rails 0x0204
        []).regionsDrained

/-- A port's optics as the optics rail comes up: lasers, which settle in 1.5 s, and maps begin anew, the counters at 0 (R343, R364, R372,
Table 12-5); its interval and its placement stay. -/
def OPort.started (now : Nat) (o : OPort) : OPort :=
  { settled := now + 1500000000, lightAt := now, place := o.place, tx := { interval := o.tx.interval }, rx := { interval := o.rx.interval } }

/-- The rails come up (Table 19-3, step 4), and step 5 begins; with the RC ready the engines follow (step 7). -/
def Ctl.railsOn (c : Ctl) : Ctl :=
  let c := c.onPower fun p => { p with rails := 63, railsDue := false }
  let c := ((List.range 12).map (· + 3)).foldl (fun c i => c.post i 1 5) c
  let c := (List.range 17).foldl (fun c l => c.updLink l fun _ => { st := 1 }) c
  let c := (List.range 32).foldl (fun c p => (c.updOPort p (OPort.started c.tick)).startSwatch p) c
  let c := (c.settleEth 0).settleEth 1
  if c.rc.run = 3 then
    let e := c.serveEntry
    ((c.post 17 2 0).post 18 2 0).post 19 e.1 e.2
  else ((c.post 17 1 4).post 18 1 4).post 19 1 4

/-- PWR_RAILS_RESTORE (R575, R580, R634). -/
def execPwrRailsRestore (h : Hdr) (s : State) : Host.Outcome State Fault Refusal :=
  mbxRow { op := 0x0116, roles := [0] } h [] [] s fun _ w =>
    let p := w.c.power
    if p.rails = 63 || p.inputFault || !p.tripped.isEmpty || !p.seat then .fail 0x0204 0
    else .wait .rails (w.on Ctl.railsOn)

/-- INPUT_OUT_OF_RANGE (R575). -/
def execInputOutOfRange (s : State) : Host.Outcome State Fault Refusal :=
  ret true (s.act fun w =>
    if !w.c.power.standby then w
    else ((w.on (Ctl.onPower fun p => { p with inputFault := true })).railsOff 0).on (Ctl.alarm 2 1 43))

/-- THERMAL_TRIP (R580): the comparator of channel 0 to 9; the intermediate bus stays. -/
def execThermalTrip (sensor : Nat) (s : State) : Host.Outcome State Fault Refusal :=
  ret (sensor < 10) (s.act fun w =>
    if !w.c.power.standby then w
    else
      ((w.on (Ctl.onPower fun p => { p with tripped := insNat sensor p.tripped })).railsOff 1).on (Ctl.alarm 4 1 sensor))

/-- SEAT_ASSERT (R634): SEAT_N has been asserted for 100 ms; a cold start's step 4 goes on. -/
def execSeatAssert (s : State) : Host.Outcome State Fault Refusal :=
  ret true (s.act (W.on fun c =>
    let c := c.onPower fun p => { p with seat := true }
    if c.power.railsDue && (c.rc.run = 2 || c.rc.run = 3) then c.railsOn else c))

/-- SEAT_RELEASE (R634): no alarm; a restore in progress is abandoned. -/
def execSeatRelease (s : State) : Host.Outcome State Fault Refusal :=
  ret true (s.act fun w => (w.on (Ctl.onPower fun p => { p with seat := false })).railsOff 0)

/-- PWR_CONFIG_SET (R584, R592). -/
def execPwrConfigSet (h : Hdr) (vcore cap : Nat) (s : State) : Host.Outcome State Fault Refusal :=
  mbxRow { op := 0x0115, roles := [0] } h [Arg.num 2 (700 ≤ vcore && vcore ≤ 850), Arg.num 1 (decide (cap < 16))] [] s fun _ w =>
    if w.c.serve.contracts.vals.any fun k => decide (k.a.floorStep < cap) then .fail 0x0302 0
    else .ok (encode [.n 2 vcore, .n 1 cap]) (w.on (Ctl.onPower fun p => { p with vcoreSet := vcore, cap }))

/-! The housekeeping round (R578 to R584, R590). -/

/-- The value that R583 takes for a channel of 0 to 9: 105.0 °C where it is invalid while the core rail is up (R579). -/
def junction (p : Power) (k : Nat) : Option Int :=
  match p.readings.get? k with
  | some v => some v
  | none => if bit p.rails 1 then some 1050 else none

def anyAbove (p : Power) (l : List Nat) (t : Int) : Bool := l.any fun k => (junction p k).any fun v => decide (t < v)

/-- Bits D1 to D6 of Table 20-3. -/
def downConditions (p : Power) (power foldback : Nat) : Nat :=
  b2n (2400 < power) + 2 * b2n (anyAbove p (List.range 8) 999) + 4 * b2n (anyAbove p [8, 9] 999)
    + 8 * b2n (p.coolantLow || (p.readings.get? 53).any fun v => decide (450 < v)) + 16 * b2n (200 < foldback) + 32 * b2n (p.step < p.cap)

/-- The quiet conditions of Table 20-3. -/
def quietRound (p : Power) (down power : Nat) : Bool :=
  down = 0 && power ≤ 2300 && !anyAbove p (List.range 10) 950 && ((p.readings.get? 53).any fun v => decide (v ≤ 450))

/-- The step that a round leaves (R582). -/
def stepRound (power foldback : Nat) (p : Power) : Power :=
  let down := downConditions p power foldback
  let p := { p with downCause := down }
  if down != 0 then
    if p.step < 15 then { p with step := p.step + 1, stepDowns := p.stepDowns + 1, quiet := 0 } else { p with quiet := 0 }
  else if quietRound p down power then
    if p.quiet + 1 < 4 then { p with quiet := p.quiet + 1 }
    else if p.step = p.cap then { p with quiet := 0 }
    else { p with step := p.step - 1, stepUps := p.stepUps + 1, quiet := 0 }
  else { p with quiet := 0 }

/-- Whether the outlet less the inlet exceeds P / (110 W/K) + 2 K (R590). -/
def coolantExcess (p : Power) (power : Nat) : Bool :=
  match p.readings.get? 53, p.readings.get? 54 with
  | some i, some o => decide ((power : Int) + 220 < 11 * (o - i))
  | _, _ => false

/-- COOLANT_LOW after a round: set after 8 rounds with the excess, cleared after 8 without (R590). -/
def coolantRound (power : Nat) (p : Power) : Power :=
  if coolantExcess p power then
    { p with excess := min 8 (p.excess + 1), clear := 0, coolantLow := p.coolantLow || 8 ≤ p.excess + 1 }
  else { p with excess := 0, clear := min 8 (p.clear + 1), coolantLow := p.coolantLow && p.clear + 1 < 8 }

/-- Inlet outside 15 to 45 °C (Table 21-4). -/
def inletOut (p : Power) : Bool := (p.readings.get? 53).any fun v => decide (v < 150) || decide (450 < v)

/-- The band of a reading (R227, Table 7-7). -/
def bandOf (v : Int) : Nat := if v ≤ 850 then 1 else if v ≤ 950 then 2 else if v ≤ 1050 then 3 else 4

/-- The operating band after a round (R228). -/
def Stack.bandRound (v : Int) (s : Stack) : Stack :=
  let target := min 4 (bandOf v + 1)
  if s.firstReading then { s with band := target, firstReading := false, below := 0, reading := v }
  else if s.band < target then { s with band := target, below := 0, reading := v }
  else if target < s.band then
    if s.below + 1 < 2 then { s with below := s.below + 1, reading := v } else { s with band := s.band - 1, below := 0, reading := v }
  else { s with below := 0, reading := v }

/-- The activation and engine limit after a round: 0 none, 1 half, 2 a quarter (R232, R241). -/
def Stack.limitRound (v : Int) (s : Stack) : Stack :=
  let s := { s with palReading := v }
  if 1100 < v then { s with actLimit := 2, cool := 0 }
  else if 1000 < v then { s with actLimit := max 1 s.actLimit, cool := 0 }
  else if v ≤ 950 then
    if s.cool + 1 < 2 then { s with cool := s.cool + 1 } else { s with actLimit := s.actLimit - 1, cool := 0 }
  else { s with cool := 0 }

/-- A stack at the end of a round; the start and the end of a write stop are logged and sent, and at its end the held
writes are applied in arrival order (R231). -/
def W.stackRound (st : Nat) (w : W) : W :=
  let p := w.c.power
  let pal := p.readings.get? (11 + 2 * st)
  let w := match pal with
    | some v => w.on (Ctl.updStack st (Stack.limitRound v))
    | none => w
  let top := match p.readings.get? (10 + 2 * st), pal with
    | some a, some b => some (max a b)
    | some a, none => some a
    | none, b => b
  match top with
  | none => w
  | some v =>
    let old := (w.c.stack st).band
    let w := w.on (Ctl.updStack st (Stack.bandRound v))
    let now := (w.c.stack st).band
    let note := fun (kind : Nat) (c : Ctl) =>
      let c := c.stackLog st kind 0xFF 0xFF 4 0xFF 0
      c.event 0x0232 (c.lastRec st) { owner := true }
    if old != 4 && now = 4 then w.on (note 0x08)
    else if old = 4 && now != 4 then
      (w.on (note 0x09)).releaseHeld st
    else w

/-- The bit in RAILS of the rail that a channel's sensor lies on (Tables 20-1 and 20-2); `none` for the sensors of the input, the
coolant, the power stage and the blade. -/
def channelRail (k : Nat) : Option Nat :=
  if k < 8 then some 1
  else if k < 10 then some 2
  else if k < 26 then some 4
  else if k < 43 then some 5
  else if k = 45 || k = 46 then some 0
  else if k = 47 || k = 48 then some 1
  else if k = 49 || k = 50 then some 4
  else if k = 51 || k = 52 then some 5
  else none

/-- Whether a channel has a reading: none on a rail that is down, at the guest site, and at the reserved channels (R579). -/
def channelReads (p : Power) (k : Nat) : Bool := decide (k < 58) && (channelRail k).all (bit p.rails)

/-- What a round leaves (R578 to R584, R590). The RC judges the step while it runs; the standby island judges the coolant without
it. -/
def roundPower (r : Round) (running : Bool) (tick : Nat) (p : Power) : Power :=
  let p := { p with
    readings := (r.readings.filter fun x => channelReads p x.1).foldl (fun (t : Tab Int) x => Tab.set x.1 x.2 t) []
    roundSeq := inc32 p.roundSeq
    roundStart := tick - 2000000
    roundEnd := tick
    pIn := r.power
    foldbackTicks := p.foldbackTicks + 1000 * r.foldback }
  let p := coolantRound r.power p
  if running then stepRound r.power r.foldback p else p

/-- The alarms of a round: COOLANT_LOW begins (detail 54), the inlet leaves its range (detail 53). -/
def Ctl.coolantAlarms (old : Power) (c : Ctl) : Ctl :=
  let p := c.power
  let c := if p.coolantLow && !old.coolantLow then c.alarm 5 1 54 else c
  if inletOut p && !inletOut old then c.alarm 5 1 53 else c

/-- HOUSEKEEPING_ROUND_END: the readings, the alarms, and the stacks' bands. -/
def execHousekeepingRoundEnd (r : Round) (s : State) : Host.Outcome State Fault Refusal :=
  ret (r.readings.all fun x => x.1 < 59 && decide (-32768 < x.2) && decide (x.2 < 32768)) (s.act fun w =>
    if !w.c.power.standby then w
    else
      let old := w.c.power
      let w := w.on fun c => (c.onPower (roundPower r (c.rc.run = 3) c.tick)).coolantAlarms old
      (List.range 8).foldl (fun w st => w.stackRound st) w)

/-- A sample of the fast limiter (R585). -/
def limiterSample (current power core : Nat) (p : Power) : Power :=
  let limit := (16 - p.step) * 17000
  if !bit p.rails 1 then p
  else if limit < 16 * current || 2900 < power then { p with foldback := true, vcoreNow := max (min core 700) (core - 10) }
  else if 1600 * current < 97 * limit then
    let v := if core < p.vcoreSet then min p.vcoreSet (core + 10) else core
    { p with foldback := p.foldback && v < p.vcoreSet, vcoreNow := v }
  else { p with vcoreNow := core }

/-- FAST_LIMITER_SAMPLE (R585): core current in 0.1 A, input power in W, core voltage in mV. -/
def execFastLimiterSample (current power core : Nat) (s : State) : Host.Outcome State Fault Refusal :=
  ret true (s.act (W.on (Ctl.onPower (limiterSample current power core))))

/-! Gauges (R284, R285, R587, R589). -/

/-- rev4: the four bits of i reversed. -/
def rev4 (i : Nat) : Nat := i % 2 * 8 + i / 2 % 2 * 4 + i / 4 % 2 * 2 + i / 8 % 2

/-- GAUGE_REFILL: kind 0 a tile's step gauge, 1 a DMA channel's, 2 the guest's, 3 a tile's element lanes. A new rate takes
effect here; the tokens held stay, and the bucket never exceeds D. -/
def execGaugeRefill (kind idx : Nat) (s : State) : Host.Outcome State Fault Refusal :=
  ret ((kind = 0 && idx < 192) || (kind = 1 && idx < 64) || (kind = 2 && idx = 0) || (kind = 3 && idx < 192)) (s.act (W.on fun c =>
    let step := c.power.step
    match kind with
    | 0 => c.updTile idx fun t => { t with
        interval := (t.interval + 1) % 16
        gauge := if rev4 t.interval < step then t.gauge else min 64 (t.gauge + 1) }
    | 1 => c.updChan idx fun x => { x with share := x.newShare, gauge := min 16 (x.gauge + 1) }
    | 2 => { c with guest := { c.guest with tokens := min 32 (c.guest.tokens + 1) } }
    | _ => c.updTile idx fun t => { t with
        laneInterval := (t.laneInterval + 1) % 16
        laneGauge := if rev4 t.laneInterval < step then t.laneGauge else min 64 (t.laneGauge + 1) }))

/-! Restarting one function (R572, R573). -/

/-- A Canvas is up: its link has trained, its stores are zeroed and its tiles are IDLE (Table 19-3, step 5). A loaded
model's programs are put back once its Canvases are (log 24). -/
def Ctl.canvasUp (k : Nat) (selfTest : Bool) (c : Ctl) : Ctl :=
  let c := { c with tiles := c.tiles.map fun (x : Nat × Tile) => if x.1 / 48 = k then (x.1, tileReset x.1 x.2) else x }
  let t : Nat × Nat := if selfTest then c.canvasTarget k else (4, 0x0D)
  let c := if (c.entry (3 + k)).restarting then c.endRestart (3 + k) t.1 t.2 else c.postNow (3 + k) t.1 t.2
  if c.serve.model.any fun m => (m.progs.keys.any (· / 48 = k)) && m.progs.keys.all fun n => c.usable (3 + n / 48) then c.reloadModel
  else c

/-- CANVAS_INIT_COMPLETE (R566, R572). -/
def execCanvasInitComplete (canvas : Nat) (selfTest : Bool) (s : State) : Host.Outcome State Fault Refusal :=
  ret (canvas < 4) (s.act fun w =>
    if (w.c.entry (3 + canvas)).st != 1 || (w.c.link canvas).st = 1 then w
    else
      let ops := ((List.range 48).map (· + 48 * canvas)).flatMap fun n =>
        [MemOp.zero (opBase n) (1 <<< 22), .zero (accBase n) (1 <<< 20)]
      { w with b := w.b.opsAll ops }.on (Ctl.canvasUp canvas selfTest))

/-- An entry shows TRAINING by a function restart (R572). -/
def Ctl.beginRestart (index : Nat) (c : Ctl) : Ctl :=
  let c := c.postNow index 1 8
  c.setEntry index { c.entry index with restarting := true }

/-- SYS_FUNCTION_RESTART (R572): a Canvas or a stack that nothing uses. -/
def execSysFunctionRestart (h : Hdr) (index : Nat) (s : State) : Host.Outcome State Fault Refusal :=
  mbxRow { op := 0x0114, roles := [0] } h [Arg.num 1 (3 ≤ index && index ≤ 14)] [] s fun _ w =>
    let c := w.c
    if (c.entry index).st = 0 || (c.entry index).st = 1 then .fail 0x0204 0
    else if index < 7 then
      let k := index - 3
      if c.jobs.vals.any fun j => j.tiles.any fun t => t / 48 = k then .fail 0x0203 0
      else .wait (.entry index) (w.on fun c => (((c.beginRestart index).retrainLink k).retrainLink (4 + k)).retrainLink (4 + (k + 3) % 4))
    else
      let st := index - 7
      if (c.fabric.regions.vals.any fun r => r.space = 2 && stackOf r.base = st) || !(c.stack st).queues.isEmpty then .fail 0x0203 0
      else .wait (.entry index) (w.on fun c => (c.beginRestart index).updStack st fun x => { x with initDone := false, firstReading := true })

end Sys2Proof.Machine
end

