-- ==== Sys2Proof/Machine/Security.lean ====
section
/-! DEFINITION. What the alarm levels do (R602 to R608), the alarm sources of the pins and monitors, attestation and the
security commands (chapter 21). -/

namespace Sys2Proof.Machine

open Sys2Proof

/-! A2 and A3. -/

/-- The entries that A2 seals (R603), and all but the Tally's, which gesso seals (R606). -/
def lockEntries : List Nat := [0, 3, 4, 5, 6, 7, 8, 9, 10, 11, 12, 13, 14, 16, 17, 18, 19]
def gessoEntries : List Nat := (List.range 54).filter (· != 15)

namespace Ctl

/-- The CLOSE_REASON of a stretch that A2 closes: the spec names none; any but 2, which would close the contract (R619). -/
def lockReason (c : Ctl) : Nat × Ctl :=
  let (v, c) := c.fresh
  ([0, 1, 3, 4].getD (v % 4) 0, c)

/-- The serving engine ends every sequence with FAULT and closes every stretch (R603). -/
def stopServing (reason : Nat) (c : Ctl) : Ctl :=
  let c := c.endWhere (fun _ => true) 4
  let c := c.updModel fun m => { m with waiting := false, stored := false, batch := [], appends := [] }
  c.serve.contracts.keys.foldl (fun c id => c.closeStretch id reason) c

def stopTiles (c : Ctl) : Ctl :=
  c.tiles.foldl (fun c (x : Nat × Tile) => if x.2.st = .running then c.stopTile x.1 else c) c

end Ctl

/-- Tiles, channels, queues, collectives and sequences stop (R603); `all` sets bit 7 of the FROGs. -/
def W.stopWork (all : Bool) (reason : Nat) (w : W) : W :=
  let w := w.on fun c => (c.stopTiles.abortChans).abortPalettes false
  (w.triggerWhere 5 w.c.selfModule all (fun _ => true) fun _ => true).on (Ctl.stopServing reason)

/-- Quiesce and lock at A2 (R603). -/
def W.quiesce (w : W) : W :=
  let w := w.on fun c => c.notePorts (lockEntries.foldl (fun c i => c.sealUp i 0x15) c)
  let r := w.c.lockReason
  W.stopWork false r.1 { w with c := r.2 }

namespace Ctl

/-- Step 3 of Table 21-6: the keys are erased and every session ends. -/
def eraseKeys (c : Ctl) : Ctl :=
  let c := c.onRc fun r => { r with creds := [], credFails := [], challenges := [] }
  let c := c.onServe fun s => { s with
    contracts := s.contracts.map fun (x : Nat × Contract) => (x.1, { x.2 with key := [], oldKey := none, a := { x.2.a with key := [] } }) }
  c.pairs.foldl (fun c (x : Nat × Pair) =>
    if x.2.remote.isSome then c.unbind x.1
    else if x.2.session.isSome then c.endSession x.1
    else c.updPair x.1 fun p => { p with challenge := none }) c

/-- Steps 4 to 6 cannot be taken: the records still queued are lost (R606). -/
def loseRecords (c : Ctl) : Ctl :=
  (c.onAlarms fun a => { a with lostRecords := a.lostRecords + c.serve.queue.length }).onServe fun s => { s with queue := [] }

end Ctl

/-- Gesso (R606, Table 21-6), up to the removal of the rails. -/
def W.gesso (w : W) : W :=
  let able : Bool := w.c.rc.run = 3 && w.c.power.rails = 63
  let w := w.on fun c => c.notePorts (gessoEntries.foldl (fun c i => c.sealUp i 0x16) (c.onAlarms fun a => { a with gesso := true }))
  let w := (w.stopWork true 2).on Ctl.eraseKeys
  let w := { w with b := w.b.op (.zero (hubBase + 0xA000000) 0x2000000) }
  if able then
    let w := w.on (Ctl.onServe fun s => { s with contracts := [] })
    let w := { w with b := w.b.opsAll (.zero hubBase 0xA000000 :: (List.range 8).map fun st => .zero (stackKey st 0) (2 ^ 37)) }
    w.on (Ctl.onAlarms fun a => { a with gessoDue := some (w.c.tick + 1000000000) })
  else w.on fun c => (c.loseRecords).onAlarms fun a => { a with gessoDue := some c.tick }

/-- An alarm, and what a rise of the level to A2 or A3 does (R602). -/
def W.raise (src level detail : Nat) (w : W) : W :=
  let a := w.c.alarms
  let w := w.on (Ctl.alarm src level detail)
  if a.gesso then w
  else if 3 ≤ level then w.gesso
  else if level = 2 && !a.a2 then w.quiesce
  else w

/-- A SIG_FAIL (Table 21-4): A2 once SIG_FAIL_LIMIT of them fall within 24 h. -/
def W.sigFail (detail : Nat) (w : W) : W :=
  let recent := (w.c.alarms.sigFails.filter fun t => w.c.tick < t + 86400000000000) ++ [w.c.tick]
  (w.on (Ctl.onAlarms fun a => { a with sigFails := recent })).raise 7 (if w.c.alarms.sigLimit ≤ recent.length then 2 else 1) detail

/-- An event of the standby island: nothing while there is no standby power. -/
def standbyRow (ok : Bool) (s : State) (f : W → W) : Host.Outcome State Fault Refusal :=
  ret ok (s.act fun w => if w.c.power.standby then f w else w)

/-- LID_TAMPER (R601): A3. -/
def execLidTamper (s : State) : Host.Outcome State Fault Refusal := standbyRow true s (W.raise 1 3 0)

/-- GESSO_RAILS_OFF (Table 21-6, step 7): the record queue is empty, or 1 s has passed. -/
def execGessoRailsOff (s : State) : Host.Outcome State Fault Refusal :=
  standbyRow true s fun w =>
    if w.c.alarms.gesso && (w.c.serve.queue.isEmpty || w.c.alarms.gessoDue.any fun t => decide (t ≤ w.c.tick)) then
      (w.on Ctl.loseRecords).railsOff 0
    else w

/-- RAIL_OUT_OF_RANGE (R49, R601): rail 0 core, 1 standby, with the rail enabled. -/
def execRailOutOfRange (rail : Nat) (s : State) : Host.Outcome State Fault Refusal :=
  standbyRow (rail < 2) s fun w =>
    if rail = 0 && !bit w.c.power.rails 1 then w
    else (w.on (Ctl.onPower fun p => { p with railLost := insNat rail p.railLost })).raise 3 2 (if rail = 0 then 47 else 0)

/-- CLOCK_GLITCH (R64, R601). -/
def execClockGlitch (s : State) : Host.Outcome State Fault Refusal :=
  standbyRow true s fun w => (w.on (Ctl.onPower fun p => { p with clockLost := true })).raise 6 2 0

/-- ALARM_IN_ASSERT (R637): at ALARM_IN_LEVEL. -/
def execAlarmInAssert (s : State) : Host.Outcome State Fault Refusal :=
  standbyRow true s fun w => (w.on (Ctl.onPower fun p => { p with alarmIn := true })).raise 9 w.c.alarms.inLevel 0

/-- ALARM_SOURCE_CLEAR (Table 21-4): what the source watches is in order again. SIG_FAIL and OWNER_RAISE stand until
SEC_UNLOCK. Sources 2 and 4 do not stand; their clearing lets the rails be restored (R575, R580; log 24). -/
def execAlarmSourceClear (source : Nat) (s : State) : Host.Outcome State Fault Refusal :=
  standbyRow (1 ≤ source && source ≤ 10) s (W.on fun c =>
    match source with
    | 2 => c.onPower fun p => { p with inputFault := false }
    | 3 => (c.onPower fun p => { p with railLost := [] }).clearAlarm 3
    | 4 => c.onPower fun p => { p with tripped := [] }
    | 6 => (c.onPower fun p => { p with clockLost := false }).clearAlarm 6
    | 9 => (c.onPower fun p => { p with alarmIn := false }).clearAlarm 9
    | _ => c)

/-! Commands (Table 21-7). -/

/-- Bytes of an alarm record (Table 21-5). -/
def AlarmRec.bytes (r : AlarmRec) : List Byte :=
  leBytes 4 r.seq ++ leBytes 1 r.source ++ leBytes 1 r.level ++ leBytes 2 r.detail ++ leBytes 8 r.tick ++ leBytes 4 r.epoch ++ zeros 12

/-- SIG_FAIL failures within 24 h. -/
def Ctl.sigCount (c : Ctl) : Nat := (c.alarms.sigFails.filter fun t => c.tick < t + 86400000000000).length

/-- SEC_ALARM_STATUS: level, sources standing by their codes, SIG_FAIL count, records lost at gesso. -/
def execSecAlarmStatus (h : Hdr) (s : State) : Host.Outcome State Fault Refusal :=
  mbxRow { op := 0x0810, roles := [0, 2, 3], lock := true, gesso := true } h [] [] s fun _ w =>
    .ok (encode [.n 1 w.c.alarmLevel, bitmap 16 w.c.alarms.standing.keys, .n 2 w.c.sigCount, .n 2 w.c.alarms.lostRecords]) w

/-- SEC_ALARM_CONFIG: the levels A1 to A3 are coded 0 to 2 (R514). -/
def execSecAlarmConfig (h : Hdr) (level limit : Nat) (s : State) : Host.Outcome State Fault Refusal :=
  mbxRow { op := 0x0811, roles := [0], lock := true } h [Arg.num 1 (decide (level < 3)), Arg.num 1 (2 ≤ limit && limit ≤ 64)] [] s fun _ w =>
    .ok (encode [.n 1 level, .n 1 limit]) (w.on (Ctl.onAlarms fun a => { a with inLevel := level + 1, sigLimit := limit }))

/-- SEC_UNLOCK (R605). A loaded model's programs are put back (log 24). -/
def execSecUnlock (h : Hdr) (s : State) : Host.Outcome State Fault Refusal :=
  mbxRow { op := 0x0812, roles := [0], lock := true } h [] [] s fun _ w =>
    if w.c.alarms.standing.any fun x => x.2 = 2 && x.1 != 7 && x.1 != 10 then .fail 0x0204 0
    else
      .ok [] (w.on fun c =>
        let locked := c.alarms.a2
        let c := ((c.clearAlarm 7).clearAlarm 10).onAlarms fun a => { a with a2 := false }
        if locked then
          let c := c.notePorts (lockEntries.foldl (fun c i => if (c.entry i).sealed = 0x15 then c.release i else c) c)
          if c.serve.model.any fun m => m.progs.keys.all fun n => c.usable (3 + n / 48) then c.reloadModel else c
        else c)

/-- SEC_ALARM_RAISE (R609): A3 carries CONFIRM equal to SERIAL_LO. -/
def execSecAlarmRaise (h : Hdr) (level confirm : Nat) (s : State) : Host.Outcome State Fault Refusal :=
  mbxRow { op := 0x0813, roles := [0], lock := true } h
    [Arg.num 1 (decide (level < 3)), Arg.num 4 (confirm < 2 ^ 32 && (level != 2 || confirm = Config.serial.toNat % 2 ^ 32))] [] s fun _ w =>
    .okAfter [] w (W.raise 10 (level + 1) 0)

/-- SEC_ALARM_LOG_READ. -/
def execSecAlarmLogRead (h : Hdr) (first count : Nat) (s : State) : Host.Outcome State Fault Refusal :=
  mbxRow { op := 0x0814, roles := [0, 3], lock := true, gesso := true } h
    [Arg.num 4 (decide (first < 2 ^ 32)), Arg.num 1 (1 ≤ count && count ≤ 64)] [] s fun _ w =>
    .ok (encode [.list (fitting 56 (((w.c.alarms.log.filter fun r => first ≤ r.seq).take count).map AlarmRec.bytes))]) w

/-! Attestation (R599, R600). -/

/-- The configuration block (R600), encoded by R514 from byte 0. -/
def Ctl.configBlock (c : Ctl) : List Byte :=
  let cred := fun (x : Nat × Cred) => encodeAt 0 [.n 2 x.1, .n 1 x.2.role, .inl (x.2.jobs.map (leBytes 2)), .n 1 x.2.access]
  let job := fun (x : Nat × Job) => encodeAt 0 [.n 2 x.1, bitmap 192 x.2.tiles]
  let planRow := fun (p : Nat) =>
    let e := c.planEntry p
    encodeAt 0 [.n 1 e.role, .n 8 e.serial, .n 2 e.module, .n 1 e.peerPort, .n 1 e.backsUp]
  let plan := [Item.n 4 ((c.router.plan.map (·.version)).getD 0), .n 2 c.selfModule,
    .list (if c.router.plan.isSome then (List.range 32).map planRow else [])]
  let table := fun (x : Nat × RouteTable) => encodeAt 0 (tableItems x.2 .inl)
  let contract := fun (x : Nat × Contract) =>
    let a := x.2.a
    encodeAt 0 [.n 4 x.1, .n 1 a.tokeniser, .n 2 a.seqReserved, .n 4 a.ctxLimit, .n 4 a.rateSeq.toNat, .n 8 a.p50, .n 8 a.p99, .n 8 a.p999,
      .n 1 a.floorStep, .n 8 a.window, .n 4 a.stretchTokens, .n 8 a.stretchTime]
  let eth := fun (p : Nat) =>
    let e := (c.ethPort p).cfg
    [Item.n 1 e.enable, .n 4 e.ip, .n 1 e.pfx, .n 4 e.gateway, .n 2 e.vlan, .n 1 e.jumbo]
  encodeAt 0 ([.list (c.rc.creds.map cred), .list (c.jobs.map job)] ++ plan
    ++ [.list (c.router.tables.map table), .list (c.serve.contracts.map contract), .n 2 c.power.vcoreSet, .n 1 c.power.cap]
    ++ eth 0 ++ eth 1 ++ [.n 1 (b2n c.rc.enE0), .n 1 (b2n c.rc.enE1), .n 2 c.rc.mgmtPort, .n 1 (c.alarms.inLevel - 1), .n 1 c.alarms.sigLimit])

/-- A list of bytes cut or filled to n. -/
def fixedLen (n : Nat) (l : List Byte) : List Byte := bytesAt l 0 n

/-- SECURITY_VERSION of an image (Table 21-1). -/
def Bank.security (b : Bank) : Nat := if b.factory then Config.factorySecurity.toNat else fieldAt b.image 12 1
def Bank.version (b : Bank) : Nat := if b.factory then Config.factoryVersion.toNat else fieldAt b.image 8 4
/-- FW_DIGEST (R596). -/
def Bank.digest (b : Bank) : List Byte := if b.factory then fixedLen 64 Config.factoryDigest else sha3 (bytesAt b.image 0 96)

def Ctl.bankOf (c : Ctl) (n : Nat) : Bank := c.rc.banks.getD n {}

/-- The report body (Table 21-3). -/
def Ctl.reportBody (nonce : List Byte) (c : Ctl) : List Byte :=
  let b := c.bankOf c.rc.runBank
  asciiBytes "TKAT" ++ leBytes 2 1 ++ leBytes 1 (min 2 c.alarmLevel) ++ leBytes 1 (c.rc.runBank + 128 * b2n (b.st = 2))
    ++ leBytes 8 Config.serial.toNat ++ leBytes 4 0x00900100 ++ leBytes 4 c.rc.fwVersion ++ leBytes 1 b.security ++ leBytes 1 c.rc.rollback
    ++ leBytes 2 0 ++ leBytes 4 c.rc.epoch ++ leBytes 8 c.tick ++ leBytes 4 Config.tallySealNumber.toNat
    ++ leBytes 4 ((c.router.plan.map (·.version)).getD 0) ++ fixedLen 32 nonce ++ fixedLen 64 c.rc.fwDigest ++ sha3 c.configBlock
    ++ fixedLen 64 Config.tallyFwChecksum ++ sha3 (bytesAt (Config.certificate 1) 16 2592) ++ zeros 16

/-- A signed report: body and signature. -/
def signed_ (key : Nat) (body : List Byte) : List Byte := body ++ fixedLen 4627 (Config.mldsaSign key (sha3 body))

/-- The next REPORT_ID: 32 bits, not 0 (R514). -/
def nextId (n : Nat) : Nat := if n + 1 < 2 ^ 32 then n + 1 else 1

/-- SEC_ATTEST (R599). -/
def execSecAttest (h : Hdr) (nonce : List Byte) (s : State) : Host.Outcome State Fault Refusal :=
  mbxRow { op := 0x0800, lock := true } h [Arg.blk 32 (nonce.length = 32)] [] s fun x w =>
    let id := w.c.rc.nextReport
    let r := signed_ 0 (w.c.reportBody nonce)
    let w := w.on fun c => (c.onRc fun r => { r with nextReport := nextId r.nextReport }).updPair x.n fun p => { p with
      session := p.session.map fun (t : Session) => { t with reports := lastN 16 (t.reports ++ [(id, r)]) } }
    .ok (encode [.n 4 id, .n 2 r.length]) w

/-- The arguments offset and length of a read in pieces (R609); `before` is where the block begins in the response. -/
def pieceArgs (c : Ctl) (n total offset len before : Nat) : List Arg :=
  [Arg.num 4 (decide (offset < total)),
    Arg.num 2 (1 ≤ len && len ≤ 4032 && offset + len ≤ total && before + len ≤ 64 * c.unitLimit n)]

/-- SEC_REPORT_READ: a report of this session. -/
def execSecReportRead (h : Hdr) (id offset len : Nat) (s : State) : Host.Outcome State Fault Refusal :=
  let own := (s.ctl.pair h.pair).session.bind fun t => (t.reports.find? (·.1 = id)).map (·.2)
  let r := own.getD []
  mbxRow { op := 0x0801, lock := true } h (Arg.num 4 own.isSome :: pieceArgs s.ctl h.pair r.length offset len 56) [] s fun _ w =>
    .ok (encode [.raw 1 (bytesAt r offset len)]) w

/-- SEC_CONFIG_READ (R600): the bytes and the total length. -/
def execSecConfigRead (h : Hdr) (offset len : Nat) (s : State) : Host.Outcome State Fault Refusal :=
  let b := s.ctl.configBlock
  mbxRow { op := 0x0802, roles := [0, 3], lock := true } h (pieceArgs s.ctl h.pair b.length offset len 64) [] s fun _ w =>
    .ok (encode [.raw 1 (bytesAt b offset len), .n 4 b.length]) w

/-- SEC_CERT_READ (R598): KEY_KIND 0 the identity key's certificate, 1 the record-signing key's. -/
def execSecCertRead (h : Hdr) (kind offset len : Nat) (s : State) : Host.Outcome State Fault Refusal :=
  mbxRow { op := 0x0803, any := true, lock := true } h (Arg.num 1 (decide (kind < 2)) :: pieceArgs s.ctl h.pair 7235 offset len 56) [] s fun _ w =>
    .ok (encode [.raw 1 (bytesAt (Config.certificate kind) offset len)]) w

end Sys2Proof.Machine
end

