-- ==== Sys2Proof/Machine/Firmware.lean ====
section
/-! DEFINITION. The RC's firmware, its restart, and the start of the module (R504, R505, R542, R543, R566 to R569, R593 to
R596). -/

namespace Sys2Proof.Machine

open Sys2Proof

/-! Images (R593, Table 21-1). -/

/-- Everything of R593 but the anti-rollback check. -/
def imageSigned (img : List Byte) : Bool :=
  let len := fieldAt img 16 8
  img.length = 7424 + len && 1 ≤ len && len ≤ 2 ^ 30 && bytesAt img 0 4 = asciiBytes "TKFW" && fieldAt img 4 2 = 1
    && sha3 (bytesAt img 96 2592) = Config.rootDigest && Config.mldsaVerify (bytesAt img 96 2592) (sha3 (bytesAt img 0 2688)) (bytesAt img 2688 4627)
    && bytesAt img 24 64 = sha3 (img.drop 7424)

/-- Whether the boot ROM starts a bank (R595). -/
def Ctl.bankBoots (c : Ctl) (n : Nat) : Bool :=
  let b := c.bankOf n
  b.st != 0 && (b.factory || imageSigned b.image) && c.rc.rollback ≤ b.security

namespace Ctl

def updBank (n : Nat) (f : Bank → Bank) (c : Ctl) : Ctl :=
  c.onRc fun r => { r with banks := r.banks.zipIdx.map fun x => if x.2 = n then f x.1 else x.1 }

/-- A trial ends without a commit (R543): the bank is VALID, and the other boots at the next restart. -/
def endTrial (n : Nat) (c : Ctl) : Ctl :=
  (c.updBank n fun b => { b with st := 1 }).onRc fun r => { r with bootBank := 1 - n, commitDue := none }

/-- Whether a load or an activation is under way (R542): a bank is on trial. -/
def trialOn (c : Ctl) : Bool := c.rc.banks.any (·.st = 2)

/-- What an RC restart does to the pairs (R505). -/
def restartPairs (c : Ctl) : Ctl :=
  { c with pairs := (c.pairs.filter fun (x : Nat × Pair) => x.2.remote.isNone).map fun (x : Nat × Pair) =>
      let p := x.2
      (x.1, if p.st = .unbound then p else
        { p with
          st := .bound, session := none, ended := false, challenge := none, started := 0, expSeq := 0, cmdPi := 0, cmdCi := 0
          rspPi := 0, rspCi := 0, evtPi := 0, evtCi := 0, rspMsgs := [], evtMsgs := [], held := [], evtSeq := 0, lost := 0, readings := [] }) }

/-- An RC restart (R505): the boot ROM runs. A trial boot that had not come to READY has failed (R543). -/
def rcRestart (c : Ctl) : Ctl :=
  let c := if c.rc.run = 2 && (c.bankOf c.rc.runBank).st = 2 then c.endTrial c.rc.runBank else c
  let c := c.cancelTxns fun t => match t.who with
    | .rc _ => true
    | _ => false
  let c := c.restartPairs.onRc fun r => { r with
    run := 1, startTick := c.tick, epoch := inc32 r.epoch, challenges := [], credFails := []
    waits := (r.waits.filter fun w => match w.what with
      | .stage _ => false
      | _ => true).map fun w => { w with pair := none } }
  (((c.intBoth 1).post 0 1 8).serveRestart)

end Ctl

/-- SYS_RC_RESTART (R504). -/
def execSysRcRestart (h : Hdr) (s : State) : Host.Outcome State Fault Refusal :=
  mbxRow { op := 0x0122, roles := [0] } h [] [] s fun _ w => .okThen [] w Ctl.rcRestart

/-- RC_WATCHDOG_EXPIRE (R504): not serviced for 1 s. -/
def execRcWatchdogExpire (s : State) : Host.Outcome State Fault Refusal :=
  ret true (s.act (W.on fun c => if c.rc.run = 2 || c.rc.run = 3 then c.rcRestart else c))

/-! Firmware update. -/

/-- SYS_FW_LOAD (R542): the bank, the digest, version and security version of the image. -/
def execSysFwLoad (h : Hdr) (image : Ref) (s : State) : Host.Outcome State Fault Refusal :=
  mbxRow { op := 0x0120, roles := [0] } h [refArg s h image] [image] s fun _ w =>
    let img := refBlock s image
    let n := 1 - w.c.rc.runBank
    if w.c.trialOn then .fail 0x0204 0
    else if !imageSigned img then .failWith 0x0405 0 (w.sigFail 0x0120)
    else if fieldAt img 12 1 < w.c.rc.rollback then .fail 0x0406 0
    else
      let b : Bank := { st := 1, image := img }
      .ok (encode [.n 1 n, .raw 8 b.digest, .n 4 b.version, .n 1 b.security])
        (w.on fun c => (c.updBank n fun _ => b).onRc fun r => { r with bootBank := r.runBank })

/-- SYS_FW_ACTIVATE (R543). -/
def execSysFwActivate (h : Hdr) (bank restartNow window : Nat) (s : State) : Host.Outcome State Fault Refusal :=
  mbxRow { op := 0x0121, roles := [0] } h
    [Arg.num 1 (decide (bank < 2)), Arg.num 1 (decide (restartNow < 2)), Arg.num 4 (60 ≤ window && window ≤ 86400)] [] s fun _ w =>
    if w.c.trialOn || (w.c.bankOf bank).st != 1 || bank = w.c.rc.runBank then .fail 0x0204 0
    else
      .okThen [] (w.on fun c => (c.updBank bank fun b => { b with st := 2 }).onRc fun r => { r with bootBank := bank, commitWindow := window })
        fun c => if restartNow = 1 then c.rcRestart else c

/-- SYS_FW_COMMIT (R543): the anti-rollback counter in force. -/
def execSysFwCommit (h : Hdr) (s : State) : Host.Outcome State Fault Refusal :=
  mbxRow { op := 0x0123, roles := [0] } h [] [] s fun _ w =>
    let n := w.c.rc.runBank
    if (w.c.bankOf n).st != 2 then .fail 0x0204 0
    else
      let w := w.on fun c =>
        ((c.updBank n fun b => { b with st := 3 }).updBank (1 - n) fun b => if b.st = 3 then { b with st := 1 } else b).onRc fun r =>
          { r with commitDue := none, rollback := max r.rollback (c.bankOf n).security }
      .ok (encode [.n 1 w.c.rc.rollback]) w

/-- SYS_FW_STATUS (Table 17-12). -/
def execSysFwStatus (h : Hdr) (s : State) : Host.Outcome State Fault Refusal :=
  mbxRow { op := 0x0124, roles := [0, 3], lock := true } h [] [] s fun _ w =>
    let one := fun (n : Nat) =>
      let b := w.c.bankOf n
      if b.st = 0 then [Item.n 1 0, .n 4 0, .n 1 0, .raw 8 (zeros 64)]
      else [Item.n 1 b.st, .n 4 b.version, .n 1 b.security, .raw 8 b.digest]
    .ok (encode (one 0 ++ one 1 ++ [.n 1 w.c.rc.rollback])) w

/-- FW_COMMIT_WINDOW_EXPIRE (R543). -/
def execFwCommitWindowExpire (s : State) : Host.Outcome State Fault Refusal :=
  ret true (s.act (W.on fun c =>
    if (c.rc.commitDue.any fun t => t ≤ c.tick) && (c.bankOf c.rc.runBank).st = 2 then c.endTrial c.rc.runBank else c))

/-! Boot. -/

/-- What the first start of an image since power was applied sets going (Table 19-3, step 4). -/
def Ctl.firstStart (c : Ctl) : Ctl :=
  if c.rc.started then c
  else
    let c := c.onRc fun r => { r with started := true }
    [0, 1].foldl (fun c f => if (c.fn f).perst then c else c.pcieTrain f) c

/-- The boot ROM's choice of bank (R595): each invalid image it meets is a SIG_FAIL; the bank it starts. -/
def W.bootChoose (w : W) : Option Nat × W :=
  let n := w.c.rc.bootBank
  let fail := fun (k : Nat) (w : W) => if (w.c.bankOf k).st = 0 then w else w.sigFail 0
  if w.c.bankBoots n then (some n, w)
  else
    let w := (fail n w).on fun c => if (c.bankOf n).st = 2 then c.endTrial n else c
    if w.c.bankBoots (1 - n) then (some (1 - n), w) else (none, fail (1 - n) w)

/-- BOOT_ROM_IMAGE_START (R595, R596, R608). After gesso no image is started and no rail enabled. -/
def execBootRomImageStart (s : State) : Host.Outcome State Fault Refusal :=
  ret true (s.act fun w =>
    if w.c.rc.run != 1 then w
    else if w.c.alarms.gesso then w.on fun c => (c.onRc fun r => { r with run := 5 }).firstStart
    else
      match w.bootChoose with
      | (some n, w) =>
        w.on fun c =>
          let b := c.bankOf n
          let c := (c.onRc fun r => { r with run := 2, runBank := n, fwVersion := b.version, fwDigest := b.digest }).firstStart
          if c.power.railsDue && c.power.seat then c.railsOn else c
      | (none, w) =>
        w.on fun c => [17, 18, 19].foldl (fun c i => c.post i 4 0x14) ((c.onRc fun r => { r with run := 4 }).post 0 4 0x14))

/-- Bound to another module (R631). -/
def Tally.foreign (t : Tally) : Bool := t.boundSerial != 0 && t.boundSerial != Config.serial.toNat

/-- The Tally entry as the RC posts it from the readout path (R571, R631): FAILED by its self-test or where it is bound to
another module, SEALED while its seal alarm stands. -/
def Ctl.tallyEntry (t : Tally) (c : Ctl) : Ctl :=
  let x : Nat × Nat := if !t.powered then (1, 4)
    else if t.selfTestFail || t.foreign then (4, 0x0D)
    else (2, 0)
  let c := if ((c.entry 15).st, (c.entry 15).reason) = x then c else c.post 15 x.1 x.2
  let sealed := if t.sealAlarm then 0x17 else 0
  if (c.entry 15).sealed = sealed then c else c.sealUp 15 sealed

/-- The engines after the RC is READY (Table 19-3, step 7): those that were off or waiting come up. -/
def Ctl.enginesUp (c : Ctl) : Ctl :=
  if c.power.rails != 63 then c
  else
    let up := fun (i : Nat) (x : Nat × Nat) (c : Ctl) => if (c.entry i).st = 2 || (c.entry i).st = 3 then c else c.post i x.1 x.2
    let c := up 18 (2, 0) (up 17 c.collEntry c)
    up 19 c.serveEntry c

/-- The RC comes to READY (Table 19-3, steps 6 and 7; R504, R543, R567): a trial that took more than 2 s has failed and another's
commit window begins, the setups held are done, and the engines follow. -/
def Ctl.bootComplete (t : Tally) (c : Ctl) : Ctl :=
  let c := (c.onRc fun r => { r with run := 3 }).post 0 2 0
  let trial := (c.bankOf c.rc.runBank).st = 2
  let c := if trial && c.rc.startTick + 2000000000 < c.tick then c.endTrial c.rc.runBank
    else if trial && c.rc.commitDue.isNone then c.onRc fun r => { r with commitDue := some (c.tick + r.commitWindow * 1000000000) }
    else c
  let held := c.rc.heldSetups
  let c := held.foldl (fun (c : Ctl) (x : Nat × Nat × Nat × SetupBlock) =>
    if (c.pair x.2.1).st = .unbound then c.setup x.1 x.2.1 x.2.2.1 x.2.2.2 else c) (c.onRc fun r => { r with heldSetups := [] })
  ((c.enginesUp).tallyEntry t).sendRecords

/-- RC_BOOT_COMPLETE (Table 19-3, steps 6 and 7). -/
def execRcBootComplete (s : State) : Host.Outcome State Fault Refusal :=
  ret true (s.act fun w => if w.c.rc.run != 2 then w else w.on (Ctl.bootComplete w.ty))

/-! Power up and down. -/

/-- Standby power comes up (Table 19-3, steps 1 and 2; R566, R567): the tick starts from 0, the boot ROM runs, and every entry shows
what it waits for. -/
def Ctl.coldStart (c : Ctl) : Ctl :=
  let c := c.onPower fun p => { p with standby := true, tickOn := true, tick := 0, inputOk := true, railsDue := true, step := p.cap }
  let c := c.onRc fun r => { r with run := 1, startTick := 0 }
  let c := (c.post 0 1 5)
  let c := [0, 1].foldl (fun (c : Ctl) f => if (c.fn f).perst then c.post (1 + f) 0 2 else c.post (1 + f) 0 4) c
  let c := ((List.range 12).map (· + 3) ++ (List.range 34).map (· + 20)).foldl (fun (c : Ctl) i => c.post i 0 1) c
  let c := [15, 17, 18, 19].foldl (fun (c : Ctl) i => c.post i 1 4) (c.post 16 0 3)
  if c.alarms.gesso then c.notePorts (gessoEntries.foldl (fun c i => c.sealUp i 0x16) c) else c

/-- COLD_START (Table 19-3, steps 1 and 2): the input reaches 40 V; a broken lid mesh is A3 (R601). -/
def execColdStart (lidBroken : Bool) (s : State) : Host.Outcome State Fault Refusal :=
  ret true (s.act fun w =>
    if w.c.power.standby then w
    else
      let w := w.on Ctl.coldStart
      if lidBroken then w.raise 1 3 0 else w)

/-- What outlasts the loss of standby power: credentials, banks and fuses, the alarm log, the values of PWR_CONFIG_SET and
ETH_CONFIG_SET, the pins, and the count of free values (R518, R542, R559, R594, R602; log 25). -/
def Ctl.powerLost (c : Ctl) : Ctl :=
  { rc := { banks := c.rc.banks, bootBank := c.rc.bootBank, rollback := c.rc.rollback, commitWindow := c.rc.commitWindow
            creds := c.rc.creds, freeCtr := c.rc.freeCtr }
    power := { vcoreSet := c.power.vcoreSet, cap := c.power.cap, seat := c.power.seat, alarmIn := c.power.alarmIn }
    alarms := { log := c.alarms.log, seq := c.alarms.seq, inLevel := c.alarms.inLevel, sigLimit := c.alarms.sigLimit
                gesso := c.alarms.gesso, lostRecords := c.alarms.lostRecords }
    fnA := { perst := c.fnA.perst }
    fnB := { perst := c.fnB.perst }
    eth := c.eth.map fun (x : Nat × EthPort) => (x.1, { cfg := x.2.cfg }) }

/-- STANDBY_POWER_LOST (R575, Table 9-6): the input is below 30 V. -/
def execStandbyPowerLost (s : State) : Host.Outcome State Fault Refusal :=
  ret true (s.act fun w =>
    if !w.c.power.standby then w
    else { w with c := w.c.powerLost, b := w.b.op (.zero 0 (2 ^ 66)) })

end Sys2Proof.Machine
end

