-- ==== Sys2Proof/Machine/Remote.lean ====
section
/-! DEFINITION. The remote mailbox: datagrams on MGMT_PORT, their sessions, the order of commands and the resending of
events (R537 to R541). -/

namespace Sys2Proof

/-- Fields of the header (Table 17-18) and the units behind it. -/
def Dgram.type (g : Dgram) : Nat := Machine.fieldAt g.bytes 1 1
def Dgram.session (g : Dgram) : Nat := Machine.fieldAt g.bytes 4 4
def Dgram.seq (g : Dgram) : Nat := Machine.fieldAt g.bytes 8 4
def Dgram.ack (g : Dgram) : Nat := Machine.fieldAt g.bytes 12 4
def Dgram.units (g : Dgram) : List Byte := g.bytes.drop 24

/-- The header is well formed: VERSION, RSVD bytes zero and UNITS as many as follow. -/
def Dgram.formed (g : Dgram) : Bool :=
  Machine.fieldAt g.bytes 0 1 = 0x10 && Machine.fieldAt g.bytes 2 2 = 0 && Machine.fieldAt g.bytes 18 4 = 0 && Machine.fieldAt g.bytes 22 2 = 0
    && g.bytes.length = 24 + 64 * Machine.fieldAt g.bytes 16 2

def Dgram.ok (g : Dgram) : Bool := g.port < 2

end Sys2Proof

namespace Sys2Proof.Machine

open Sys2Proof

namespace Ctl

/-- Whether the RC takes remote datagrams of port p (R537, R555, R567). -/
def mgmtOn (p : Nat) (c : Ctl) : Bool := c.rc.run = 3 && c.ethIn p && (if p = 0 then c.rc.enE0 else c.rc.enE1)

def authFail (c : Ctl) : Ctl := c.onRc fun r => { r with authFail := r.authFail + 1 }

/-- The pair of an open remote session. -/
def remotePair (id : Nat) (c : Ctl) : Option (Nat × Pair × Remote) :=
  (c.pairs.find? fun x => x.2.remote.isSome && x.2.session.any (·.id = id)).bind fun x => x.2.remote.map fun r => (x.1, x.2, r)

end Ctl

/-- DGRAM_SEQ above the highest accepted, or within the 1,024 below it and not yet accepted (R539). -/
def Remote.fresh (seq : Nat) (r : Remote) : Bool :=
  decide (r.rxHigh < seq) || (decide (seq < r.rxHigh) && decide (r.rxHigh ≤ seq + 1024) && !r.rxSeen.contains seq)

def Remote.seen (seq tick : Nat) (r : Remote) : Remote :=
  let high := max r.rxHigh seq
  { r with
    rxHigh := high
    rxSeen := ((r.rxHigh :: seq :: r.rxSeen).eraseDups).filter fun n => n < high && high ≤ n + 1024
    lastRx := tick }

/-- A datagram of an open session: what its TAG and DGRAM_SEQ admit goes on with the session's pair (R539). -/
def Ctl.remoteIn (type : Nat) (g : Dgram) (f : Nat → Ctl → Ctl) (c : Ctl) : Ctl :=
  if !c.mgmtOn g.port || g.type != type then c
  else
    let c := c.ethTake g.port
    match c.remotePair g.session with
    | some (n, _, r) =>
      if !g.formed || g.mac != kmac256 r.key g.bytes 128 "OLR" then c.authFail
      else if !r.fresh g.seq then c.onRc fun x => { x with replayed := x.replayed + 1 }
      else f n (c.updPair n fun p => { p with remote := p.remote.map (·.seen g.seq c.tick) })
    | none => c.authFail

/-- The challenges that are still good (R538). -/
def Ctl.challengesHeld (c : Ctl) : List (Nat × Nat × Nat × Nat × Nat) := c.rc.challenges.filter fun x => c.tick < x.2.2.2.2

/-- A CHALLENGE with a fresh nonce, good for 10 s, to the sender of a HELLO (R538). -/
def Ctl.sendChallenge (g : Dgram) (c : Ctl) : Ctl :=
  let new := decide ((c.ethPort g.port).helloWindow + 1000000000 ≤ c.tick)
  let held := c.challengesHeld
  let (nonce, c) := c.draw
  ((c.updEth g.port fun e =>
      if new then { e with helloWindow := c.tick, helloInWindow := 1 } else { e with helloInWindow := e.helloInWindow + 1 }).onRc fun r =>
    { r with challenges := held ++ [(g.port, g.addr, g.udp, nonce.toNat, c.tick + 10000000000)] }).ethSend g.port g.addr g.udp
      (dgramBytes 0x02 0 0 0 (padTo 64 (nonceBytes nonce)) none)

/-- HELLO (R538): a CHALLENGE, at most 256 a second on a port and 64 held. -/
def execRemoteHello (g : Dgram) (s : State) : Host.Outcome State Fault Refusal :=
  ret g.ok (s.act (W.on fun c =>
    if !c.mgmtOn g.port || g.type != 1 then c
    else
      let c := c.ethTake g.port
      let e := c.ethPort g.port
      if !g.formed then c.authFail
      else if (c.tick < e.helloWindow + 1000000000 && 256 ≤ e.helloInWindow) || 64 ≤ c.challengesHeld.length then c
      else c.sendChallenge g))

/-! OPEN (R538). Its two messages: SYS_VERSION, then SYS_SESSION_OPEN. -/

/-- The first failed check of a message of an OPEN up to its arguments: LENGTH, SEQUENCE, OPCODE_UNKNOWN, RSVD_NONZERO. -/
def openFrame (m : List Byte) (op seq len : Nat) : Option Nat :=
  if m.length != 64 * (fieldAt m 2 1 + 1) || fieldAt m 2 1 + 1 != unitsOf len then some 0x0104
  else if fieldAt m 4 4 != seq then some 0x0106
  else if fieldAt m 0 2 != op then some 0x0101
  else if fieldAt m 3 1 != 0 then some 0x0103
  else none

/-- The argument checks of the two messages. -/
def openRefusal (v o : List Byte) : Option (Bool × Nat) :=
  match openFrame v 0x0100 0 20 with
  | some st => some (false, st)
  | none =>
    if 1 < fieldAt v 16 1 || fieldAt v 18 1 < 1 || (fieldAt v 16 1 = 1 && fieldAt v 17 1 != 0) then some (false, 0x0108)
    else
      match openFrame o 0x0102 1 88 with
      | some st => some (true, st)
      | none =>
        if !credOk (fieldAt o 16 2) || 3 < fieldAt o 18 1 then some (true, 0x0102)
        else if bytesAt o 19 5 != zeros 5 then some (true, 0x0103)
        else none

/-- A response message of an OPEN. -/
def openMsg (op : Nat) (m : List Byte) (status tick : Nat) (body : List Byte) : Msg :=
  ⟨false, op, fieldAt m 4 4, fieldAt m 8 8, status, 0, tick, body, 0⟩

/-- Answer an OPEN with the refusing status; nothing is bound. -/
def Ctl.openNo (g : Dgram) (v o : List Byte) (second : Bool) (status : Nat) (c : Ctl) : Ctl :=
  let m := if second then openMsg 0x0102 o status c.tick [] else openMsg 0x0100 v status c.tick []
  c.ethSend g.port g.addr g.udp (dgramBytes 0x11 0 1 0 m.bytes none)

/-- The open proper: the challenge sent to the same address and port, the proof with PAIR 0xFFFF, the lowest free pair
of 224 to 255. -/
def Ctl.remoteOpen (g : Dgram) (v o : List Byte) (c : Ctl) : Ctl :=
  let ch := c.rc.challenges.find? fun x => x.1 = g.port && x.2.1 = g.addr && x.2.2.1 = g.udp && c.tick < x.2.2.2.2
  let c := c.onRc fun r => { r with
    challenges := match ch with
      | some x => r.challenges.erase x
      | none => r.challenges }
  let free := c.pairs.firstFree 224 32
  let n := free.getD 256
  let cred := fieldAt o 16 2
  let nonceC := bytesAt o 24 32
  let nonceM := (ch.map (·.2.2.2.1)).getD 0
  let key := ((c.rc.creds.get? cred).map (·.key)).getD []
  let r : Remote := {
    port := g.port, addr := g.addr, udp := g.udp
    key := kmac256 key (leBytes 32 nonceM ++ nonceC) 256 "OLS"
    rxHigh := g.seq, txSeq := 1, lastRx := c.tick }
  let trial := c.setPair n { st := .negotiated, challenge := ch.map (·.2.2.2), expSeq := 2, remote := some r }
  match trial.tryOpen n 0xFFFF cred (fieldAt o 18 1) nonceC (bytesAt o 56 32) with
  | (some body, c') =>
    if free.isNone then c.openNo g v o true 0x0301
    else
      let m1 := openMsg 0x0100 v 0 c.tick (encode [.n 1 1, .n 1 0, .n 4 c.rc.epoch, .n 8 Config.serial.toNat, .n 1 n])
      let m2 := openMsg 0x0102 o 0 c.tick body
      ((c'.updPair n fun p => { p with remote := p.remote.map fun r => { r with sent := [(0, m1), (1, m2)] } }).remoteSend n 0x11 0
        (m1.bytes ++ m2.bytes)).tellTrial n
  | (none, c') => { c' with pairs := c.pairs }.openNo g v o true 0x0402

/-- OPEN (R538). -/
def execRemoteOpen (g : Dgram) (s : State) : Host.Outcome State Fault Refusal :=
  ret g.ok (s.act (W.on fun c =>
    if !c.mgmtOn g.port || g.type != 3 then c
    else
      let c := c.ethTake g.port
      let v := g.units.take 64
      let o := g.units.drop 64
      if !g.formed || g.session != 0 then c.authFail
      else
        match openRefusal v o with
        | some (second, st) => c.openNo g v o second st
        | none => c.remoteOpen g v o))

/-! Commands (R540). -/

/-- The commands of a session that can be taken next, in order: those ready, then what was held behind the gap. -/
def Remote.advance : Nat → Nat → Remote → Remote
  | 0, _, r => r
  | f + 1, next, r =>
    if r.early.any (·.1 = next) then
      advance f (next + 1) { r with ready := r.ready ++ [next], early := r.early.filter (·.1 != next) }
    else r

/-- A command message of number seq: started already (its response may be sent again), the next, or ahead of a gap. -/
def Ctl.remoteDeliver (n seq : Nat) (c : Ctl) : Ctl :=
  let p := c.pair n
  match p.remote with
  | none => c
  | some r =>
    let next := p.expSeq + r.ready.length
    if seq < p.expSeq then
      match r.sent.find? (·.1 = seq) with
      | some (_, m) => c.remoteSend n 0x11 0 m.bytes
      | none => c
    else if seq < next then c
    else if seq = next then
      c.updPair n fun p => { p with remote := some ({ r with ready := r.ready ++ [seq] }.advance 64 (next + 1)) }
    else if 64 ≤ r.early.length || r.early.any (·.1 = seq) then c
    else c.updPair n fun p => { p with remote := some { r with early := r.early ++ [(seq, c.tick + 1000000000)] } }

/-- COMMAND (R540): the mailbox row of the command it carries takes it once its CMD_SEQ is the next. -/
def execRemoteCommand (g : Dgram) (s : State) : Host.Outcome State Fault Refusal :=
  ret g.ok (s.act (W.on (Ctl.remoteIn 0x10 g fun n c =>
    if g.units.length < 64 then c else c.remoteDeliver n (fieldAt g.units 4 4))))

/-- EVENT_ACK (R541): events up to ACK_SEQ are received. -/
def execRemoteEventAck (g : Dgram) (s : State) : Host.Outcome State Fault Refusal :=
  ret g.ok (s.act (W.on (Ctl.remoteIn 0x13 g fun n c =>
    (c.updPair n fun p => { p with
      remote := p.remote.map fun r => { r with unacked := r.unacked.filter fun x => 2 ^ 31 ≤ Ctl.diff32 g.ack x.1 } }).evtsLost n)))

/-- CLOSE (R541). -/
def execRemoteClose (g : Dgram) (s : State) : Host.Outcome State Fault Refusal :=
  ret g.ok (s.act (W.on (Ctl.remoteIn 0x14 g fun n c => c.unbind n)))

/-- REMOTE_EVENT_RESEND (R541): an event that no EVENT_ACK covers within 10 ms is sent again. -/
def execRemoteEventResend (pair seq : Nat) (s : State) : Host.Outcome State Fault Refusal :=
  ret (pair < 256) (s.act (W.on fun c =>
    match (c.pair pair).remote with
    | none => c
    | some r =>
      match r.unacked.find? fun x => x.1 = seq && decide (x.2.1 ≤ c.tick) with
      | none => c
      | some (_, _, m) =>
        (c.updPair pair fun p => { p with
          remote := some { r with unacked := r.unacked.map fun x => if x.1 = seq then (x.1, c.tick + 10000000, x.2.2) else x } }).remoteSend
            pair 0x12 0 m.bytes))

/-- REMOTE_SESSION_IDLE (R541): 300 s without an accepted datagram. -/
def execRemoteSessionIdle (pair : Nat) (s : State) : Host.Outcome State Fault Refusal :=
  ret (pair < 256) (s.act (W.on fun c =>
    match (c.pair pair).remote with
    | some r => if r.lastRx + 300000000000 ≤ c.tick then c.unbind pair else c
    | none => c))

/-- REMOTE_GAP_EXPIRE (R540): a command held ahead of a gap for 1 s is dropped. -/
def execRemoteGapExpire (pair seq : Nat) (s : State) : Host.Outcome State Fault Refusal :=
  ret (pair < 256) (s.act (W.on fun c =>
    match (c.pair pair).remote with
    | some r => c.updPair pair fun p => { p with
        remote := some { r with early := r.early.filter fun x => !(x.1 = seq && decide (x.2 ≤ c.tick)) } }
    | none => c))

end Sys2Proof.Machine
end

