-- ==== Sys2Proof/Machine/Serve.lean ====
section
/-! DEFINITION. The commands of the serving engine, the messages of TSP and the engine's timers (chapter 16). -/

namespace Sys2Proof

open Sys2Proof.Machine

/-! The header of a TSP message (Table 16-3). -/

def Tsp.type (m : Tsp) : Nat := fieldAt m.bytes 1 1
def Tsp.flags (m : Tsp) : Nat := fieldAt m.bytes 2 2
def Tsp.contract (m : Tsp) : Nat := fieldAt m.bytes 4 4
def Tsp.stream (m : Tsp) : Nat := fieldAt m.bytes 8 8
def Tsp.seq (m : Tsp) : Nat := fieldAt m.bytes 16 4
def Tsp.payload (m : Tsp) : List Byte := m.bytes.drop 24
def Tsp.client (m : Tsp) : Client := .net m.port m.addr m.udp

/-- E0 or E1, an IPv4 address and a UDP port. -/
def Tsp.ok (m : Tsp) : Bool := m.port < 2 && m.addr < 2 ^ 32 && m.udp < 65536 && m.mac.length = 16

end Sys2Proof

namespace Sys2Proof.Machine

open Sys2Proof

/-! The receipt of TSP messages (R472 to R474). -/

/-- Whether a MSG_SEQ is accepted: above the highest, or one of the 1,024 below it not yet accepted. -/
def Contract.fresh (k : Contract) (n : Nat) : Bool :=
  match k.rxHigh with
  | none => true
  | some h => decide (h < n) || (decide (n < h) && decide (h ≤ n + 1024) && !k.rxSeen.contains n)

def Contract.seen (k : Contract) (n : Nat) : Contract :=
  let h := max n (k.rxHigh.getD n)
  { k with rxHigh := some h, rxSeen := (n :: k.rxSeen).filter fun x => decide (h ≤ x + 1024) }

/-- Whether a TAG verifies under the contract's key or the key before it (R473, R492). -/
def Contract.verifies (k : Contract) (m : Tsp) : Bool :=
  kmac256 k.key m.bytes 128 "TSP" = m.mac || k.oldKey.any fun o => kmac256 o.1 m.bytes 128 "TSP" = m.mac

/-- The checks of R473: whether the message is taken, with what it counts. The stream's client is from then on where it came
from (R472). -/
def Ctl.tspTake (m : Tsp) (c : Ctl) : Bool × Ctl :=
  let top := if (c.ethPort m.port).cfg.jumbo = 1 then 8192 else 1472
  if m.bytes.length < 24 then (false, c)
  else
    match c.contract? m.contract with
    | none => (false, c.onServe fun s => { s with authFail := inc32 s.authFail })
    | some k =>
      let count := fun (f : Contract → Contract) => (false, c.updContract m.contract f)
      if !k.verifies m then count fun k => { k with authFail := inc32 k.authFail }
      else if fieldAt m.bytes 0 1 / 16 != 1 || 4 ≤ m.flags || fieldAt m.bytes 22 2 != 0 || m.bytes.length != 24 + fieldAt m.bytes 20 2
          || decide (top < m.bytes.length + 16) then count fun k => { k with malformed := inc32 k.malformed }
      else if !k.fresh m.seq then count fun k => { k with replayed := inc32 k.replayed }
      else
        (true, (c.updContract m.contract (·.seen m.seq)).updSeq m.contract m.stream fun q =>
          match q.client with
          | .net .. => { q with client := m.client }
          | .mailbox .. => q)

/-- The row of a message type: it comes on a port that is READY while the engine's firmware runs (R36, R472). -/
def tspRow (type : Nat) (m : Tsp) (s : State) (f : W → W) : Host.Outcome State Fault Refusal :=
  ret m.ok (s.act fun w =>
    if w.c.rc.run != 3 || !w.c.ethIn m.port || m.type != type then w
    else
      let r := (w.c.ethTake m.port).tspTake m
      if r.1 then f { w with c := r.2 } else { w with c := r.2 })

/-! Requests (R475, R476, R479 to R481). -/

/-- The REQUEST fields of part 0 and the tokens of the whole input, or the REFUSE code. -/
def parseRequest (c : Ctl) (k : Contract) (vocab : Nat) (p0 input : List Byte) (textOut : Bool) : Except Nat (ReqArgs × List Nat) :=
  let stops := fieldAt p0 6 1
  let kind := fieldAt p0 5 1
  let r : ReqArgs := {
    maxNew := fieldAt p0 0 4, mode := fieldAt p0 4 1, inputKind := kind
    stops := (List.range stops).map fun i => fieldAt p0 (28 + 4 * i) 4
    temp := BitVec.ofNat 32 (fieldAt p0 8 4), topP := BitVec.ofNat 32 (fieldAt p0 12 4), topK := fieldAt p0 16 4
    seed := fieldAt p0 20 8, textOut := textOut }
  let table := c.serve.tables.get? k.a.tokeniser
  if r.maxNew = 0 || 65536 < r.maxNew || 1 < kind || 4 < stops || fieldAt p0 7 1 != 0 || input.isEmpty
      || (kind = 0 && input.length % 4 != 0) || (kind = 1 && table.isNone) then .error 1
  else if !sampleOk r then .error 7
  else if kind = 1 && !utf8Ok input.length (input.map (·.toNat)) then .error 2
  else
    let toks := if kind = 1 then (table.map fun t => bpEncode t input).getD []
      else (List.range (input.length / 4)).map fun i => fieldAt input (4 * i) 4
    if (toks ++ r.stops).any fun t => decide (vocab ≤ t) then .error 3
    else if k.a.ctxLimit ≤ toks.length then .error 4
    else .ok (r, toks)

/-- A 64-bit SEED other than 0 (R491): the client's, or one from the RC's random source. -/
def Ctl.seedFor (seed : Nat) (c : Ctl) : Nat × Ctl :=
  if seed != 0 then (seed, c)
  else
    let d := c.draw
    (d.1.toNat % (2 ^ 64 - 1) + 1, d.2)

/-- A complete request: the REFUSE code, or it enters the intake queue (R481). -/
def Ctl.submit (id stream : Nat) (client : Client) (p0 input : List Byte) (textOut : Bool) (c : Ctl) : Except Nat Ctl :=
  match c.contract? id with
  | none => .error 6
  | some k =>
    if k.closing then .error 6
    else
      match c.serve.model with
      | none => .error 5
      | some m =>
        if c.locked then .error 5
        else
          match parseRequest c k m.a.vocab p0 input textOut with
          | .error e => .error e
          | .ok (r, toks) =>
            if 4096 ≤ c.intake.length then .error 5
            else
              let s := c.seedFor r.seed
              .ok (s.2.onServe fun y => { y with
                seqs := y.seqs ++ [{ contract := id, stream := stream, client := client, r := r, prompt := toks, seedUsed := s.1
                                     rng := seedState s.1, order := 0 }] })

/-- What a repeated STREAM_ID is answered with: TYPE and payload (R476). -/
def Ctl.repeatAnswer (q : Sequence) (c : Ctl) : Nat × List Byte :=
  match q.done with
  | some r => (0x83, doneBytes r q)
  | none => (0x81, acceptBytes (c.queuePos q.contract q.stream) q)

/-- A complete request over TSP: it is refused, or queued and admitted if it can be; ACCEPT says which place it has. -/
def W.takeRequest (id stream : Nat) (client : Client) (p0 input : List Byte) (textOut : Bool) (w : W) : W :=
  match w.c.submit id stream client p0 input textOut with
  | .error e => w.on (Ctl.tspSend id stream 0x84 client (Ctl.refuseBytes e))
  | .ok c =>
    let w := W.serveKick { w with c := c }
    w.on fun c =>
      match c.seq? id stream with
      | some q => if q.told || q.done.isSome then c else c.tspSend id stream 0x81 client (Ctl.acceptBytes (c.queuePos id stream) q)
      | none => c

/-- The parts of a request that has come whole: part 0 and the input. -/
def Parts.whole (p : Parts) : Option (List Byte × List Byte) :=
  match p.last with
  | none => none
  | some n =>
    if (List.range (n + 1)).all p.got.has then
      some (p.got.getD 0 [], (p.got.getD 0 []).drop 48 ++ ((List.range n).flatMap fun i => (p.got.getD (i + 1) []).drop 48))
    else none

/-- REQUEST (R475, R476): a repeated STREAM_ID is answered again; else a part, and the request once it is whole. -/
def execTspRequest (m : Tsp) (s : State) : Host.Outcome State Fault Refusal :=
  tspRow 1 m s fun w =>
    let id := m.contract
    let st := m.stream
    let dropParts := fun (c : Ctl) => c.onServe fun s => { s with parts := s.parts.filter fun p => !(p.contract = id && p.stream = st) }
    match w.c.seq? id st with
    | some q =>
      let a := w.c.repeatAnswer q
      w.on (Ctl.tspSend id st a.1 m.client a.2)
    | none =>
      if m.payload.length < 48 then w.on fun c => (dropParts c).tspSend id st 0x84 m.client (Ctl.refuseBytes 1)
      else
        let n := fieldAt m.payload 44 4
        let p := (w.c.serve.parts.find? fun p => p.contract = id && p.stream = st).getD
          { contract := id, stream := st, client := m.client, first := w.c.tick }
        let p := { p with
          client := m.client
          got := Tab.set n m.payload p.got
          last := if bit m.flags 0 then p.last else some n
          textOut := if n = 0 then bit m.flags 1 else p.textOut }
        let w := w.on dropParts
        match p.whole with
        | some (p0, input) => w.takeRequest id st m.client p0 input p.textOut
        | none => w.on (Ctl.onServe fun s => { s with parts := s.parts ++ [p] })

/-- Cancel a sequence (R485): what was sampled before is streamed and delivered, then DONE with CANCELLED. -/
def Ctl.cancelSeq (k n : Nat) (c : Ctl) : Ctl :=
  match c.seq? k n with
  | none => c
  | some q =>
    if q.done.isSome then c
    else if q.slot.isNone then c.endSeq k n 3
    else (c.updSeq k n fun q => { q with ending := some 3 }).deliverSeq k n

/-- CANCEL (R485). -/
def execTspCancel (m : Tsp) (s : State) : Host.Outcome State Fault Refusal :=
  tspRow 2 m s fun w => (w.on (Ctl.cancelSeq m.contract m.stream)).serveKick

/-- STREAM_ACK (R477): the tokens below NEXT_INDEX are dropped, and a paused sequence goes on. -/
def execStreamAck (m : Tsp) (s : State) : Host.Outcome State Fault Refusal :=
  tspRow 3 m s fun w =>
    match w.c.seq? m.contract m.stream with
    | none => w
    | some q =>
      let a := max q.acked (min (fieldAt m.payload 0 4) q.sent)
      let go := q.paused && decide (q.sent - a < 4096)
      let w := w.on (Ctl.updSeq m.contract m.stream fun q => { q with
        acked := a
        paused := q.paused && !go
        skipLat := q.skipLat || go })
      if go then (w.on (Ctl.countTime m.contract m.stream true)).serveKick else w

/-- RESEND (R477, R478): the kept tokens from FROM on are sent again, one to a message; they are not delivered again. -/
def execTspResend (m : Tsp) (s : State) : Host.Outcome State Fault Refusal :=
  tspRow 4 m s fun w =>
    match w.c.seq? m.contract m.stream with
    | none => w
    | some q =>
      let lo := max q.acked (fieldAt m.payload 0 4)
      w.on fun c => ((List.range (q.sent - lo)).foldl (fun (st : Ctl × List Byte) i =>
        let t := q.out.getD (lo + i) 0
        let x := if q.r.textOut then Ctl.textCut (st.2 ++ c.tokenText q.contract t) else ([], [])
        (st.1.tspSend q.contract q.stream 0x82 q.client (Ctl.tokensBytes (lo + i) [t] x.1), x.2)) (c, [])).1

/-! Timers. -/

/-- REQUEST_PARTS_TIMEOUT (R475). -/
def execRequestPartsTimeout (contract stream : Nat) (s : State) : Host.Outcome State Fault Refusal :=
  ret (contract < 2 ^ 32 && stream < 2 ^ 64) (s.act (W.on fun c =>
    match c.serve.parts.find? fun p => p.contract = contract && p.stream = stream with
    | some p =>
      if c.rc.run = 3 && p.first + 1000000000 ≤ c.tick then
        (c.onServe fun s => { s with parts := s.parts.filter (· != p) }).tspSend contract stream 0x84 p.client (Ctl.refuseBytes 8)
      else c
    | none => c))

/-- STREAM_RETENTION_EXPIRE (R476, R477): 10 s after DONE. -/
def execStreamRetentionExpire (contract stream : Nat) (s : State) : Host.Outcome State Fault Refusal :=
  ret (contract < 2 ^ 32 && stream < 2 ^ 64) (s.act (W.on fun c =>
    if c.rc.run = 3 && (c.seq? contract stream).any fun q => q.done.isSome && decide (q.doneTick + 10000000000 ≤ c.tick) then
      c.onServe fun s => { s with seqs := s.seqs.filter fun q => !(q.contract = contract && q.stream = stream) }
    else c))

/-- INTER_TOKEN_DEADLINE (R71 to R75, R494): the expiry won. -/
def execInterTokenDeadline (slot : Nat) (s : State) : Host.Outcome State Fault Refusal :=
  ret (slot < 1024) (s.act (W.on fun c =>
    match c.residents.find? (·.slot = some slot) with
    | none => c
    | some q =>
      match q.deadline with
      | none => c
      | some d =>
        if c.rc.run != 3 || c.tick < d then c
        else
          let c := c.updSeq q.contract q.stream fun q => { q with deadline := none, overdue := true }
          let c := c.updContract q.contract fun k => { k with win := { k.win with misses := inc32 k.win.misses } }
          c.onServe fun s => { s with timeouts := inc32 s.timeouts }))

/-- The breach bits of a window: rate, P50, P99, P999 (R495). -/
def breachOf (a : ContractArgs) (tokens ms p50 p99 p999 : Nat) : Nat :=
  let rate := match dec32 a.rateSeq.toNat with
    | .fin _ m e => ms != 0 && Fp.lt (.fin false (tokens * 1000) 0) (.fin false (m * ms) e)
    | _ => false
  let above := fun (p t : Nat) => t != 0 && decide (t < p)
  b2n rate + 2 * b2n (above p50 a.p50) + 4 * b2n (above p99 a.p99) + 8 * b2n (above p999 a.p999)

/-- The record of a window that ends now (Table 16-9). -/
def windowRecord (id : Nat) (k : Contract) (endTick : Nat) : Nat × List Byte :=
  let x := k.win
  let ms := x.seqNs / 1000000
  let p := fun (n d : Nat) => percentile x.hist n d
  let br := breachOf k.a x.tokens ms (p 1 2) (p 99 100) (p 999 1000)
  (br, leBytes 4 id ++ leBytes 4 x.seq ++ leBytes 8 x.start ++ leBytes 8 endTick ++ leBytes 4 x.tokens ++ leBytes 4 ms
    ++ leBytes 4 (p 1 2) ++ leBytes 4 (p 99 100) ++ leBytes 4 (p 999 1000) ++ leBytes 4 (samplesOf x.hist) ++ leBytes 4 x.misses
    ++ leBytes 1 br ++ leBytes 1 x.cause ++ leBytes 1 x.clMax ++ zeros 9)

/-- SERVE_WINDOW_END (R495). -/
def execServeWindowEnd (contract : Nat) (s : State) : Host.Outcome State Fault Refusal :=
  ret (contract < 2 ^ 32) (s.act (W.on fun c =>
    match c.contract? contract with
    | none => c
    | some k =>
      if c.rc.run != 3 || c.tick < k.win.start + k.a.window then c
      else
        let c := c.noteCauses
        let c := (c.residents.filter fun q => q.contract = contract && q.from_.isSome).foldl
          (fun c q => c.countTime q.contract q.stream true) c
        match c.contract? contract with
        | none => c
        | some k =>
          let r := windowRecord contract k c.tick
          let c := c.updContract contract fun k => { k with
            records := lastN 64 (k.records ++ [(k.win.seq, r.2)])
            win := c.newWindow k (k.win.seq + 1) }
          if r.1 = 0 then c else c.event 0x0602 (encodeEv [.n 4 contract, .raw 8 r.2]) (Ctl.serveTo k.job)))

/-- STRETCH_TIME_EXPIRE (R499). -/
def execStretchTimeExpire (contract : Nat) (s : State) : Host.Outcome State Fault Refusal :=
  ret (contract < 2 ^ 32) (s.act (W.on fun c =>
    match c.contract? contract with
    | none => c
    | some k =>
      if c.rc.run = 3 && k.stretch.any fun st => decide (st.first + k.a.stretchTime ≤ c.tick) then c.closeStretch contract 1 else c))

/-- CONTRACT_KEY_GRACE_END (R492): 60 s after the key was replaced. -/
def execContractKeyGraceEnd (contract : Nat) (s : State) : Host.Outcome State Fault Refusal :=
  ret (contract < 2 ^ 32) (s.act (W.on fun c =>
    c.updContract contract fun k =>
      if c.rc.run = 3 && k.oldKey.any fun o => decide (o.2 ≤ c.tick) then { k with oldKey := none } else k))

/-- NEXT_SEQ of a contract as the Tally shows it (R621, R629). -/
def nextSeqOf (t : Tally) (id : Nat) : Nat := ((t.contracts.get? id).map (·.next)).getD 0

/-- RECORD_RESEND_CHECK (R500, R621): 20 ms after the sending, the record is released or sent again; a place in the queue lets
a stretch close and its tokens go. -/
def execRecordResendCheck (contract seq : Nat) (s : State) : Host.Outcome State Fault Refusal :=
  ret (contract < 2 ^ 32 && seq < 2 ^ 32) (s.act fun w =>
    match w.c.serve.queue.find? fun q => q.contract = contract && q.seq = seq with
    | none => w
    | some q =>
      if w.c.rc.run != 3 || (q.sentAt.all fun t => decide (w.c.tick < t + 20000000)) then w
      else if w.ty.powered && seq < nextSeqOf w.ty contract then
        let w := w.on (Ctl.onServe fun y => { y with queue := y.queue.filter (· != q) })
        (w.on fun c => c.serve.contracts.keys.foldl (fun (c : Ctl) id => c.retryClose id) c).serveKick
      else
        w.on (Ctl.onServe fun y => { y with
          queue := y.queue.map fun x => if x = q then { q with sentAt := if w.c.stateOf 15 = 2 then some w.c.tick else none } else x }))

/-! The done line (R471). -/

/-- ITERATION_DONE: the store of ITERATION to the done line. -/
def execIterationDone (p : Pkt) (s : State) : Host.Outcome State Fault Refusal :=
  ret (pktOk p) (s.act fun w =>
    match w.c.doneLine with
    | none => w
    | some d =>
      if p.space != 1 || p.offset / 64 != d / 64 || w.c.serveHeld then w
      else
        w.atHome 2 p fun _ w =>
          let w := w.applyWrite p
          match w.c.serve.model with
          | none => w
          | some m =>
            if m.waiting && ofLE (w.b.mem.readBytes (hubBase + d) 4) = (m.iter + 2 ^ 32 - 1) % 2 ^ 32 then
              (w.on (Ctl.updModel fun m => { m with stored := true })).serveKick
            else w)

/-! Mailbox commands (Table 16-12). -/

def contractArg : Arg := Arg.num 4 true

/-- Refuse unless the serving engine's function is usable (R562). -/
def needServe (c : Ctl) : Option (Nat × Nat) := if c.usable 19 then none else some (0x0205, 0)

/-- The commands of the model or a contract: NOT_OWNED for another's. -/
def contractFor (c : Ctl) (x : Ctx) (id : Nat) (args : List Arg) : Except Res Contract :=
  match c.contract? id with
  | none => .error (badArg args 0)
  | some k => if x.owns k.job then .ok k else .error (.fail 0x0404 0)

/-- What refuses the regions of a model (R470): number, owner, job, place. -/
def modelRegion (c : Ctl) (x : Ctx) (job n : Nat) (ok : Region → Bool) : Option Nat :=
  match c.fabric.regions.get? n with
  | none => some 0x0503
  | some r =>
    if r.zeroing then some 0x0503 else if !x.owns r.job then some 0x0404 else if r.job != job then some 0x0107
    else if !ok r then some 0x0102 else none

/-- Give each pool its engine queue: none where a stack has no queue free. -/
def Ctl.openPools (a : ModelArgs) (session : Nat) : List Nat → Ctl → Option (Tab Pool × Ctl)
  | [], c => some ([], c)
  | n :: t, c =>
    match c.fabric.regions.get? n with
    | none => none
    | some r =>
      let st := stackOf r.base
      match (c.stack st).queues.firstFree 0 32 with
      | none => none
      | some q =>
        let c := c.updStack st fun y => { y with
          queues := Tab.set q { job := a.job, regions := [(n, r.id)], ring := none, window := 4096, session } y.queues }
        (Ctl.openPools a session t c).map fun rest =>
          let np := poolPages a r.len
          (Tab.set st { base := stackA r.base, pages := np, queue := q, limit := np } rest.1, rest.2)

def Ctl.modelProgs (c : Ctl) (job : Nat) : Tab Prog :=
  (((c.jobs.get? job).map (·.tiles)).getD []).foldl (fun p t =>
    let x := c.tile t
    Tab.set t ⟨x.imem, x.progLen, x.bases⟩ p) []

/-- The arguments of SERVE_MODEL_LOAD (Table 16-1). -/
def modelArgs (a : ModelArgs) : List Arg :=
  [Arg.num 2 (1 ≤ a.job && a.job < 65536)] ++ listArgs a.weights.length (a.weights.all (· < 4096))
    ++ listArgs a.pools.length (a.pools.all (· < 4096))
    ++ [Arg.num 2 (decide (a.logits < 4096)), Arg.num 8 (a.batchAddr % 64 = 0 && decide (a.batchAddr + 32832 ≤ 0xA000000)),
        Arg.num 8 (decide (a.bytesFixed < 2 ^ 64)), Arg.num 4 (a.kvBytes % 64 = 0 && 64 ≤ a.kvBytes && a.kvBytes ≤ 65536),
        Arg.num 8 (decide (a.stepsPerPass < 2 ^ 64)), Arg.num 4 (256 ≤ a.vocab && a.vocab ≤ 262144),
        Arg.num 4 (64 ≤ a.maxContext && a.maxContext ≤ 131072), Arg.num 1 (decide (a.prefillShare ≤ 50)),
        Arg.num 1 (decide (a.logitFmt < 2))]

def modelRefs (h : Hdr) (a : ModelArgs) : List Ref :=
  inlineBlocks h (modelArgs a) (listBlocks a.weights.length ++ listBlocks a.pools.length)

/-- The stack on which a region of this number lies. -/
def Ctl.stackOfRegion (c : Ctl) (n : Nat) : Nat := stackOf (((c.fabric.regions.get? n).map (·.base)).getD 0)

/-- The weight regions of a model. -/
def Ctl.weightRegions (c : Ctl) (a : ModelArgs) : List Region := a.weights.filterMap fun n => c.fabric.regions.get? n

/-- The reads of a model's weights by which its digest is made, with what the errors in them bring about (R214, R470). -/
def W.readWeights (a : ModelArgs) (w : W) : W :=
  (w.c.weightRegions a).foldl (fun (w : W) r => w.scan (stackOf r.base) (stackA r.base) r.len 0) w

/-- Whether a line of a model's weights is poisoned. -/
def W.weightsPoisoned (a : ModelArgs) (w : W) : Bool :=
  (w.c.weightRegions a).any fun r => w.b.mem.anyPoison (2 * 2 ^ 44 + r.base) r.len

/-- What refuses a model (R470): its job, its regions, the state of its Canvases and stacks, its tiles without a program. -/
def modelFail (x : Ctx) (a : ModelArgs) (c : Ctl) : Option (Nat × Nat) :=
  let args := modelArgs a
  match needServe c, jobCheck c x a.job 16 with
  | some e, _ => some e
  | none, some e => some e
  | none, none =>
    let progs := c.modelProgs a.job
    let stackIn := fun (r : Region) => decide (r.space = 2)
    let rowBytes := a.vocab * (if a.logitFmt = 0 then 4 else 2)
    let bad := (a.weights.findSome? fun n => modelRegion c x a.job n stackIn).orElse fun _ =>
      (a.pools.findSome? fun n => modelRegion c x a.job n fun r => stackIn r && decide (1 ≤ poolPages a r.len)).orElse fun _ =>
        modelRegion c x a.job a.logits fun r => decide (1024 * rowBytes ≤ r.len)
    let homes := a.pools.map c.stackOfRegion
    if c.serve.model.isSome then some (0x0204, 0)
    else if a.pools.isEmpty || !decide homes.Nodup then some (0x0102, offOf args (1 + (listArgs a.weights.length true).length))
    else
      match bad with
      | some e => some (e, if e = 0x0102 || e = 0x0107 then offOf args 1 else 0)
      | none =>
        let entries := (progs.keys.map fun t => 3 + t / 48) ++ (a.weights.map c.stackOfRegion ++ homes).map (7 + ·)
        if !entries.all c.usable then some (0x0205, 0)
        else if progs.isEmpty || progs.vals.any fun p => p.len = 0 then some (0x0204, 0)
        else none

/-- SERVE_MODEL_LOAD (R470, Table 16-1): the model, the digest of its weights, and its pools with their queues. Weights that are
poisoned, or that their read for the digest finds lost, are refused as a block that cannot be read. -/
def execServeModelLoad (h : Hdr) (a : ModelArgs) (s : State) : Host.Outcome State Fault Refusal :=
  mbxRow { op := 0x0600, roles := [0, 1] } h (modelArgs a) (modelRefs h a) s fun x w =>
    match modelFail x a w.c with
    | some (e, d) => .fail e d
    | none =>
      let w := w.readWeights a
      if w.weightsPoisoned a then .failWith 0x0105 (offOf (modelArgs a) 1) w
      else
        let digest := sha3 ((w.c.weightRegions a).flatMap fun r => w.b.mem.readBytes (2 * 2 ^ 44 + r.base) r.len)
        match Ctl.openPools a x.sid a.pools w.c with
        | none => .failWith 0x0301 0 w
        | some (pools, c) =>
          .ok (encode [.raw 8 digest])
            { w with c := (c.onServe fun y => { y with
                model := some { a := a, session := x.sid, digest := digest, progs := w.c.modelProgs a.job, pools := pools } }).newMaxResident }

/-- Unload the model (R499, R502): every sequence ends, every stretch closes, and the engine's queues stop. -/
def Ctl.unloadModel (c : Ctl) : Ctl :=
  match c.serve.model with
  | none => c
  | some m =>
    let c := c.endWhere (fun _ => true) 7
    let c := c.serve.contracts.keys.foldl (fun (c : Ctl) id => c.closeStretch id 3) c
    let c := m.pools.foldl (fun (c : Ctl) (x : Nat × Pool) => c.stopQueue x.1 x.2.queue) c
    (c.onServe fun y => { y with model := none, moving := [] }).poolShrunk

/-- SERVE_MODEL_UNLOAD (R502). -/
def execServeModelUnload (h : Hdr) (s : State) : Host.Outcome State Fault Refusal :=
  mbxRow { op := 0x0601, roles := [0, 1] } h [] [] s fun x w =>
    match w.c.serve.model with
    | none => .fail 0x0204 0
    | some m => if !x.owns m.a.job then .fail 0x0404 0 else .ok [] (w.on Ctl.unloadModel)

/-- SERVE_TOKENISER_LOAD (R479). A slot that an open contract uses has work in progress (R37). -/
def execServeTokeniserLoad (h : Hdr) (slot : Nat) (block : Ref) (table : BpTable) (s : State) : Host.Outcome State Fault Refusal :=
  let args := [Arg.num 1 (decide (slot < 4)), refArg s h block]
  mbxRow { op := 0x0602, roles := [0, 1] } h args [block] s fun _ w =>
    match needServe w.c with
    | some (e, d) => .fail e d
    | none =>
      let vocab := (w.c.serve.model.map (·.a.vocab)).getD 262144
      if !bpOk vocab table then badArg args 1
      else if w.c.serve.contracts.vals.any (·.a.tokeniser = slot) then .fail 0x0203 0
      else
        .ok (encode [.raw 8 (sha3 (refBlock s block))])
          (w.on (Ctl.onServe fun y => { y with tables := Tab.set slot table y.tables }))

/-- What refuses new page limits (R488): a limit above its pool, or live and set-aside pages that would not fit. -/
def poolLimitsFail (c : Ctl) (m : Model) (limits : List Nat) : Option Nat :=
  let live := fun (st : Nat) => (c.residents.flatMap (·.pages)).countP (·.1 = st)
  let total := m.pools.keys.foldl (fun n st => n + limits.getD st 0) 0
  let used := m.pools.keys.foldl (fun n st => n + live st) 0
  if m.pools.any fun y => decide (y.2.pages < limits.getD y.1 0) then some 0x0102
  else if m.pools.any (fun y => decide (limits.getD y.1 0 < live y.1)) || total < used + c.asideLeft then some 0x0302
  else none

/-- New page limits (R488): pages above them begin to move. -/
def W.setPoolLimits (limits : List Nat) (w : W) : W :=
  (List.range 8).foldl (fun (w : W) st => w.movePump st)
    (w.on (Ctl.updModel fun m => { m with pools := Tab.mapVals (fun st p => { p with limit := limits.getD st 0 }) m.pools }))

/-- Whether a page still lies above its pool's limit. -/
def Ctl.pagesToMove (c : Ctl) : Bool :=
  c.serve.model.any fun m => m.pools.any fun y => !(c.pagesAbove y.1 y.2.limit false).isEmpty

/-- The block of page limits that SERVE_POOL_SHRINK refers to: 4 bytes each, aligned to 8. -/
def limitsRefs (h : Hdr) (limits : List Nat) : List Ref := inlineBlocks h [Arg.ref (limits.length = 8)] [8 * limits.length + 4]

/-- SERVE_POOL_SHRINK (R488): page limits by stack. -/
def execServePoolShrink (h : Hdr) (limits : List Nat) (s : State) : Host.Outcome State Fault Refusal :=
  let args := [Arg.ref (limits.length = 8)]
  mbxRow { op := 0x0603, roles := [0, 1] } h args (limitsRefs h limits) s fun x w =>
    match needServe w.c, w.c.serve.model with
    | some (e, d), _ => .fail e d
    | none, none => .fail 0x0204 0
    | none, some m =>
      if !x.owns m.a.job then .fail 0x0404 0
      else
        match poolLimitsFail w.c m limits with
        | some e => .fail e (if e = 0x0102 then offOf args 0 else 0)
        | none =>
          let w := w.setPoolLimits limits
          if w.c.pagesToMove then .wait .pool w else .ok [] w

/-- A contract's fields with the defaults of STRETCH_TOKENS and STRETCH_TIME (Table 16-8): 0 stands for the default. -/
def stretchDefaults (a : ContractArgs) : ContractArgs :=
  { a with
    stretchTokens := if a.stretchTokens = 0 then 65536 else a.stretchTokens
    stretchTime := if a.stretchTime = 0 then 60000000000 else a.stretchTime }

/-- The arguments of SERVE_CONTRACT_CREATE (Table 16-8). -/
def contractArgs (a : ContractArgs) : List Arg :=
  let itl := fun (n : Nat) => Arg.num 8 (decide (n < 2 ^ 64))
  [Arg.num 4 (decide (a.id < 2 ^ 32)), Arg.blk 32 (a.key.length = 32), Arg.num 1 (decide (a.tokeniser < 4)),
    Arg.num 2 (decide (a.seqReserved ≤ 1024)), Arg.num 4 (64 ≤ a.ctxLimit && a.ctxLimit ≤ 131072),
    Arg.num 4 ((dec32 a.rateSeq.toNat).isFin && !(dec32 a.rateSeq.toNat).lt .zero), itl a.p50, itl a.p99, itl a.p999,
    Arg.num 1 (decide (a.floorStep < 16)), Arg.num 8 (1000000000 ≤ a.window && a.window ≤ 3600000000000),
    Arg.num 4 (1 ≤ a.stretchTokens && a.stretchTokens ≤ 2 ^ 24),
    Arg.num 8 (1000000000 ≤ a.stretchTime && a.stretchTime ≤ 3600000000000)]

/-- The engine with a contract entered, its pages set aside (R487). -/
def Ctl.withContract (a : ContractArgs) (session : Nat) (m : Model) (c : Ctl) : Ctl :=
  { c with serve := { c.serve with
    contracts := Tab.set a.id { a := a, session, job := m.a.job, key := a.key, setAside := a.seqReserved * ceilDiv a.ctxLimit 64 }
      c.serve.contracts } }

/-- What refuses a contract (R482, R487, R498): the Tally not READY, another's model, a context the model has not, a number in use
here or in the Tally, no room, or a floor that would not hold. -/
def contractFail (x : Ctx) (a : ContractArgs) (m : Model) (w : W) : Option (Nat × Nat) :=
  let c := w.c
  let d := c.withContract a x.sid m
  let supply := m.pools.vals.foldl (fun n (p : Pool) => n + p.limit) 0
  let asides := d.serve.contracts.vals.foldl (fun n (k : Contract) => n + k.setAside) 0
  if !c.usable 19 || c.stateOf 15 != 2 then some (0x0205, 0)
  else if !x.owns m.a.job then some (0x0404, 0)
  else if m.a.maxContext < a.ctxLimit then some (0x0102, offOf (contractArgs a) 4)
  else if c.serve.contracts.has a.id || w.ty.contracts.has a.id || c.serve.queue.any (·.contract = a.id) then some (0x0107, 16)
  else if 256 ≤ c.serve.contracts.length then some (0x0301, 0)
  else if 1024 < d.reservedSum || supply < asides || a.floorStep < c.power.cap || !d.floorsHold m.a d.reservedSum then some (0x0302, 0)
  else none

/-- SERVE_CONTRACT_CREATE (R482, R487, R492, R498). -/
def execServeContractCreate (h : Hdr) (a0 : ContractArgs) (s : State) : Host.Outcome State Fault Refusal :=
  let a := stretchDefaults a0
  mbxRow { op := 0x0610, roles := [0, 1] } h (contractArgs a) [] s fun x w =>
    match w.c.serve.model with
    | none => if w.c.usable 19 && w.c.stateOf 15 = 2 then .fail 0x0204 0 else .fail 0x0205 0
    | some m =>
      match contractFail x a m w with
      | some (e, d) => .fail e d
      | none =>
        let c := (w.c.withContract a x.sid m).newMaxResident
        let c := (c.updContract a.id fun k => { k with win := c.newWindow k 0 }).preemptFor 1024
        .ok (encode [.n 2 c.serve.maxResident]) (W.serveKick { w with c := c })

/-- SERVE_CONTRACT_KEY_SET (R492). -/
def execServeContractKeySet (h : Hdr) (id : Nat) (key : List Byte) (s : State) : Host.Outcome State Fault Refusal :=
  let args := [contractArg, Arg.blk 32 (key.length = 32)]
  mbxRow { op := 0x0611, roles := [0, 1] } h args [] s fun x w =>
    match contractFor w.c x id args with
    | .error r => r
    | .ok _ => .ok [] (w.on fun c => c.updContract id fun k => { k with key := key, oldKey := some (k.key, c.tick + 60000000000) })

/-- A contract begins to close (R502): it sets no page aside, and its queued requests are refused. -/
def Ctl.beginClose (id : Nat) (c : Ctl) : Ctl :=
  let c := c.updContract id fun k => { k with closing := true, setAside := 0 }
  (c.intake.filter (·.contract = id)).foldl (fun (c : Ctl) q =>
    match q.client with
    | .net .. =>
      (c.tspSend id q.stream 0x84 q.client (Ctl.refuseBytes 6)).onServe fun y => { y with seqs := y.seqs.filter (· != q) }
    | .mailbox .. => c.endSeq id q.stream 6) c

/-- SERVE_CONTRACT_CLOSE (R502): queued requests are refused at once; it returns once the final record is queued. -/
def execServeContractClose (h : Hdr) (id : Nat) (s : State) : Host.Outcome State Fault Refusal :=
  let args := [contractArg]
  mbxRow { op := 0x0612, roles := [0, 1] } h args [] s fun x w =>
    match contractFor w.c x id args with
    | .error r => r
    | .ok k =>
      if k.closing then .fail 0x0204 0
      else
        let w := (w.on (Ctl.beginClose id)).serveKick
        if (w.c.contract? id).isSome then .wait (.contract id) w else .ok [] w

/-- SERVE_CONTRACT_STATUS (Table 16-12). -/
def execServeContractStatus (h : Hdr) (id : Nat) (s : State) : Host.Outcome State Fault Refusal :=
  let args := [contractArg]
  mbxRow { op := 0x0613, roles := [0, 1], lock := true } h args [] s fun x w =>
    match contractFor w.c x id args with
    | .error r => r
    | .ok k =>
      let st := k.stretch.getD { digest := [] }
      .ok (encode [.n 2 (w.c.residents.filter (·.contract = id)).length, .n 2 (w.c.intake.filter (·.contract = id)).length,
        .n 4 k.setAside, .n 4 k.authFail, .n 4 k.malformed, .n 4 k.replayed, .n 1 (b2n k.stretch.isSome), .n 4 k.stretchSeq,
        .n 8 st.decode, .n 8 st.prefill]) w

/-- SERVE_WINDOW_READ (R495). -/
def execServeWindowRead (h : Hdr) (id seq : Nat) (s : State) : Host.Outcome State Fault Refusal :=
  let args := [contractArg, Arg.num 4 (decide (seq < 2 ^ 32))]
  mbxRow { op := 0x0614, roles := [0, 1, 3] } h args [] s fun x w =>
    match contractFor w.c x id args with
    | .error r => r
    | .ok k =>
      match k.records.find? (·.1 = seq) with
      | some r => .ok (encode [.raw 8 r.2]) w
      | none => badArg args 1

/-- SERVE_FLOOR_QUERY (R496): t(B, n) in ns rounded up, and the floor rounded down. -/
def execServeFloorQuery (h : Hdr) (b step ctx : Nat) (s : State) : Host.Outcome State Fault Refusal :=
  let args := [Arg.num 2 (1 ≤ b && b ≤ 1024), Arg.num 1 (decide (step < 16)), Arg.num 4 (64 ≤ ctx && ctx ≤ 131072)]
  mbxRow { op := 0x0615, roles := [0, 1] } h args [] s fun x w =>
    match w.c.serve.model with
    | none => .fail 0x0204 0
    | some m =>
      if !x.owns m.a.job then .fail 0x0404 0
      else if m.a.maxContext < ctx then badArg args 2
      else
        let t := iterTime m.a b (b * ctx) step
        .ok (encode [.n 8 (ceilDiv (t.num * 1000000000) t.den), .n 8 (if t.num = 0 then 0 else b * t.den / t.num)]) w

/-- The arguments of SERVE_REQUEST, and its reference where the payload is longer than 256 bytes. -/
def requestArgs (stream : Nat) (payload : List Byte) : List Arg :=
  let n := payload.length
  [contractArg, Arg.num 8 (decide (stream < 2 ^ 64)), if 256 < n then Arg.ref true else ⟨n, 8, if n < 48 then sFieldRange else 0⟩]
def requestRefs (h : Hdr) (stream : Nat) (payload : List Byte) : List Ref :=
  inlineBlocks h (requestArgs stream payload) (if 256 < payload.length then [payload.length] else [])

/-- SERVE_REQUEST (R502): the REQUEST payload without header or tag. -/
def execServeRequest (h : Hdr) (id stream : Nat) (payload : List Byte) (s : State) : Host.Outcome State Fault Refusal :=
  mbxRow { op := 0x0620, roles := [0, 1] } h (requestArgs stream payload) (requestRefs h stream payload) s fun x w =>
    match needServe w.c, contractFor w.c x id (requestArgs stream payload) with
    | some (e, d), _ => .fail e d
    | none, .error r => r
    | none, .ok _ =>
      match w.c.seq? id stream with
      | some q => .ok (encode [.raw 8 (w.c.repeatAnswer q).2]) w
      | none =>
        let r := if fieldAt payload 44 4 != 0 then .error 1
          else w.c.submit id stream (.mailbox x.n x.sid) payload (payload.drop 48) false
        match r with
        | .error e => .ok (encode [.raw 8 (Ctl.refuseBytes e)]) w
        | .ok c =>
          let w := W.serveKick { w with c := c }
          match w.c.seq? id stream with
          | some q => .ok (encode [.raw 8 (Ctl.acceptBytes (w.c.queuePos id stream) q)]) w
          | none => .ok [] w

/-- SERVE_CANCEL (R485). -/
def execServeCancel (h : Hdr) (id stream : Nat) (s : State) : Host.Outcome State Fault Refusal :=
  let args := [contractArg, Arg.num 8 (decide (stream < 2 ^ 64))]
  mbxRow { op := 0x0621, roles := [0, 1] } h args [] s fun x w =>
    match contractFor w.c x id args with
    | .error r => r
    | .ok _ =>
      if (w.c.seq? id stream).isNone then badArg args 1
      else .ok [] ((w.on (Ctl.cancelSeq id stream)).serveKick)

/-- SERVE_STATUS (Table 16-12). -/
def execServeStatus (h : Hdr) (s : State) : Host.Outcome State Fault Refusal :=
  mbxRow { op := 0x0622, roles := [0, 1], lock := true } h [] [] s fun _ w =>
    let c := w.c
    let pools := (c.serve.model.map (·.pools)).getD []
    .ok (encode [.n 2 c.residents.length, .n 2 c.intake.length, .n 2 c.serve.maxResident,
      .n 4 ((c.serve.model.map (·.iter)).getD 0), .n 1 c.power.step,
      .list ((List.range 8).map fun st => leBytes 4 (((Tab.get? st pools).map Ctl.poolFree).getD 0))]) w

end Sys2Proof.Machine
end

