-- ==== Sys2Proof/Machine/Smbus.lean ====
section
/-! DEFINITION. The management bus (R639, Table 23-6). -/

namespace Sys2Proof.Machine

open Sys2Proof

/-- Bytes 0 to 254 of Table 23-6. -/
def smbusBody : List Byte :=
  leBytes 4 0x30394B54 ++ asciiBytes "TK90-M640-OA    " ++ leBytes 8 Config.serial.toNat
    ++ leBytes 6 (Config.macAddress 0).toNat ++ leBytes 6 (Config.macAddress 1).toNat
    ++ leBytes 2 2400 ++ leBytes 2 2900 ++ List.replicate 211 0

/-- CHECK, which makes the record's bytes sum to 0 modulo 256. -/
def checkByte (l : List Byte) : Byte := 0 - l.foldl (· + ·) 0

/-- The record of Table 23-6. -/
def smbusRecord : List Byte := smbusBody ++ [checkByte smbusBody]

/-- SMBUS_WRITE (R639): the first byte sets the offset and any further one is not acknowledged. -/
def execSmbusWrite (data : List Byte) (s : State) : Host.Outcome State Fault Refusal :=
  standbyRow (decide (data != [])) s (W.on (Ctl.onPower fun p => { p with smbusOffset := (data.headD 0).toNat }))

/-- SMBUS_READ (R639): bytes of the record from the offset, wrapping at 256, are put on the bus. -/
def execSmbusRead (count : Nat) (s : State) : Host.Outcome State Fault Refusal :=
  standbyRow true s (W.on (Ctl.onPower fun p => { p with
    smbusData := (List.range count).map fun i => smbusRecord.getD ((p.smbusOffset + i) % 256) 0 }))

end Sys2Proof.Machine
end

