-- ==== Sys2Proof/Machine/Tally.lean ====
section
/-! DEFINITION. The sealed Tally: its meter, pulses, commits, record checks, log, self-test, seal and readout (chapter 22).
-/

namespace Sys2Proof.Machine

open Sys2Proof

namespace TCount

def add (n : Nat) (t : TCount) : TCount := { t with pending := t.pending + n }
/-- Commit the pending increment (R616). -/
def commit (t : TCount) : TCount := { committed := t.committed + t.pending, pending := 0 }
/-- The pending increment is lost (R625). -/
def lose (t : TCount) : TCount := { t with pending := 0 }
def total (t : TCount) : Nat := t.committed + t.pending

end TCount

namespace Tally

/-- The counters all changed by one function. -/
def mapCounts (f : TCount → TCount) (t : Tally) : Tally :=
  { t with
    energy := f t.energy
    pulses := f t.pulses
    accepted := f t.accepted
    decode := f t.decode
    prefill := f t.prefill
    refused := t.refused.map fun (x : Nat × TCount) => (x.1, f x.2)
    dropped := f t.dropped
    contracts := t.contracts.map fun (x : Nat × TContract) => (x.1, { x.2 with decode := f x.2.decode, prefill := f x.2.prefill }) }

/-- A log entry (R623): held in RAM during an inhibit, up to 4,096; the log keeps the last 262,144. -/
def note (kind detail : Nat) (t : Tally) : Tally :=
  let e : TLog := ⟨t.logSeq, kind, t.tMs, t.energy.total, detail⟩
  if !t.inhibit then { t with log := lastN 262144 (t.log ++ [e]), logSeq := t.logSeq + 1 }
  else if t.held.length < 4096 then { t with held := t.held ++ [e], logSeq := t.logSeq + 1 }
  else { t with dropped := t.dropped.add 1 }

/-- The seal alarm latches (R628): source 1 the mesh, 2 the current sensors, 3 data loss. -/
def seal_ (src : Nat) (t : Tally) : Tally := if t.sealAlarm then t else { t with sealAlarm := true }.note 0x09 src

/-- The mesh opens or shorts: with power the alarm latches at once, without it at the next power-up (R628). -/
def meshBreach (t : Tally) : Tally := if t.powered then t.seal_ 1 else { t with meshOpen := true }

/-- The commit of R616; none while writes are inhibited (R624). -/
def commit (t : Tally) : Tally := if t.inhibit then t else t.mapCounts TCount.commit

/-! Metering (R611 to R614, R628). -/

/-- One sample of 1 µs: input voltage in mV, shunt current and return current in mA. mV times mA times 1 µs is 10^-12 J. -/
def sample (mV mA mReturn : Nat) (t : Tally) : Tally :=
  let usec := t.usec + 1
  let t := { t with usec := usec % 1000, tMs := t.tMs + usec / 1000, pulseAge := if t.pulseOn then t.pulseAge + 1 else t.pulseAge }
  let old := t.energy.total
  let frac := t.frac + if 20 ≤ mA then mV * mA else 0
  let t := { t with frac := frac % 1000000000, energy := t.energy.add (frac / 1000000000) }
  let n := t.energy.total / 360000 - old / 360000
  let t := if n = 0 then t else { t with pulses := t.pulses.add n, pulseOn := true, pulseAge := 0 }
  let gap := if mA ≤ mReturn then mReturn - mA else mA - mReturn
  let apart := if 10000 < mA && mA < 20 * gap then t.apart + 1 else 0
  if apart = 10000000 then { t with apart := 0 }.seal_ 2 else { t with apart }

/-! The delivery-record path (R617 to R622). -/

/-- A refusal: counted, and logged at most once per code per second (R619). -/
def refuse (code : Nat) (t : Tally) : Tally :=
  let t := { t with refused := Tab.upd code {} (TCount.add 1) t.refused }
  if (t.loggedAt.get? code).all fun m => decide (m + 1000 ≤ t.tMs) then { t with loggedAt := Tab.set code t.tMs t.loggedAt }.note 0x04 code
  else t

/-- The first failed check of Table 22-4 on the body of a record frame. A Tally bound to another module accepts none (R631). -/
def recordCheck (rsvd : Bool) (body : List Byte) (t : Tally) : Option Nat :=
  let rec_ := body.take 128
  let seq := fieldAt rec_ 4 4
  match t.enrolled with
  | none => some 2
  | some key =>
    if t.selfTestFail || t.foreign then some 2
    else if !Config.mldsaVerify key (sha3 rec_) (body.drop 128) then some 3
    else if !rsvd || bytesAt rec_ 41 3 != List.replicate 3 0 || bytesAt rec_ 48 16 != List.replicate 16 0 || 4 < fieldAt rec_ 40 1
        || 2 ^ 24 < fieldAt rec_ 8 8 then some 4
    else if t.sealAlarm then some 5
    else
      match t.contracts.get? (fieldAt rec_ 0 4) with
      | some k => if k.closed then some 6 else if seq < k.next then some 7 else if k.next < seq then some 8 else none
      | none => if 65536 ≤ t.contracts.length then some 9 else none

/-- An accepted record: its tokens, NEXT_SEQ and closing, as one action (R615, R619, R620). -/
def accept (rec_ : List Byte) (t : Tally) : Tally :=
  let id := fieldAt rec_ 0 4
  let seq := fieldAt rec_ 4 4
  let d := fieldAt rec_ 8 8
  let p := fieldAt rec_ 16 8
  let shut : Bool := fieldAt rec_ 40 1 = 2
  let fresh := !t.contracts.has id
  let k := t.contracts.getD id { first := seq }
  let t := { t with
    accepted := t.accepted.add 1
    decode := t.decode.add d
    prefill := t.prefill.add p
    contracts := Tab.set id { k with closed := shut, next := seq + 1, decode := k.decode.add d, prefill := k.prefill.add p } t.contracts }
  let t := if fresh then t.note 0x05 id else t
  if shut then t.note 0x06 id else t

/-- A certificate (R598): kind, the public key, and whether the signer's key verifies it. -/
def certOk (kind : Nat) (signer cert : List Byte) : Bool :=
  fieldAt cert 12 1 = kind && Config.mldsaVerify signer (sha3 (bytesAt cert 0 2608)) (bytesAt cert 2608 4627)

/-- An enrolment (R618, R631). -/
def enrol (body : List Byte) (t : Tally) : Tally :=
  let a := body.take 7235
  let b := body.drop 7235
  let serial := fieldAt a 0 8
  let key := bytesAt b 16 2592
  if body.length = 14470 && certOk 0 Config.rootKey a && certOk 1 (bytesAt a 16 2592) b && fieldAt b 0 8 = serial
      && (t.boundSerial = 0 || t.boundSerial = serial) then
    let t := { t with boundSerial := serial }
    if t.enrolled = some key then t
    else { t with enrolled := some key, keyEpoch := t.keyEpoch + 1 }.note 0x03 (t.keyEpoch + 1)
  else t

/-- A frame (Table 22-3), judged by its KIND. -/
def frame (f : List Byte) (t : Tally) : Tally :=
  let n := f.length - 12
  let body := (f.drop 8).take n
  let kind := fieldAt f 0 1
  let rsvd : Bool := fieldAt f 1 3 = 0
  if f.length < 12 || crc32c (f.take (8 + n)) != fieldAt f (8 + n) 4 || fieldAt f 4 4 != n || !(kind = 1 || kind = 2)
      || (kind = 1 && n != 4755) then t.refuse 1
  else if kind = 2 then (if rsvd then t.enrol body else t)
  else
    match t.recordCheck rsvd body with
    | some code => t.refuse code
    | none => t.accept (body.take 128)

/-! Temperature, power and self-test (R616, R624, R625, R627). -/

/-- A reading of the Tally's own sensor, in 0.1 °C, once a second. -/
def tempRead (v : Int) (t : Tally) : Tally :=
  let t := { t with temp := v }
  if v < -100 || 700 < v then
    if t.inhibit then { t with ok := 0 } else { t with inhibit := true, ok := 0 }.note 0x07 0
  else if -80 ≤ v && v ≤ 680 then
    if t.inhibit && 10 ≤ t.ok + 1 then
      ({ t with inhibit := false, ok := 0, log := lastN 262144 (t.log ++ t.held), held := [] }.note 0x08 0).commit
    else { t with ok := t.ok + 1 }
  else { t with ok := 0 }

/-- Power-up (R625, R627, R628). -/
def powerUp (k : TallyChecks) (t : Tally) : Tally :=
  let bad := !(k.firmware && k.adc && k.nvm && k.oscillator)
  let t := { t with powered := true, powerOn := t.powerOn + 1, selfTestFail := bad, apart := 0, ok := 0 }
  let t := if k.ram then t else { (t.mapCounts TCount.lose) with held := [], frac := 0 }
  let t := t.note 0x01 0
  let t := if k.ram then t else (t.note 0x0B 0).seal_ 3
  let t := if bad then t.note 0x0A 0 else t
  if k.mesh && !t.meshOpen then t else t.seal_ 1

/-- Loss of the input: logged and committed on the hold-up capacitor; the pulse pin goes inactive (R614, R616). -/
def inputLost (t : Tally) : Tally := { (t.note 0x02 0).commit with powered := false, pulseOn := false, pulseAge := 0 }

/-! Readout (R629). -/

def countBytes (c : TCount) : List Byte := leBytes 8 c.committed ++ leBytes 8 c.pending

def pendingAny (t : Tally) : Bool :=
  ([t.energy, t.pulses, t.accepted, t.decode, t.prefill, t.dropped] ++ t.refused.vals).any fun c => c.pending != 0

def flags (t : Tally) : Nat := b2n t.sealAlarm + 2 * b2n t.selfTestFail + 4 * b2n t.inhibit + 8 * b2n t.pendingAny

def logBytes (e : TLog) : List Byte :=
  leBytes 8 e.seq ++ leBytes 1 e.kind ++ leBytes 3 0 ++ leBytes 8 e.tMs ++ leBytes 8 e.energy ++ leBytes 4 e.detail

/-- Content of a reading: the counters, a contract (state 0 unseen, 1 open, 2 closed), or up to 16 log entries. -/
def content (kind arg : Nat) (t : Tally) : List Byte :=
  match kind with
  | 1 => ([t.energy, t.pulses, t.accepted, t.decode, t.prefill] ++ (List.range 9).map (fun i => t.refused.getD (i + 1) {}) ++ [t.dropped]).flatMap
      countBytes
  | 2 =>
    let k := t.contracts.get? arg
    let x := k.getD {}
    encodeAt 0 [.n 4 arg, .n 1 (match k with
        | none => 0
        | some y => if y.closed then 2 else 1), .n 4 x.first, .n 4 x.next, .n 8 x.decode.committed, .n 8 x.prefill.committed]
  | _ => ((t.log.filter fun e => arg ≤ e.seq).take 16).flatMap logBytes

/-- A signed reading (Table 22-6). -/
def readingOf (kind arg : Nat) (nonce : List Byte) (t : Tally) : List Byte :=
  signed_ 2 (asciiBytes "TKTY" ++ leBytes 1 1 ++ leBytes 1 kind ++ leBytes 1 t.flags ++ leBytes 1 0 ++ leBytes 8 Config.tallySerial.toNat
    ++ leBytes 4 Config.tallySealNumber.toNat ++ leBytes 4 t.keyEpoch ++ leBytes 8 t.boundSerial ++ leBytes 8 t.tMs ++ leBytes 4 t.powerOn
    ++ leBytes 4 0 ++ fixedLen 32 nonce ++ fixedLen 64 Config.tallyFwChecksum ++ t.content kind arg)

end Tally

/-! Rows. -/

/-- An event of the Tally: nothing else of the module acts on it, and the RC follows its entry over the readout path
(R571). -/
def tallyRow (ok : Bool) (s : State) (f : Tally → Tally) : Host.Outcome State Fault Refusal :=
  let t := f s.tally
  ret ok ({ s with tally := t }.act (W.on fun c => if c.rc.run = 3 then c.tallyEntry t else c))

/-- An event that needs the Tally powered. -/
def poweredRow (ok : Bool) (s : State) (f : Tally → Tally) : Host.Outcome State Fault Refusal :=
  tallyRow ok s fun t => if t.powered then f t else t

/-- TALLY_RECORD_FRAME (R617, R619). -/
def execTallyRecordFrame (frame : List Byte) (s : State) : Host.Outcome State Fault Refusal := poweredRow true s (Tally.frame frame)

/-- ENROLMENT (R618). -/
def execTallyEnrolment (frame : List Byte) (s : State) : Host.Outcome State Fault Refusal := poweredRow true s (Tally.frame frame)

/-- TALLY_READOUT (R629). -/
def execTallyReadout (kind arg : Nat) (nonce : List Byte) (s : State) : Host.Outcome State Fault Refusal :=
  poweredRow (1 ≤ kind && kind ≤ 3) s fun t => { t with reading := t.readingOf kind arg nonce }

/-- TALLY_SAMPLE (R611 to R614, R628). -/
def execTallySample (mV mA mReturn : Nat) (s : State) : Host.Outcome State Fault Refusal := poweredRow true s (Tally.sample mV mA mReturn)

/-- ENERGY_PULSE_END (R614): 20 ms, within 1 ms. -/
def execEnergyPulseEnd (s : State) : Host.Outcome State Fault Refusal :=
  poweredRow true s fun t => if 19000 ≤ t.pulseAge then { t with pulseOn := false, pulseAge := 0 } else t

/-- TALLY_COMMIT (R616). -/
def execTallyCommit (s : State) : Host.Outcome State Fault Refusal := poweredRow true s Tally.commit

/-- TALLY_TEMP_READ (R624). -/
def execTallyTempRead (temp : Int) (s : State) : Host.Outcome State Fault Refusal := poweredRow true s (Tally.tempRead temp)

/-- TALLY_POWER_UP (R627). -/
def execTallyPowerUp (checks : TallyChecks) (s : State) : Host.Outcome State Fault Refusal :=
  tallyRow true s fun t => if t.powered then t else t.powerUp checks

/-- TALLY_INPUT_LOST (R616). -/
def execTallyInputLost (s : State) : Host.Outcome State Fault Refusal := poweredRow true s Tally.inputLost

/-- TALLY_MESH_BREACH (R628): whether or not the Tally is powered. -/
def execTallyMeshBreach (s : State) : Host.Outcome State Fault Refusal := tallyRow true s Tally.meshBreach

/-! Commands (Table 22-7). -/

/-- TALLY_STATUS. -/
def execTallyStatus (h : Hdr) (s : State) : Host.Outcome State Fault Refusal :=
  mbxRow { op := 0x0900, roles := [0, 1, 3], lock := true, gesso := true } h [] [] s fun _ w =>
    .ok (encode [.n 1 w.ty.flags, .n 4 Config.tallySealNumber.toNat, .n 2 (twos 16 w.ty.temp), .n 2 w.ty.held.length]) w

/-- TALLY_CERT_READ. -/
def execTallyCertRead (h : Hdr) (offset len : Nat) (s : State) : Host.Outcome State Fault Refusal :=
  mbxRow { op := 0x0901, any := true, lock := true, gesso := true } h (pieceArgs s.ctl h.pair 7235 offset len 56) [] s fun _ w =>
    .ok (encode [.raw 1 (bytesAt Config.tallyCertificate offset len)]) w

/-- The readings kept for a pair: of its session, or after gesso of the pair itself (R630). -/
def Pair.kept (p : Pair) : List (Nat × List Byte) :=
  match p.session with
  | some t => t.readings
  | none => p.readings

def Pair.keep (id : Nat) (b : List Byte) (p : Pair) : Pair :=
  match p.session with
  | some t => { p with session := some { t with readings := lastN 16 (t.readings ++ [(id, b)]) } }
  | none => { p with readings := lastN 16 (p.readings ++ [(id, b)]) }

/-- TALLY_READ: a TENANT reads only its own contracts. -/
def execTallyRead (h : Hdr) (kind arg : Nat) (nonce : List Byte) (s : State) : Host.Outcome State Fault Refusal :=
  mbxRow { op := 0x0902, roles := [0, 1, 3], lock := true, gesso := true } h
    [Arg.num 1 (1 ≤ kind && kind ≤ 3), Arg.num 8 (arg < 2 ^ 64 && (kind != 2 || arg < 2 ^ 32)), Arg.blk 32 (nonce.length = 32)] [] s fun x w =>
    if x.role = 1 && kind != 2 then .fail 0x0403 0
    else if x.role = 1 && !((w.c.serve.contracts.get? arg).any fun k => x.owns k.job) then .fail 0x0404 0
    else if !w.ty.powered then .fail 0x0205 0
    else
      let id := w.c.rc.nextReading
      let b := w.ty.readingOf kind arg nonce
      .ok (encode [.n 4 id, .n 2 b.length]) (w.on fun c =>
        (c.onRc fun r => { r with nextReading := nextId r.nextReading }).updPair x.n (Pair.keep id b))

/-- TALLY_READING_FETCH: a reading of this session. -/
def execTallyReadingFetch (h : Hdr) (id offset len : Nat) (s : State) : Host.Outcome State Fault Refusal :=
  let own := ((s.ctl.pair h.pair).kept.find? (·.1 = id)).map (·.2)
  let r := own.getD []
  mbxRow { op := 0x0903, roles := [0, 1, 3], lock := true, gesso := true } h
    (Arg.num 4 own.isSome :: pieceArgs s.ctl h.pair r.length offset len 56) [] s fun _ w => .ok (encode [.raw 1 (bytesAt r offset len)]) w

end Sys2Proof.Machine
end

