-- ==== Sys2Proof/Machine/Teardown.lean ====
section
/-! DEFINITION. The teardown of a job (R430, R533, Table 14-7). -/

namespace Sys2Proof.Machine

open Sys2Proof

/-- Steps 2 and 3 but for the channels: routing table, tiles, Palette queues, collectives, channels of pipelines, spares and
the model of a job. -/
def Ctl.ceaseJob (job : Nat) (c : Ctl) : Ctl :=
  let c := c.onRouter fun r => { r with
    tables := Tab.del job r.tables, pend := r.pend.filter fun (x : Nat × RouteTable) => x.2.job != job
    broken := r.broken.filter fun (x : Nat × Nat × Nat) => x.1 != job }
  let tiles := ((c.jobs.get? job).map (·.tiles)).getD []
  let c := tiles.foldl (fun (c : Ctl) n => if (c.tile n).st = .running then c.stopTile n else c) c
  let c := tiles.foldl (fun (c : Ctl) n => c.updTile n Tile.emptyFeeders) c
  let c := if c.serve.model.any fun m => decide (m.a.job = job) then c.unloadModel else c
  let c := (c.onServe fun s => { s with
    contracts := s.contracts.map fun (x : Nat × Contract) => if x.2.job = job then (x.1, { x.2 with closing := true }) else x }).closeContracts
  let c := c.stackTab.foldl (fun (c : Ctl) (x : Nat × Stack) =>
    (x.2.queues.filter fun (q : Nat × PalQueue) => q.2.job = job).foldl (fun (c : Ctl) (q : Nat × PalQueue) => c.stopQueue x.1 q.1) c) c
  let c := (c.colls.colls.filter fun (x : Nat × Coll) => x.2.a.job = job).foldl (fun (c : Ctl) (x : Nat × Coll) => c.dropColl x.1) c
  let c := (c.colls.pipes.filter fun (x : Nat × Pipe) => x.2.a.job = job).foldl (fun (c : Ctl) (x : Nat × Pipe) => c.dropPipe x.1) c
  let c := if (c.colls.spares.get? job).any (·.running) then c.fillEnd job 2 else c
  let c := c.onColls fun z => { z with spares := Tab.del job z.spares }
  c.onFabric fun f => { f with maps := Tab.del job f.maps }

/-- The channels of a job are destroyed (R338). -/
def W.dropChans (job : Nat) (w : W) : W :=
  (w.c.chans.filter fun (x : Nat × DmaChan) => x.2.job = job).foldl (fun (w : W) (x : Nat × DmaChan) =>
    ((if x.2.closing then w else w.on (Ctl.closeChan x.1)).discardRecords x.1 (x.2.begun.length + 1)).on (Ctl.settleChan x.1)) w

/-- The transactions of a job complete locally with JOB_TORN_DOWN, and their tags linger. -/
def W.dropTxns (job : Nat) (w : W) : W :=
  (w.c.fabric.txns.filter fun (x : Nat × Txn) => x.2.pkt.job = job).foldl (fun (w : W) (x : Nat × Txn) =>
    (w.on (Ctl.retire x.1 false)).done x.1 x.2 (.error 0x050C)) w

/-- Steps 2 to 5 of Table 14-7. -/
def W.tearDown (job : Nat) (w : W) : W :=
  let w := w.on fun c => { c with jobs := c.jobs.map fun (x : Nat × Job) => if x.1 = job then (x.1, { x.2 with ending := true }) else x }
  let w := ((w.on (Ctl.ceaseJob job)).dropChans job).dropTxns job
  w.on fun c => (c.fabric.regions.filter fun (x : Nat × Region) => x.2.job = job && x.2.use = .plain).foldl
    (fun (c : Ctl) (x : Nat × Region) => c.dropRegion x.1) c

/-- JOB_TEARDOWN (R430). A job that is being torn down takes no second one. -/
def execJobTeardown (h : Hdr) (job : Nat) (s : State) : Host.Outcome State Fault Refusal :=
  let args := [Arg.num 2 (1 ≤ job && job < 65536)]
  mbxRow { op := 0x05F0, roles := [2], lock := true } h args [] s fun _ w =>
    if !w.c.jobLive job then badArg args 0
    else if w.c.jobEnding job then .fail 0x0206 0
    else .wait (.job job false) (w.tearDown job)

/-- JOB_DESTROY (R533): a job that has been torn down can be destroyed. -/
def execJobDestroy (h : Hdr) (job : Nat) (s : State) : Host.Outcome State Fault Refusal :=
  let args := [Arg.num 2 (1 ≤ job && job < 65536)]
  mbxRow { op := 0x05E2, roles := [0], lock := true } h args [] s fun _ w =>
    if !w.c.jobLive job then badArg args 0
    else if w.c.jobEnding job then
      if w.c.rc.waits.any fun x => decide (x.what = .job job true) then .fail 0x0206 0 else .wait (.job job true) w
    else .wait (.job job true) (w.tearDown job)

/-- Whether steps 3 to 6 still have something to wait for: channels, queues, transactions, lingering tags, admitted
requests, a write stop. -/
def Ctl.jobBusy (job : Nat) (c : Ctl) : Bool :=
  (c.chans.vals.any fun x => decide (x.job = job)) || (c.stackTab.vals.any fun s => s.queues.vals.any fun q => decide (q.job = job))
    || (c.fabric.txns.vals.any fun t => decide (t.pkt.job = job)) || (c.fabric.lingering.vals.any fun l => decide (l.job = job))
    || (c.fabric.regions.vals.any fun r => decide (r.job = job) && (c.regionBusy r || (r.space = 2 && (c.stack (stackOf r.base)).band = 4)))

/-- JOB_TEARDOWN_COMPLETE (Table 14-7, steps 5 to 7): the regions are zeros and their numbers free, the job's flows close,
the completion queues go, and the teardown returns; a JOB_DESTROY then resets the tiles and frees them. -/
def execJobTeardownComplete (job : Nat) (s : State) : Host.Outcome State Fault Refusal :=
  ret (1 ≤ job && job < 65536) (s.act fun w =>
    if !w.c.jobEnding job || w.c.jobBusy job || !(w.c.rc.waits.any fun x => decide (x.what = .job job false) || decide (x.what = .job job true)) then w
    else
      let w := (w.c.fabric.regions.filter fun (x : Nat × Region) => x.2.job = job).foldl (fun (w : W) (x : Nat × Region) =>
        let w := if x.2.space = 3 then w else { w with b := w.b.op (.zero (x.2.space * 2 ^ 44 + x.2.base) x.2.len) }
        w.on (Ctl.freeRegion x.1)) w
      let w := w.on fun c =>
        ({ c.closeFlows job with cqs := c.cqs.filter fun (x : Nat × DmaCq) => x.2.job != job }.event 0x0502 (encodeEv [.n 2 job, .n 2 0xFFFF])
          { owner := true, fabric := true }).finishOne (.job job false) 0 []
      if w.c.rc.waits.any fun x => decide (x.what = .job job true) then
        let tiles := ((w.c.jobs.get? job).map (·.tiles)).getD []
        (tiles.foldl (fun (w : W) n => w.resetTile n) w).on fun c =>
          ({ c with jobs := Tab.del job c.jobs }).finishOne (.job job true) 0 []
      else w)

end Sys2Proof.Machine
end

