-- ==== Sys2Proof/Machine/Telemetry.lean ====
section
/-! DEFINITION. The telemetry commands (R534, R592, Tables 17-15, 17-16, 20-6 and 20-7). -/

namespace Sys2Proof.Machine

/-- Tags of a requester: how many it has (Table 9-4). -/
def unitTags (u : Nat) : Nat := [49152, 8192, 4096, 2048, 2048].getD u 0

namespace Ctl

/-- A tile's counters. -/
def telemTile (n : Nat) (c : Ctl) : List Nat :=
  let t := c.tile n
  [t.convOverflow, t.nanOut, t.accOverflow, t.timeouts, t.late, t.duplicates]

/-- A stack channel's counters. -/
def telemChan (i : Nat) (c : Ctl) : List Nat :=
  let x := (c.stack (i / 128)).chan (i % 128)
  [x.ce, x.due, x.dueRec, x.poisonWritten, x.poisonSeen, x.poisonMerge] ++ (List.range 20).map fun k => x.pinRec.getD k 0

def telemPalette (i : Nat) (c : Ctl) : List Nat :=
  let y := c.stack i
  [y.cmdsDone, y.cmdsFailed, y.nonfinite, y.poisonOut, y.rejects, y.badHead]

/-- A requester's counters, and its tags free, in flight and lingering. -/
def telemFabric (u : Nat) (c : Ctl) : List Nat :=
  let fly := (c.fabric.txns.filter fun x => tagUnit x.1 = u).length
  let linger := (c.fabric.lingering.filter fun x => tagUnit x.1 = u).length
  [c.fabric.reqTimeouts.getD u 0, c.fabric.reqLate.getD u 0, c.fabric.reqDup.getD u 0, unitTags u - fly - linger, fly, linger]

/-- A link direction: per virtual channel the sender's credits and the receiver's free slots, then DUPLICATES. Of an
optical link, numbered 32 + port (log 13), direction 0 is the transmit direction; what the peer alone knows is a free
value. -/
def telemLink (i : Nat) (c : Ctl) : List Nat × Ctl :=
  let l := i / 2
  if l < 17 then
    let y := (c.link l).dir (i % 2)
    ((List.range 4).flatMap (fun v => [d2dB - y.tx.used.getD v 0, d2dB]) ++ [y.rx.dup], c)
  else
    let x := c.port (l - 32)
    let free := fun v => hopB v - slotsHeld x v
    let (u, c) := c.fresh
    if i % 2 = 0 then ((List.range 8).flatMap (fun v => [hopB v - x.tx.used.getD v 0, u % 65536]) ++ [u], c)
    else ((List.range 8).flatMap (fun v => [u % 65536, free v]) ++ [x.rx.dup], c)

end Ctl

/-- The INDEX range of a KIND (Table 17-16). -/
def telemIndexOk (kind i : Nat) : Bool :=
  match kind with
  | 1 => decide (i < 192)
  | 2 => decide (i < 1024)
  | 3 => decide (i < 8)
  | 4 => decide (i < 5)
  | 5 => decide (i < 34) || (64 ≤ i && i < 128)
  | _ => false

/-- TELEM_READ (R534). A TENANT reads tiles of its own jobs; FABRIC_ADMIN reads kinds 0x04 and 0x05. -/
def execTelemRead (h : Hdr) (kind index : Nat) (s : State) : Host.Outcome State Fault Refusal :=
  let args := [Arg.num 1 (decide (kind < 256)), Arg.num 2 (decide (index < 65536))]
  mbxRow { op := 0x0700, roles := [0, 1, 2], lock := true } h args [] s fun x w =>
    if (x.role = 1 && kind != 1) || (x.role = 2 && kind != 4 && kind != 5) then .fail 0x0403 0
    else if !(1 ≤ kind && kind ≤ 5) then badArg args 0
    else if !telemIndexOk kind index then badArg args 1
    else if x.role = 1 && !(w.c.jobOfTile index).any x.owns then .fail 0x0404 0
    else
      let r := match kind with
        | 1 => (w.c.telemTile index, w.c)
        | 2 => (w.c.telemChan index, w.c)
        | 3 => (w.c.telemPalette index, w.c)
        | 4 => (w.c.telemFabric index, w.c)
        | _ => w.c.telemLink index
      .ok (encode (r.1.map fun v => .n 8 v)) { w with c := r.2 }

/-- The bytes of Table 20-6. -/
def sensorBytes (p : Power) : List Byte :=
  leBytes 4 p.roundSeq ++ leBytes 4 0 ++ leBytes 8 p.roundStart ++ leBytes 8 (ofBitList (p.readings.keys.filter (· < 64)))
    ++ (List.range 64).flatMap fun k => leBytes 2 (twos 16 (p.readings.getD k (-32768)))

/-- TELEM_SENSORS (Table 20-6). -/
def execTelemSensors (h : Hdr) (s : State) : Host.Outcome State Fault Refusal :=
  mbxRow { op := 0x0701, roles := [0, 2], lock := true } h [] [] s fun _ w => .ok (sensorBytes w.c.power) w

/-- The bytes of Table 20-7. -/
def powerBytes (p : Power) : List Byte :=
  leBytes 1 p.step ++ leBytes 1 p.cap ++ leBytes 1 p.downCause ++ leBytes 1 p.quiet ++ leBytes 2 p.vcoreSet
    ++ leBytes 2 (twos 16 (p.readings.getD 47 (-32768))) ++ leBytes 4 p.roundSeq ++ leBytes 2 p.pIn ++ leBytes 1 p.rails
    ++ leBytes 1 (b2n p.coolantLow + 2 * b2n (!p.tripped.isEmpty) + 4 * b2n p.inputFault) ++ leBytes 8 p.roundEnd ++ leBytes 8 p.foldbackTicks
    ++ leBytes 4 p.stepDowns ++ leBytes 4 p.stepUps

/-- TELEM_POWER (Table 20-7). -/
def execTelemPower (h : Hdr) (s : State) : Host.Outcome State Fault Refusal :=
  mbxRow { op := 0x0702, roles := [0, 1], lock := true } h [] [] s fun _ w => .ok (powerBytes w.c.power) w

end Sys2Proof.Machine
end

