-- ==== Sys2Proof/Machine/Dispatch.lean ====
section
/-! DEFINITION. One arm per command: its meaning. -/

namespace Sys2Proof.Machine

def exec (i : Instr) (s : State) : Host.Outcome State Fault Refusal :=
  match i with
  | .tileLoad t => Sys2Proof.Machine.execTileLoad t s
  | .tileStore t => Sys2Proof.Machine.execTileStore t s
  | .tileFeed t => Sys2Proof.Machine.execTileFeed t s
  | .tileHold t => Sys2Proof.Machine.execTileHold t s
  | .tileMma t => Sys2Proof.Machine.execTileMma t s
  | .tileConv t => Sys2Proof.Machine.execTileConv t s
  | .tileEw t => Sys2Proof.Machine.execTileEw t s
  | .glazeDefine t => Sys2Proof.Machine.execGlazeDefine t s
  | .glazeApply t => Sys2Proof.Machine.execGlazeApply t s
  | .tileSend t => Sys2Proof.Machine.execTileSend t s
  | .tileRecv t => Sys2Proof.Machine.execTileRecv t s
  | .tileWait t => Sys2Proof.Machine.execTileWait t s
  | .tileSignal t => Sys2Proof.Machine.execTileSignal t s
  | .tileFence t => Sys2Proof.Machine.execTileFence t s
  | .tileMark t => Sys2Proof.Machine.execTileMark t s
  | .tileReplay t => Sys2Proof.Machine.execTileReplay t s
  | .tileLoop t => Sys2Proof.Machine.execTileLoop t s
  | .endProgram t => Sys2Proof.Machine.execEndProgram t s
  | .tileDone tile => Sys2Proof.Machine.execTileDone tile s
  | .instructionComplete tile idx => Sys2Proof.Machine.execInstructionComplete tile idx s
  | .waitTimeoutExpire tile => Sys2Proof.Machine.execWaitTimeoutExpire tile s
  | .arrayStep tile => Sys2Proof.Machine.execArrayStep tile s
  | .sysVersion h minMajor minMinor maxMajor maxMinor => Sys2Proof.Machine.execSysVersion h minMajor minMinor maxMajor maxMinor s
  | .sysSessionChallenge h => Sys2Proof.Machine.execSysSessionChallenge h s
  | .sysSessionOpen h cred role nonce proof => Sys2Proof.Machine.execSysSessionOpen h cred role nonce proof s
  | .sysSessionClose h => Sys2Proof.Machine.execSysSessionClose h s
  | .sysIdentify h => Sys2Proof.Machine.execSysIdentify h s
  | .sysReadiness h => Sys2Proof.Machine.execSysReadiness h s
  | .sysPairRelease h => Sys2Proof.Machine.execSysPairRelease h s
  | .sysStageWrite h region key offset data => Sys2Proof.Machine.execSysStageWrite h region key offset data s
  | .sysEventLogRead h first count => Sys2Proof.Machine.execSysEventLogRead h first count s
  | .sysCredCreate h cred role key jobs access => Sys2Proof.Machine.execSysCredCreate h cred role key jobs access s
  | .sysCredRevoke h cred => Sys2Proof.Machine.execSysCredRevoke h cred s
  | .sysCredList h first count => Sys2Proof.Machine.execSysCredList h first count s
  | .sysOwnerClaim h key access => Sys2Proof.Machine.execSysOwnerClaim h key access s
  | .sysFunctionRestart h index => Sys2Proof.Machine.execSysFunctionRestart h index s
  | .pwrConfigSet h vcore cap => Sys2Proof.Machine.execPwrConfigSet h vcore cap s
  | .pwrRailsRestore h => Sys2Proof.Machine.execPwrRailsRestore h s
  | .sysFwLoad h image => Sys2Proof.Machine.execSysFwLoad h image s
  | .sysFwActivate h bank restartNow window => Sys2Proof.Machine.execSysFwActivate h bank restartNow window s
  | .sysRcRestart h => Sys2Proof.Machine.execSysRcRestart h s
  | .sysFwCommit h => Sys2Proof.Machine.execSysFwCommit h s
  | .sysFwStatus h => Sys2Proof.Machine.execSysFwStatus h s
  | .sysRemoteSet h enE0 enE1 port => Sys2Proof.Machine.execSysRemoteSet h enE0 enE1 port s
  | .hostPortStatus h port => Sys2Proof.Machine.execHostPortStatus h port s
  | .hostChannelRebind h chan fn ring => Sys2Proof.Machine.execHostChannelRebind h chan fn ring s
  | .hostCqRebind h queue ring => Sys2Proof.Machine.execHostCqRebind h queue ring s
  | .ethConfigSet h port cfg => Sys2Proof.Machine.execEthConfigSet h port cfg s
  | .ethPortStatus h port => Sys2Proof.Machine.execEthPortStatus h port s
  | .stackScrubSet h stack hours => Sys2Proof.Machine.execStackScrubSet h stack hours s
  | .stackDarn h stack chan lane => Sys2Proof.Machine.execStackDarn h stack chan lane s
  | .stackLogRead h stack first count => Sys2Proof.Machine.execStackLogRead h stack first count s
  | .stackStatus h stack => Sys2Proof.Machine.execStackStatus h stack s
  | .paletteQueueCreate h stack job regions ring => Sys2Proof.Machine.execPaletteQueueCreate h stack job regions ring s
  | .paletteQueueDestroy h stack queue => Sys2Proof.Machine.execPaletteQueueDestroy h stack queue s
  | .paletteQueueStatus h stack queue => Sys2Proof.Machine.execPaletteQueueStatus h stack queue s
  | .paletteStatus h stack => Sys2Proof.Machine.execPaletteStatus h stack s
  | .dmaCqCreate h queue job ring => Sys2Proof.Machine.execDmaCqCreate h queue job ring s
  | .dmaCqDestroy h queue => Sys2Proof.Machine.execDmaCqDestroy h queue s
  | .dmaChannelCreate h a => Sys2Proof.Machine.execDmaChannelCreate h a s
  | .dmaChannelDestroy h chan => Sys2Proof.Machine.execDmaChannelDestroy h chan s
  | .dmaChannelShareSet h chan share => Sys2Proof.Machine.execDmaChannelShareSet h chan share s
  | .dmaChannelKick h chan pi => Sys2Proof.Machine.execDmaChannelKick h chan pi s
  | .dmaChannelStatus h chan => Sys2Proof.Machine.execDmaChannelStatus h chan s
  | .regionCreate h a => Sys2Proof.Machine.execRegionCreate h a s
  | .regionDestroy h region => Sys2Proof.Machine.execRegionDestroy h region s
  | .regionFlagsSet h region opn repl => Sys2Proof.Machine.execRegionFlagsSet h region opn repl s
  | .regionStatus h region => Sys2Proof.Machine.execRegionStatus h region s
  | .replicaMapSet h job block ranges => Sys2Proof.Machine.execReplicaMapSet h job block ranges s
  | .replicaMapClear h job => Sys2Proof.Machine.execReplicaMapClear h job s
  | .fabricTimeoutSet h job timeout => Sys2Proof.Machine.execFabricTimeoutSet h job timeout s
  | .fabricStatus h => Sys2Proof.Machine.execFabricStatus h s
  | .jobTeardown h job => Sys2Proof.Machine.execJobTeardown h job s
  | .jobTeardownComplete job => Sys2Proof.Machine.execJobTeardownComplete job s
  | .tileLoadProgram h tile prog bases => Sys2Proof.Machine.execTileLoadProgram h tile prog bases s
  | .tileStart h tile pc => Sys2Proof.Machine.execTileStart h tile pc s
  | .tileStop h tile => Sys2Proof.Machine.execTileStop h tile s
  | .tileFaultRead h tile => Sys2Proof.Machine.execTileFaultRead h tile s
  | .tileStatus h tile => Sys2Proof.Machine.execTileStatus h tile s
  | .tileLoadMulti h tiles prog bases => Sys2Proof.Machine.execTileLoadMulti h tiles prog bases s
  | .tileStartMulti h tiles pc => Sys2Proof.Machine.execTileStartMulti h tiles pc s
  | .tileSeedRng h tile seed => Sys2Proof.Machine.execTileSeedRng h tile seed s
  | .tileReset h tile => Sys2Proof.Machine.execTileReset h tile s
  | .planLoad h block plan => Sys2Proof.Machine.execPlanLoad h block plan s
  | .planAmend h block entries table => Sys2Proof.Machine.execPlanAmend h block entries table s
  | .planStatus h => Sys2Proof.Machine.execPlanStatus h s
  | .portRejudge h port => Sys2Proof.Machine.execPortRejudge h port s
  | .routeTableSet h block table => Sys2Proof.Machine.execRouteTableSet h block table s
  | .routeTableClear h job => Sys2Proof.Machine.execRouteTableClear h job s
  | .routeTableRead h job => Sys2Proof.Machine.execRouteTableRead h job s
  | .routerPortCounters h port => Sys2Proof.Machine.execRouterPortCounters h port s
  | .routerSnapshot h index => Sys2Proof.Machine.execRouterSnapshot h index s
  | .routerSnapshotPeriod h ms => Sys2Proof.Machine.execRouterSnapshotPeriod h ms s
  | .d2dLinkStatus h link => Sys2Proof.Machine.execD2dLinkStatus h link s
  | .d2dLaneDarn h link dir lane => Sys2Proof.Machine.execD2dLaneDarn h link dir lane s
  | .guestRegionGrant h region access => Sys2Proof.Machine.execGuestRegionGrant h region access s
  | .guestRegionRevoke h region => Sys2Proof.Machine.execGuestRegionRevoke h region s
  | .guestGaugeSet h rate threshold => Sys2Proof.Machine.execGuestGaugeSet h rate threshold s
  | .guestEnable h => Sys2Proof.Machine.execGuestEnable h s
  | .guestStatus h => Sys2Proof.Machine.execGuestStatus h s
  | .opticPortStatus h port => Sys2Proof.Machine.execOpticPortStatus h port s
  | .opticSlotStatus h port dir => Sys2Proof.Machine.execOpticSlotStatus h port dir s
  | .opticSteer h pair places => Sys2Proof.Machine.execOpticSteer h pair places s
  | .opticCalSet h port interval => Sys2Proof.Machine.execOpticCalSet h port interval s
  | .opticSwatchRun h port => Sys2Proof.Machine.execOpticSwatchRun h port s
  | .opticSlotRetire h port dir slot => Sys2Proof.Machine.execOpticSlotRetire h port dir slot s
  | .collCreate h a => Sys2Proof.Machine.execCollCreate h a s
  | .collDestroy h id => Sys2Proof.Machine.execCollDestroy h id s
  | .collStart h id gen => Sys2Proof.Machine.execCollStart h id gen s
  | .collStatus h id => Sys2Proof.Machine.execCollStatus h id s
  | .collResume h id job => Sys2Proof.Machine.execCollResume h id job s
  | .collPolicySet h id policy timeout share => Sys2Proof.Machine.execCollPolicySet h id policy timeout share s
  | .collAbort h id job => Sys2Proof.Machine.execCollAbort h id job s
  | .collExpel h job module => Sys2Proof.Machine.execCollExpel h job module s
  | .jobExpelBudgetSet h job budget refill => Sys2Proof.Machine.execJobExpelBudgetSet h job budget refill s
  | .pipeCreate h a => Sys2Proof.Machine.execPipeCreate h a s
  | .pipeDestroy h id => Sys2Proof.Machine.execPipeDestroy h id s
  | .pipeStatus h id => Sys2Proof.Machine.execPipeStatus h id s
  | .spareFill h job source block pairs => Sys2Proof.Machine.execSpareFill h job source block pairs s
  | .sparePromote h job => Sys2Proof.Machine.execSparePromote h job s
  | .spareStatus h job => Sys2Proof.Machine.execSpareStatus h job s
  | .spareFillPairCheck job src => Sys2Proof.Machine.execSpareFillPairCheck job src s
  | .jobCreate h job tiles => Sys2Proof.Machine.execJobCreate h job tiles s
  | .jobStatus h job => Sys2Proof.Machine.execJobStatus h job s
  | .jobDestroy h job => Sys2Proof.Machine.execJobDestroy h job s
  | .serveModelLoad h a => Sys2Proof.Machine.execServeModelLoad h a s
  | .serveModelUnload h => Sys2Proof.Machine.execServeModelUnload h s
  | .serveTokeniserLoad h slot block table => Sys2Proof.Machine.execServeTokeniserLoad h slot block table s
  | .servePoolShrink h limits => Sys2Proof.Machine.execServePoolShrink h limits s
  | .serveContractCreate h a => Sys2Proof.Machine.execServeContractCreate h a s
  | .serveContractKeySet h id key => Sys2Proof.Machine.execServeContractKeySet h id key s
  | .serveContractClose h id => Sys2Proof.Machine.execServeContractClose h id s
  | .serveContractStatus h id => Sys2Proof.Machine.execServeContractStatus h id s
  | .serveWindowRead h id seq => Sys2Proof.Machine.execServeWindowRead h id seq s
  | .serveFloorQuery h b step ctx => Sys2Proof.Machine.execServeFloorQuery h b step ctx s
  | .serveRequest h id stream payload => Sys2Proof.Machine.execServeRequest h id stream payload s
  | .serveCancel h id stream => Sys2Proof.Machine.execServeCancel h id stream s
  | .serveStatus h => Sys2Proof.Machine.execServeStatus h s
  | .telemRead h kind index => Sys2Proof.Machine.execTelemRead h kind index s
  | .telemSensors h => Sys2Proof.Machine.execTelemSensors h s
  | .telemPower h => Sys2Proof.Machine.execTelemPower h s
  | .secAttest h nonce => Sys2Proof.Machine.execSecAttest h nonce s
  | .secReportRead h id offset len => Sys2Proof.Machine.execSecReportRead h id offset len s
  | .secConfigRead h offset len => Sys2Proof.Machine.execSecConfigRead h offset len s
  | .secCertRead h kind offset len => Sys2Proof.Machine.execSecCertRead h kind offset len s
  | .secAlarmStatus h => Sys2Proof.Machine.execSecAlarmStatus h s
  | .secAlarmConfig h level limit => Sys2Proof.Machine.execSecAlarmConfig h level limit s
  | .secUnlock h => Sys2Proof.Machine.execSecUnlock h s
  | .secAlarmRaise h level confirm => Sys2Proof.Machine.execSecAlarmRaise h level confirm s
  | .secAlarmLogRead h first count => Sys2Proof.Machine.execSecAlarmLogRead h first count s
  | .tallyStatus h => Sys2Proof.Machine.execTallyStatus h s
  | .tallyCertRead h offset len => Sys2Proof.Machine.execTallyCertRead h offset len s
  | .tallyRead h kind arg nonce => Sys2Proof.Machine.execTallyRead h kind arg nonce s
  | .tallyReadingFetch h id offset len => Sys2Proof.Machine.execTallyReadingFetch h id offset len s
  | .doorbellSetup fn n addr blk => Sys2Proof.Machine.execDoorbellSetup fn n addr blk s
  | .cmdPiDoorbell fn n v => Sys2Proof.Machine.execCmdPiDoorbell fn n v s
  | .rspCiWrite fn n v => Sys2Proof.Machine.execRspCiWrite fn n v s
  | .evtCiWrite fn n v => Sys2Proof.Machine.execEvtCiWrite fn n v s
  | .descPiDoorbell fn chan v => Sys2Proof.Machine.execDescPiDoorbell fn chan v s
  | .cqHeadWrite fn chan v => Sys2Proof.Machine.execCqHeadWrite fn chan v s
  | .dmaAbort fn chan => Sys2Proof.Machine.execDmaAbort fn chan s
  | .resumeRetry fn chan => Sys2Proof.Machine.execResumeRetry fn chan s
  | .resumeSkip fn chan => Sys2Proof.Machine.execResumeSkip fn chan s
  | .statusW1cWrite fn offset v meets => Sys2Proof.Machine.execStatusW1cWrite fn offset v meets s
  | .tickLoRead fn => Sys2Proof.Machine.execTickLoRead fn s
  | .registerWrite fn offset width v => Sys2Proof.Machine.execRegisterWrite fn offset width v s
  | .msixUnmask fn vector => Sys2Proof.Machine.execMsixUnmask fn vector s
  | .paletteCmdStore p => Sys2Proof.Machine.execPaletteCmdStore p s
  | .paletteHeadStore p => Sys2Proof.Machine.execPaletteHeadStore p s
  | .paletteEw stack queue => Sys2Proof.Machine.execPaletteEw stack queue s
  | .paletteAccum stack queue => Sys2Proof.Machine.execPaletteAccum stack queue s
  | .paletteSgd stack queue => Sys2Proof.Machine.execPaletteSgd stack queue s
  | .paletteAdam stack queue => Sys2Proof.Machine.execPaletteAdam stack queue s
  | .paletteGather stack queue => Sys2Proof.Machine.execPaletteGather stack queue s
  | .paletteScatter stack queue => Sys2Proof.Machine.execPaletteScatter stack queue s
  | .paletteKvAppend stack queue => Sys2Proof.Machine.execPaletteKvAppend stack queue s
  | .paletteKvCompact stack queue => Sys2Proof.Machine.execPaletteKvCompact stack queue s
  | .paletteDigest stack queue => Sys2Proof.Machine.execPaletteDigest stack queue s
  | .paletteCommandComplete stack idx => Sys2Proof.Machine.execPaletteCommandComplete stack idx s
  | .dmaCopy chan fetched => Sys2Proof.Machine.execDmaCopy chan fetched s
  | .dmaFill chan fetched => Sys2Proof.Machine.execDmaFill chan fetched s
  | .dmaNop chan fetched => Sys2Proof.Machine.execDmaNop chan fetched s
  | .dmaBurstIssue chan host => Sys2Proof.Machine.execDmaBurstIssue chan host s
  | .dmaDescriptorComplete chan => Sys2Proof.Machine.execDmaDescriptorComplete chan s
  | .dmaBusError chan e => Sys2Proof.Machine.execDmaBusError chan e s
  | .descriptorFetchFail chan e => Sys2Proof.Machine.execDescriptorFetchFail chan e s
  | .dmaRecordDeferred queue => Sys2Proof.Machine.execDmaRecordDeferred queue s
  | .fabricRead p flips => Sys2Proof.Machine.execFabricRead p flips s
  | .fabricWrite p => Sys2Proof.Machine.execFabricWrite p s
  | .fabricAtomic p => Sys2Proof.Machine.execFabricAtomic p s
  | .syncRead p flips => Sys2Proof.Machine.execSyncRead p flips s
  | .syncAdd p => Sys2Proof.Machine.execSyncAdd p s
  | .generationStartWrite p => Sys2Proof.Machine.execGenerationStartWrite p s
  | .pipeSendStart p => Sys2Proof.Machine.execPipeSendStart p s
  | .pipeReleaseWrite p => Sys2Proof.Machine.execPipeReleaseWrite p s
  | .iterationDone p => Sys2Proof.Machine.execIterationDone p s
  | .readResp p => Sys2Proof.Machine.execReadResp p s
  | .atomicResp p => Sys2Proof.Machine.execAtomicResp p s
  | .errorResp p => Sys2Proof.Machine.execErrorResp p s
  | .flowAck p => Sys2Proof.Machine.execFlowAck p s
  | .flowNak p => Sys2Proof.Machine.execFlowNak p s
  | .fabricTimeoutExpire tag => Sys2Proof.Machine.execFabricTimeoutExpire tag s
  | .tagLingerEnd tag => Sys2Proof.Machine.execTagLingerEnd tag s
  | .flowRecordEvict src cls => Sys2Proof.Machine.execFlowRecordEvict src cls s
  | .regionZeroingComplete region => Sys2Proof.Machine.execRegionZeroingComplete region s
  | .packetRoute src p => Sys2Proof.Machine.execPacketRoute src p s
  | .hopFlitReceive port f => Sys2Proof.Machine.execHopFlitReceive port f s
  | .hopReplayTimeout port => Sys2Proof.Machine.execHopReplayTimeout port s
  | .d2dFlitReceive link dir f => Sys2Proof.Machine.execD2dFlitReceive link dir f s
  | .d2dAckTimeout link dir => Sys2Proof.Machine.execD2dAckTimeout link dir s
  | .laneLockLoss link dir lane => Sys2Proof.Machine.execLaneLockLoss link dir lane s
  | .clockLaneStop link dir pair lane => Sys2Proof.Machine.execClockLaneStop link dir pair lane s
  | .laneDarn link dir lane spare => Sys2Proof.Machine.execLaneDarn link dir lane spare s
  | .laneDarnAck link dir => Sys2Proof.Machine.execLaneDarnAck link dir s
  | .linkTrainingComplete link failed => Sys2Proof.Machine.execLinkTrainingComplete link failed s
  | .readyMarkSend link dir => Sys2Proof.Machine.execReadyMarkSend link dir s
  | .readyMark link dir lseq freeSlots => Sys2Proof.Machine.execReadyMark link dir lseq freeSlots s
  | .guestRead g => Sys2Proof.Machine.execGuestRead g s
  | .guestWrite g => Sys2Proof.Machine.execGuestWrite g s
  | .guestTokenAdmit tag => Sys2Proof.Machine.execGuestTokenAdmit tag s
  | .guestResponse g => Sys2Proof.Machine.execGuestResponse g s
  | .gaugeRefill kind idx => Sys2Proof.Machine.execGaugeRefill kind idx s
  | .ringLoopUpdate port dir slot offset heater outOfRange => Sys2Proof.Machine.execRingLoopUpdate port dir slot offset heater outOfRange s
  | .laserMonitorRead port slot power avg => Sys2Proof.Machine.execLaserMonitorRead port slot power avg s
  | .laserChangeover port slot verified => Sys2Proof.Machine.execLaserChangeover port slot verified s
  | .laneMove port slot spare => Sys2Proof.Machine.execLaneMove port slot spare s
  | .slotFailReport port slot => Sys2Proof.Machine.execSlotFailReport port slot s
  | .calIntervalExpire port dir verified margin => Sys2Proof.Machine.execCalIntervalExpire port dir verified margin s
  | .swatchComplete port tx rx => Sys2Proof.Machine.execSwatchComplete port tx rx s
  | .noLightTimeout port => Sys2Proof.Machine.execNoLightTimeout port s
  | .lightReturn port => Sys2Proof.Machine.execLightReturn port s
  | .lightLoss port => Sys2Proof.Machine.execLightLoss port s
  | .lightLossTimeout port => Sys2Proof.Machine.execLightLossTimeout port s
  | .steerExecute pair => Sys2Proof.Machine.execSteerExecute pair s
  | .identityExchange port serial module peerPort major minor quads => Sys2Proof.Machine.execIdentityExchange port serial module peerPort major minor quads s
  | .contribPacket p => Sys2Proof.Machine.execContribPacket p s
  | .collGatherPacket p => Sys2Proof.Machine.execCollGatherPacket p s
  | .exchangePacket p => Sys2Proof.Machine.execExchangePacket p s
  | .bcastPacket p => Sys2Proof.Machine.execBcastPacket p s
  | .votePacket p => Sys2Proof.Machine.execVotePacket p s
  | .pipeData p => Sys2Proof.Machine.execPipeData p s
  | .pipeCredit p => Sys2Proof.Machine.execPipeCredit p s
  | .frogPacket p => Sys2Proof.Machine.execFrogPacket p s
  | .stepTimeoutExpire id => Sys2Proof.Machine.execStepTimeoutExpire id s
  | .voteGraceExpire id => Sys2Proof.Machine.execVoteGraceExpire id s
  | .frogResend id nbr => Sys2Proof.Machine.execFrogResend id nbr s
  | .phaseBoundaryRelease id => Sys2Proof.Machine.execPhaseBoundaryRelease id s
  | .onCommitRetry id => Sys2Proof.Machine.execOnCommitRetry id s
  | .expelRefill job => Sys2Proof.Machine.execExpelRefill job s
  | .tspRequest m => Sys2Proof.Machine.execTspRequest m s
  | .tspCancel m => Sys2Proof.Machine.execTspCancel m s
  | .streamAck m => Sys2Proof.Machine.execStreamAck m s
  | .tspResend m => Sys2Proof.Machine.execTspResend m s
  | .requestPartsTimeout contract stream => Sys2Proof.Machine.execRequestPartsTimeout contract stream s
  | .streamRetentionExpire contract stream => Sys2Proof.Machine.execStreamRetentionExpire contract stream s
  | .interTokenDeadline slot => Sys2Proof.Machine.execInterTokenDeadline slot s
  | .serveWindowEnd contract => Sys2Proof.Machine.execServeWindowEnd contract s
  | .stretchTimeExpire contract => Sys2Proof.Machine.execStretchTimeExpire contract s
  | .contractKeyGraceEnd contract => Sys2Proof.Machine.execContractKeyGraceEnd contract s
  | .recordResendCheck contract seq => Sys2Proof.Machine.execRecordResendCheck contract seq s
  | .tallyRecordFrame frame => Sys2Proof.Machine.execTallyRecordFrame frame s
  | .tallyEnrolment frame => Sys2Proof.Machine.execTallyEnrolment frame s
  | .tallyReadout kind arg nonce => Sys2Proof.Machine.execTallyReadout kind arg nonce s
  | .tallySample mV mA mReturn => Sys2Proof.Machine.execTallySample mV mA mReturn s
  | .energyPulseEnd => Sys2Proof.Machine.execEnergyPulseEnd s
  | .tallyCommit => Sys2Proof.Machine.execTallyCommit s
  | .tallyTempRead temp => Sys2Proof.Machine.execTallyTempRead temp s
  | .tallyPowerUp checks => Sys2Proof.Machine.execTallyPowerUp checks s
  | .tallyInputLost => Sys2Proof.Machine.execTallyInputLost s
  | .tallyMeshBreach => Sys2Proof.Machine.execTallyMeshBreach s
  | .coldStart lidBroken => Sys2Proof.Machine.execColdStart lidBroken s
  | .housekeepingRoundEnd r => Sys2Proof.Machine.execHousekeepingRoundEnd r s
  | .fastLimiterSample current power core => Sys2Proof.Machine.execFastLimiterSample current power core s
  | .inputOutOfRange => Sys2Proof.Machine.execInputOutOfRange s
  | .thermalTrip sensor => Sys2Proof.Machine.execThermalTrip sensor s
  | .standbyPowerLost => Sys2Proof.Machine.execStandbyPowerLost s
  | .seatAssert => Sys2Proof.Machine.execSeatAssert s
  | .seatRelease => Sys2Proof.Machine.execSeatRelease s
  | .lidTamper => Sys2Proof.Machine.execLidTamper s
  | .gessoRailsOff => Sys2Proof.Machine.execGessoRailsOff s
  | .railOutOfRange rail => Sys2Proof.Machine.execRailOutOfRange rail s
  | .clockGlitch => Sys2Proof.Machine.execClockGlitch s
  | .alarmInAssert => Sys2Proof.Machine.execAlarmInAssert s
  | .alarmSourceClear source => Sys2Proof.Machine.execAlarmSourceClear source s
  | .rcWatchdogExpire => Sys2Proof.Machine.execRcWatchdogExpire s
  | .rcBootComplete => Sys2Proof.Machine.execRcBootComplete s
  | .fwCommitWindowExpire => Sys2Proof.Machine.execFwCommitWindowExpire s
  | .functionReset fn cause => Sys2Proof.Machine.execFunctionReset fn cause s
  | .pcieLinkTrained fn width rate => Sys2Proof.Machine.execPcieLinkTrained fn width rate s
  | .pcieTrainingTimeout fn => Sys2Proof.Machine.execPcieTrainingTimeout fn s
  | .unsupportedRequestTlp fn => Sys2Proof.Machine.execUnsupportedRequestTlp fn s
  | .ethFrameReceive port f => Sys2Proof.Machine.execEthFrameReceive port f s
  | .ethPcsChange port aligned => Sys2Proof.Machine.execEthPcsChange port aligned s
  | .remoteHello g => Sys2Proof.Machine.execRemoteHello g s
  | .remoteOpen g => Sys2Proof.Machine.execRemoteOpen g s
  | .remoteCommand g => Sys2Proof.Machine.execRemoteCommand g s
  | .remoteEventAck g => Sys2Proof.Machine.execRemoteEventAck g s
  | .remoteClose g => Sys2Proof.Machine.execRemoteClose g s
  | .remoteEventResend pair seq => Sys2Proof.Machine.execRemoteEventResend pair seq s
  | .remoteSessionIdle pair => Sys2Proof.Machine.execRemoteSessionIdle pair s
  | .remoteGapExpire pair seq => Sys2Proof.Machine.execRemoteGapExpire pair seq s
  | .challengeExpire pair => Sys2Proof.Machine.execChallengeExpire pair s
  | .patrolRead stack chan flips => Sys2Proof.Machine.execPatrolRead stack chan flips s
  | .darnCopyComplete stack chan => Sys2Proof.Machine.execDarnCopyComplete stack chan s
  | .stackInitComplete stack failed => Sys2Proof.Machine.execStackInitComplete stack failed s
  | .smbusWrite data => Sys2Proof.Machine.execSmbusWrite data s
  | .smbusRead count => Sys2Proof.Machine.execSmbusRead count s
  | .perstDeassertion fn => Sys2Proof.Machine.execPerstDeassertion fn s
  | .k8OpticsFault port => Sys2Proof.Machine.execK8OpticsFault port s
  | .canvasInitComplete canvas selfTest => Sys2Proof.Machine.execCanvasInitComplete canvas selfTest s
  | .periodicSnapshot => Sys2Proof.Machine.execPeriodicSnapshot s
  | .bootRomImageStart => Sys2Proof.Machine.execBootRomImageStart s

end Sys2Proof.Machine
end

