-- ==== Sys2Proof/Machine/Step.lean ====
section
/-! DEFINITION. One step: the command at the front of the queue; with none waiting, one tick of the tick
island. -/

namespace Sys2Proof.Machine

/-- With no command waiting the block idles: TICK counts on while the tick island runs (R61), and the VOTEs held to their rate go out
(R444, log 1). -/
def idle (s : State) : State :=
  if s.ctl.power.tickOn then
    { s with ctl := Ctl.votesDue { s.ctl with power := { s.ctl.power with tick := (s.ctl.power.tick + 1) % 2 ^ 64 } } }
  else s

/-- Take the command at the front and carry it out with the rest waiting. -/
def step (s : State) : Host.Outcome State Fault Refusal :=
  match s.pending with
  | [] => .next (idle s)
  | c :: rest => exec c { s with pending := rest }

/-- Put the command a table word spells at the front of the queue. The table gives no row bits, so no word spells
a command. -/
def State.withFetchWord (s : State) (nbits w : Nat) : State :=
  match decodeTableWord nbits w with
  | some c => { s with pending := c :: s.pending }
  | none => s

end Sys2Proof.Machine
end

