-- ==== Sys2Proof/WellFormed.lean ====
section
/-! DEFINITION. When a command is well-formed: every operand is a value that the spec gives its field a width or a
range for. A meaning answers a next state on a well-formed command and refuses any other. -/

namespace Sys2Proof

open Sys2Proof.Machine

/-- Every operand lies in its domain. -/
def Instr.wf (i : Instr) : Bool :=
  match i with
  | .tileLoad t => t.tile < 192
  | .tileStore t => t.tile < 192
  | .tileFeed t => t.tile < 192
  | .tileHold t => t.tile < 192
  | .tileMma t => t.tile < 192
  | .tileConv t => t.tile < 192
  | .tileEw t => t.tile < 192
  | .glazeDefine t => t.tile < 192
  | .glazeApply t => t.tile < 192
  | .tileSend t => t.tile < 192
  | .tileRecv t => t.tile < 192
  | .tileWait t => t.tile < 192
  | .tileSignal t => t.tile < 192
  | .tileFence t => t.tile < 192
  | .tileMark t => t.tile < 192
  | .tileReplay t => t.tile < 192
  | .tileLoop t => t.tile < 192
  | .endProgram t => t.tile < 192
  | .tileDone tile => tile < 192
  | .instructionComplete tile _ => tile < 192
  | .waitTimeoutExpire tile => tile < 192
  | .arrayStep tile => tile < 192
  | .sysVersion h _ _ _ _ => hdrOk h
  | .sysSessionChallenge h => hdrOk h
  | .sysSessionOpen h _ _ _ _ => hdrOk h
  | .sysSessionClose h => hdrOk h
  | .sysIdentify h => hdrOk h
  | .sysReadiness h => hdrOk h
  | .sysPairRelease h => hdrOk h
  | .sysStageWrite h _ _ _ _ => hdrOk h
  | .sysEventLogRead h _ _ => hdrOk h
  | .sysCredCreate h _ _ _ _ _ => hdrOk h
  | .sysCredRevoke h _ => hdrOk h
  | .sysCredList h _ _ => hdrOk h
  | .sysOwnerClaim h _ _ => hdrOk h
  | .sysFunctionRestart h _ => hdrOk h
  | .pwrConfigSet h _ _ => hdrOk h
  | .pwrRailsRestore h => hdrOk h
  | .sysFwLoad h _ => hdrOk h
  | .sysFwActivate h _ _ _ => hdrOk h
  | .sysRcRestart h => hdrOk h
  | .sysFwCommit h => hdrOk h
  | .sysFwStatus h => hdrOk h
  | .sysRemoteSet h _ _ _ => hdrOk h
  | .hostPortStatus h _ => hdrOk h
  | .hostChannelRebind h _ _ _ => hdrOk h
  | .hostCqRebind h _ _ => hdrOk h
  | .ethConfigSet h _ _ => hdrOk h
  | .ethPortStatus h _ => hdrOk h
  | .stackScrubSet h _ _ => hdrOk h
  | .stackDarn h _ _ _ => hdrOk h
  | .stackLogRead h _ _ _ => hdrOk h
  | .stackStatus h _ => hdrOk h
  | .paletteQueueCreate h _ _ _ _ => hdrOk h
  | .paletteQueueDestroy h _ _ => hdrOk h
  | .paletteQueueStatus h _ _ => hdrOk h
  | .paletteStatus h _ => hdrOk h
  | .dmaCqCreate h _ _ _ => hdrOk h
  | .dmaCqDestroy h _ => hdrOk h
  | .dmaChannelCreate h _ => hdrOk h
  | .dmaChannelDestroy h _ => hdrOk h
  | .dmaChannelShareSet h _ _ => hdrOk h
  | .dmaChannelKick h _ _ => hdrOk h
  | .dmaChannelStatus h _ => hdrOk h
  | .regionCreate h _ => hdrOk h
  | .regionDestroy h _ => hdrOk h
  | .regionFlagsSet h _ _ _ => hdrOk h
  | .regionStatus h _ => hdrOk h
  | .replicaMapSet h _ _ _ => hdrOk h
  | .replicaMapClear h _ => hdrOk h
  | .fabricTimeoutSet h _ _ => hdrOk h
  | .fabricStatus h => hdrOk h
  | .jobTeardown h _ => hdrOk h
  | .jobTeardownComplete job => 1 ≤ job && job < 65536
  | .tileLoadProgram h _ _ _ => hdrOk h
  | .tileStart h _ _ => hdrOk h
  | .tileStop h _ => hdrOk h
  | .tileFaultRead h _ => hdrOk h
  | .tileStatus h _ => hdrOk h
  | .tileLoadMulti h _ _ _ => hdrOk h
  | .tileStartMulti h _ _ => hdrOk h
  | .tileSeedRng h _ _ => hdrOk h
  | .tileReset h _ => hdrOk h
  | .planLoad h _ _ => hdrOk h
  | .planAmend h _ _ _ => hdrOk h
  | .planStatus h => hdrOk h
  | .portRejudge h _ => hdrOk h
  | .routeTableSet h _ _ => hdrOk h
  | .routeTableClear h _ => hdrOk h
  | .routeTableRead h _ => hdrOk h
  | .routerPortCounters h _ => hdrOk h
  | .routerSnapshot h _ => hdrOk h
  | .routerSnapshotPeriod h _ => hdrOk h
  | .d2dLinkStatus h _ => hdrOk h
  | .d2dLaneDarn h _ _ _ => hdrOk h
  | .guestRegionGrant h _ _ => hdrOk h
  | .guestRegionRevoke h _ => hdrOk h
  | .guestGaugeSet h _ _ => hdrOk h
  | .guestEnable h => hdrOk h
  | .guestStatus h => hdrOk h
  | .opticPortStatus h _ => hdrOk h
  | .opticSlotStatus h _ _ => hdrOk h
  | .opticSteer h _ _ => hdrOk h
  | .opticCalSet h _ _ => hdrOk h
  | .opticSwatchRun h _ => hdrOk h
  | .opticSlotRetire h _ _ _ => hdrOk h
  | .collCreate h _ => hdrOk h
  | .collDestroy h _ => hdrOk h
  | .collStart h _ _ => hdrOk h
  | .collStatus h _ => hdrOk h
  | .collResume h _ _ => hdrOk h
  | .collPolicySet h _ _ _ _ => hdrOk h
  | .collAbort h _ _ => hdrOk h
  | .collExpel h _ _ => hdrOk h
  | .jobExpelBudgetSet h _ _ _ => hdrOk h
  | .pipeCreate h _ => hdrOk h
  | .pipeDestroy h _ => hdrOk h
  | .pipeStatus h _ => hdrOk h
  | .spareFill h _ _ _ _ => hdrOk h
  | .sparePromote h _ => hdrOk h
  | .spareStatus h _ => hdrOk h
  | .spareFillPairCheck job src => 1 ≤ job && job < 65536 && src.length = 64
  | .jobCreate h _ _ => hdrOk h
  | .jobStatus h _ => hdrOk h
  | .jobDestroy h _ => hdrOk h
  | .serveModelLoad h _ => hdrOk h
  | .serveModelUnload h => hdrOk h
  | .serveTokeniserLoad h _ _ _ => hdrOk h
  | .servePoolShrink h _ => hdrOk h
  | .serveContractCreate h _ => hdrOk h
  | .serveContractKeySet h _ _ => hdrOk h
  | .serveContractClose h _ => hdrOk h
  | .serveContractStatus h _ => hdrOk h
  | .serveWindowRead h _ _ => hdrOk h
  | .serveFloorQuery h _ _ _ => hdrOk h
  | .serveRequest h _ _ _ => hdrOk h
  | .serveCancel h _ _ => hdrOk h
  | .serveStatus h => hdrOk h
  | .telemRead h _ _ => hdrOk h
  | .telemSensors h => hdrOk h
  | .telemPower h => hdrOk h
  | .secAttest h _ => hdrOk h
  | .secReportRead h _ _ _ => hdrOk h
  | .secConfigRead h _ _ => hdrOk h
  | .secCertRead h _ _ _ => hdrOk h
  | .secAlarmStatus h => hdrOk h
  | .secAlarmConfig h _ _ => hdrOk h
  | .secUnlock h => hdrOk h
  | .secAlarmRaise h _ _ => hdrOk h
  | .secAlarmLogRead h _ _ => hdrOk h
  | .tallyStatus h => hdrOk h
  | .tallyCertRead h _ _ => hdrOk h
  | .tallyRead h _ _ _ => hdrOk h
  | .tallyReadingFetch h _ _ _ => hdrOk h
  | .doorbellSetup fn n _ _ => fn < 2 && n < 256
  | .cmdPiDoorbell fn n _ => fn < 2 && n < 256
  | .rspCiWrite fn n _ => fn < 2 && n < 256
  | .evtCiWrite fn n _ => fn < 2 && n < 256
  | .descPiDoorbell fn chan _ => fn < 2 && chan < 64
  | .cqHeadWrite fn chan _ => fn < 2 && chan < 64
  | .dmaAbort fn chan => fn < 2 && chan < 64
  | .resumeRetry fn chan => fn < 2 && chan < 64
  | .resumeSkip fn chan => fn < 2 && chan < 64
  | .statusW1cWrite fn _ _ _ => fn < 2
  | .tickLoRead fn => fn < 2
  | .registerWrite fn _ _ _ => fn < 2
  | .msixUnmask fn vector => fn < 2 && vector < 34
  | .paletteCmdStore p => pktOk p
  | .paletteHeadStore p => pktOk p
  | .paletteEw stack queue => stack < 8 && queue < 32
  | .paletteAccum stack queue => stack < 8 && queue < 32
  | .paletteSgd stack queue => stack < 8 && queue < 32
  | .paletteAdam stack queue => stack < 8 && queue < 32
  | .paletteGather stack queue => stack < 8 && queue < 32
  | .paletteScatter stack queue => stack < 8 && queue < 32
  | .paletteKvAppend stack queue => stack < 8 && queue < 32
  | .paletteKvCompact stack queue => stack < 8 && queue < 32
  | .paletteDigest stack queue => stack < 8 && queue < 32
  | .paletteCommandComplete stack _ => stack < 8
  | .dmaCopy chan _ => chan < 64
  | .dmaFill chan _ => chan < 64
  | .dmaNop chan _ => chan < 64
  | .dmaBurstIssue chan _ => chan < 64
  | .dmaDescriptorComplete chan => chan < 64
  | .dmaBusError chan _ => chan < 64
  | .descriptorFetchFail chan e => chan < 64 && 1 ≤ e.kind && e.kind ≤ 3 && e.status < 65536
  | .dmaRecordDeferred queue => queue < 16
  | .fabricRead p flips => pktOk p && flipsOk flips
  | .fabricWrite p => pktOk p
  | .fabricAtomic p => pktOk p
  | .syncRead p flips => pktOk p && flipsOk flips
  | .syncAdd p => pktOk p
  | .generationStartWrite p => pktOk p
  | .pipeSendStart p => pktOk p
  | .pipeReleaseWrite p => pktOk p
  | .iterationDone p => pktOk p
  | .readResp p => pktOk p
  | .atomicResp p => pktOk p
  | .errorResp p => pktOk p
  | .flowAck p => pktOk p
  | .flowNak p => pktOk p
  | .fabricTimeoutExpire tag => tag < 65536
  | .tagLingerEnd tag => tag < 65536
  | .flowRecordEvict src cls => src < 65536 && cls < 4
  | .regionZeroingComplete region => region < 4096
  | .packetRoute src p => pktOk p && (src.map fun q => decide (q < 32)).getD true
  | .hopFlitReceive port f => port < 32 && flitOk f && decide (f.payload.length ≤ 236)
  | .hopReplayTimeout port => port < 32
  | .d2dFlitReceive link dir f => link < 17 && dir < 2 && flitOk f && f.vc < 4 && f.crVc < 4 && decide (f.payload.length ≤ 240)
  | .d2dAckTimeout link dir => link < 17 && dir < 2
  | .laneLockLoss link dir lane => link < 17 && dir < 2 && lane < d2dLanes link + d2dDarns link
  | .clockLaneStop link dir pair lane => link < 17 && dir < 2 && pair < d2dClks link && lane < 2
  | .laneDarn link dir _ _ => link < 17 && dir < 2
  | .laneDarnAck link dir => link < 17 && dir < 2
  | .linkTrainingComplete link failed => (link < 17 && (trainLanes failed).all fun x => x.1 < 2 && x.2 < d2dLanes link + d2dDarns link)
      || (32 ≤ link && link < 64 && failed = [])
  | .readyMarkSend link dir => dir < 2 && (link < 17 || (32 ≤ link && link < 64))
  | .readyMark link dir lseq _ => dir < 2 && (link < 17 || (32 ≤ link && link < 64)) && lseq < 65536
  | .guestRead g => guestOk g && g.tag < 1024 && g.opcode != 2
  | .guestWrite g => guestOk g && g.tag < 1024 && g.opcode = 2
  | .guestTokenAdmit tag => tag < 1024
  | .guestResponse g => guestOk g
  | .gaugeRefill kind idx => (kind = 0 && idx < 192) || (kind = 1 && idx < 64) || (kind = 2 && idx = 0) || (kind = 3 && idx < 192)
  | .ringLoopUpdate port dir slot _ heater _ => port < 32 && dir < 2 && slot < 18 && heater < 256
  | .laserMonitorRead port slot _ _ => port < 32 && slot < 18
  | .laserChangeover port slot verified => port < 32 && slot < 18 && verified.all (· < 18)
  | .laneMove port slot move => port < 32 && slot < 16 && laneMoveOk move
  | .slotFailReport port slot => port < 32 && slot < 16
  | .calIntervalExpire port dir _ margin => port < 32 && dir < 2 && margin < 256
  | .swatchComplete port tx rx => port < 32 && sweepsOk tx && sweepsOk rx
  | .noLightTimeout port => port < 32
  | .lightReturn port => port < 32
  | .lightLoss port => port < 32
  | .lightLossTimeout port => port < 32
  | .steerExecute pair => pair < 4
  | .identityExchange port serial module peerPort major minor quads => port < 32 && decide (serial < 2 ^ 64) && module < 65536 && peerPort < 256 && major < 256 && minor < 256
      && quads.all (·.quad < 4)
  | .contribPacket p => pktOk p
  | .collGatherPacket p => pktOk p
  | .exchangePacket p => pktOk p
  | .bcastPacket p => pktOk p
  | .votePacket p => pktOk p
  | .pipeData p => pktOk p
  | .pipeCredit p => pktOk p
  | .frogPacket p => pktOk p
  | .stepTimeoutExpire id => id < 64
  | .voteGraceExpire id => id < 64
  | .frogResend id nbr => id < 128 && nbr < 65536
  | .phaseBoundaryRelease id => id < 64
  | .onCommitRetry id => id < 64
  | .expelRefill job => 1 ≤ job && job < 65536
  | .tspRequest m => m.ok
  | .tspCancel m => m.ok
  | .streamAck m => m.ok
  | .tspResend m => m.ok
  | .requestPartsTimeout contract stream => contract < 2 ^ 32 && stream < 2 ^ 64
  | .streamRetentionExpire contract stream => contract < 2 ^ 32 && stream < 2 ^ 64
  | .interTokenDeadline slot => slot < 1024
  | .serveWindowEnd contract => contract < 2 ^ 32
  | .stretchTimeExpire contract => contract < 2 ^ 32
  | .contractKeyGraceEnd contract => contract < 2 ^ 32
  | .recordResendCheck contract seq => contract < 2 ^ 32 && seq < 2 ^ 32
  | .tallyRecordFrame _ => true
  | .tallyEnrolment _ => true
  | .tallyReadout kind _ _ => 1 ≤ kind && kind ≤ 3
  | .tallySample _ _ _ => true
  | .energyPulseEnd => true
  | .tallyCommit => true
  | .tallyTempRead _ => true
  | .tallyPowerUp _ => true
  | .tallyInputLost => true
  | .tallyMeshBreach => true
  | .coldStart _ => true
  | .housekeepingRoundEnd r => r.readings.all fun x => x.1 < 59 && decide (-32768 < x.2) && decide (x.2 < 32768)
  | .fastLimiterSample _ _ _ => true
  | .inputOutOfRange => true
  | .thermalTrip sensor => sensor < 10
  | .standbyPowerLost => true
  | .seatAssert => true
  | .seatRelease => true
  | .lidTamper => true
  | .gessoRailsOff => true
  | .railOutOfRange rail => rail < 2
  | .clockGlitch => true
  | .alarmInAssert => true
  | .alarmSourceClear source => 1 ≤ source && source ≤ 10
  | .rcWatchdogExpire => true
  | .rcBootComplete => true
  | .fwCommitWindowExpire => true
  | .functionReset fn cause => fn < 2 && cause < 5
  | .pcieLinkTrained fn width rate => fn < 2 && [1, 2, 4, 8].contains width && 1 ≤ rate && rate ≤ 6
  | .pcieTrainingTimeout fn => fn < 2
  | .unsupportedRequestTlp fn => fn < 2
  | .ethFrameReceive port _ => port < 2
  | .ethPcsChange port _ => port < 2
  | .remoteHello g => g.ok
  | .remoteOpen g => g.ok
  | .remoteCommand g => g.ok
  | .remoteEventAck g => g.ok
  | .remoteClose g => g.ok
  | .remoteEventResend pair _ => pair < 256
  | .remoteSessionIdle pair => pair < 256
  | .remoteGapExpire pair _ => pair < 256
  | .challengeExpire pair => pair < 256
  | .patrolRead stack chan flips => stack < 8 && chan < 128 && flipsOk flips
  | .darnCopyComplete stack chan => stack < 8 && chan < 128
  | .stackInitComplete stack failed => stack < 8 && failed.all fun f => f.1 < 128 && f.2 < 20
  | .smbusWrite data => data != []
  | .smbusRead _ => true
  | .perstDeassertion fn => fn < 2
  | .k8OpticsFault port => port < 2
  | .canvasInitComplete canvas _ => canvas < 4
  | .periodicSnapshot => true
  | .bootRomImageStart => true

end Sys2Proof
end

