-- ==== Sys2Proof/Safety.lean ====
section
/-! DEFINITION. The terms that claims use: what it is for the module to be sound, for a mailbox command to be accepted, and
for a command to succeed. -/

namespace Sys2Proof.Machine

/-- The invariant of the module: its memory is in canonical form. -/
def State.Sound (s : State) : Prop := s.mem.wf = true

/-- A mailbox command starts and passes every check of R523, items 1 to 7: the header names a pair, the RC takes the
command now, and no check fails. -/
def accepts (k : Cmd) (h : Hdr) (args : List Arg) (refs : List Ref) (s : State) : Bool :=
  hdrOk h && s.ctl.mbxReady h && (s.ctl.refusal k h args refs).isNone

/-- The module once the RC has taken a command out of its ring. -/
def State.taken (s : State) (k : Cmd) (h : Hdr) : W := { s.world with c := s.ctl.consume k h }

/-- The state after a command that is taken, has the effect f on the controllers, and answers STATUS 0x0000 with results
`body`; memory, the Tally and the queue as before. -/
def State.done (s : State) (k : Cmd) (h : Hdr) (f : Ctl → Ctl) (body : List Byte) : State :=
  { s with ctl := (f (s.ctl.consume k h)).answer k h 0 0 body }

/-- The state after a command that is taken and answers a failing STATUS with DETAIL. -/
def State.failed (s : State) (k : Cmd) (h : Hdr) (status detail : Nat) : State :=
  { s with ctl := (s.ctl.consume k h).answer k h status detail [] }

/-- A started command waits for `x`: it counts in its pair, and its response comes when `x` ends. -/
def Ctl.startWait (k : Cmd) (h : Hdr) (x : WaitFor) (c : Ctl) : Ctl :=
  (c.updPair h.pair fun p => { p with started := p.started + 1 }).onRc fun r =>
    { r with waits := r.waits ++ [⟨some h.pair, k.op, h.seq, h.corr, x⟩] }

/-- Accepted, command i answers STATUS 0x0000 with results `body`, and nothing but its ring and its response changes. -/
def Reads (s : State) (k : Cmd) (h : Hdr) (args : List Arg) (refs : List Ref) (i : Instr) (body : List Byte) : Prop :=
  accepts k h args refs s = true → exec i s = .next (s.done k h id body)

/-- Accepted, command i has exactly the effect f on the controllers and answers STATUS 0x0000 with results `body`. -/
def Does (s : State) (k : Cmd) (h : Hdr) (args : List Arg) (refs : List Ref) (i : Instr) (f : Ctl → Ctl) (body : List Byte) :
    Prop :=
  accepts k h args refs s = true → exec i s = .next (s.done k h f body)

/-- Accepted, command i has the effect `eff`, answers STATUS 0x0000 with results `body`, and then has the effect `after`. -/
def Lands (s : State) (k : Cmd) (h : Hdr) (args : List Arg) (refs : List Ref) (i : Instr) (eff : W → W) (body : List Byte)
    (after : W → W) : Prop :=
  accepts k h args refs s = true →
    exec i s = .next (s.land (after ((eff (s.taken k h)).on (Ctl.answer k h 0 0 body))))

/-- Accepted, command i has the effect `eff` and then waits for x. -/
def Waits (s : State) (k : Cmd) (h : Hdr) (args : List Arg) (refs : List Ref) (i : Instr) (eff : W → W) (x : WaitFor) : Prop :=
  accepts k h args refs s = true → exec i s = .next (s.land ((eff (s.taken k h)).on (Ctl.startWait k h x)))

/-- Command i changes exactly the controllers, by f. -/
def Moves (s : State) (i : Instr) (f : Ctl → Ctl) : Prop := exec i s = .next { s with ctl := f s.ctl }

/-- Command i changes exactly the controllers and memory, as `eff` does, and what follows from that. -/
def Acts (s : State) (i : Instr) (eff : W → W) : Prop := exec i s = .next (s.land (eff s.world))

/-- The sequencer of the tile dispatches the word at its PC (R164 to R174): it runs and is held by nothing, the PC lies in the
instruction memory, the word was read without an uncorrectable error, is of the row's opcode, passes every check of R165 and
R168, and its unit has a free place. -/
def canDispatch (d : Dispatch) (mine : Nat → Bool) (s : State) : Bool :=
  let t := s.ctl.tile d.tile
  let w := t.imem.getD t.pc 0
  d.tile < 192 && t.dispatching && t.pc ≤ 1023 && !d.ecc && mine w
    && (worst (checkWord t w (s.ctl.sameJob d.tile))).isNone && t.roomFor w

/-- The dispatch of command i changes exactly the controllers and memory, as `eff` does after the lines lost in the stores are
poisoned (R202). -/
def Dispatches (s : State) (d : Dispatch) (i : Instr) (eff : W → W) : Prop :=
  exec i s = .next (s.land (eff (s.world.loseLines d.tile d.lost)))

/-- A request in the home's ingress is admitted (R411, R418 to R420): it came whole, over a way that no retraining link holds, each of
its entries finds a flow record, `r` is the module with the fresh entries entered in their records, one at least is fresh, every check
of Table 14-3 passes, and no write stop holds it. -/
structure State.Admits (s : State) (p : Pkt) (flips : List Flip) (r : W × List Pkt) : Prop where
  whole : pktOk p = true ∧ flipsOk flips = true ∧ s.ctl.fabric.arrivals.contains p = true ∧ p.crcOk = true
  way : s.ctl.wayHeld p = false
  records : ((reqEntries p).any fun e => s.ctl.noRecord (4 * e.src + 1)) = false
  entered : ((s.world.strike (stackOf p.offset) flips).on (Ctl.takeArrival p)).enterRecords (reqEntries p) = r
  fresh : r.2 ≠ []
  allowed : ∃ n, r.1.c.homeCheck p = .ok n
  free : r.1.c.writeHeld p = false

/-- A packet for the collective engine in the arrivals is taken (R280, R383, R462): it came whole, from no expelled module, finds a
flow record of its class, and is fresh there. -/
structure State.Arrives (s : State) (type cls : Nat) (p : Pkt) : Prop where
  whole : pktOk p = true ∧ p.type = type ∧ s.ctl.fabric.arrivals.contains p = true ∧ p.crcOk = true
  trusted : ((s.ctl.jobs.get? p.job).any fun j => j.expelled.contains p.src) = false
  record : s.ctl.noRecord (4 * p.src + cls) = false
  fresh : s.ctl.seen (4 * p.src + cls) p.flowSeq = .fresh

/-- A packet of the collective engine is acknowledged under its class, and then has the effect g. -/
def ackedThen (cls : Nat) (p : Pkt) (g : W → W) (w : W) : W :=
  g (((w.on (Ctl.takeArrival p)).on (Ctl.mark (4 * p.src + cls) p.flowSeq .ack)).on (Ctl.sendAck p))

/-- A TSP message of a type is taken (R472, R473): it comes in on a usable port while the engine's firmware runs, its TAG verifies,
it is well-formed and its MSG_SEQ fresh; `c` is the module with what that counts. -/
structure State.TakesTsp (s : State) (type : Nat) (m : Tsp) (c : Ctl) : Prop where
  whole : m.ok = true ∧ m.type = type
  runs : s.ctl.rc.run = 3 ∧ s.ctl.ethIn m.port = true
  verified : (s.ctl.ethTake m.port).tspTake m = (true, c)

/-- Command i changes the Tally by f, and of the rest only what the RC makes of the Tally's entry over the readout path (R571). -/
def Meters (s : State) (i : Instr) (f : Tally → Tally) : Prop :=
  let t : State := { s with tally := f s.tally }
  exec i s = .next (t.land (t.world.on fun c => if c.rc.run = 3 then c.tallyEntry t.tally else c))

/-- A datagram of an open remote session is taken (R537, R539): it comes in on a port that serves remote mailboxes, it is well-formed,
its TAG verifies under the session's key and its DGRAM_SEQ is fresh; the session has pair n. -/
structure State.TakesDgram (s : State) (type : Nat) (g : Dgram) (n : Nat) (p : Pair) (r : Remote) : Prop where
  whole : g.ok = true ∧ g.type = type ∧ s.ctl.mgmtOn g.port = true
  session : (s.ctl.ethTake g.port).remotePair g.session = some (n, p, r)
  verified : g.formed = true ∧ g.mac = kmac256 r.key g.bytes 128 "OLR"
  fresh : r.fresh g.seq = true

/-- The session of a datagram that is taken has seen it. -/
def Ctl.dgramSeen (g : Dgram) (n : Nat) (c : Ctl) : Ctl :=
  (c.ethTake g.port).updPair n fun p => { p with remote := p.remote.map (·.seen g.seq (c.ethTake g.port).tick) }

/-- A response or acknowledgement in the arrivals that came whole and completes the transaction t of its tag and number (R281):
`c` is the module without it. -/
structure State.Completes (s : State) (type : Nat) (p : Pkt) (seq : Nat) (t : Txn) (c : Ctl) : Prop where
  whole : pktOk p = true ∧ p.type = type ∧ s.ctl.fabric.arrivals.contains p = true ∧ p.crcOk = true
  matched : (s.ctl.takeArrival p).takeResp p.tag seq p.src = (some t, c)

/-- The tile of a dispatch, and the word its sequencer takes. -/
def State.tileOf (s : State) (d : Dispatch) : Tile := s.ctl.tile d.tile
def State.wordOf (s : State) (d : Dispatch) : Nat := (s.tileOf d).imem.getD (s.tileOf d).pc 0

/-- Command i changes nothing. -/
def Stays (s : State) (i : Instr) : Prop := exec i s = .next s

end Sys2Proof.Machine
end

