-- ==== Sys2Proof/Certificates/Slice0/Obligations.lean ====
section
/-! DEFINITION. The statements about the module, for the provers. In the titles and docstrings "log n" names an entry of the
assumption log. -/

open Sys2Proof Sys2Proof.Machine

/-! The block as a whole. -/

/-- A step takes the command at the front of the queue and carries it out with the rest waiting; on an empty queue TICK counts while
the tick island runs, VOTEs held to their rate go out, and nothing else changes (the model's choice, log 1); the table gives no row
bits, so no word spells a command. -/
def Obligations.StepTakesFrontCommand : Prop :=
  (∀ (s : State) (c : Instr) (rest : List Instr), s.pending = c :: rest → step s = exec c { s with pending := rest }) ∧
  (∀ s : State, s.pending = [] → s.ctl.power.tickOn = false → step s = .next s) ∧
  (∀ s : State, s.pending = [] → s.ctl.power.tickOn = true →
    let c := { s.ctl with power := { s.ctl.power with tick := (s.ctl.power.tick + 1) % 2 ^ 64 } }
    step s = .next { s with ctl := c.votesDue } ∧
    ((∀ k ∈ s.ctl.colls.colls.vals, k.owed = []) → step s = .next { s with ctl := c })) ∧
  ∀ (s : State) (n w : Nat), decodeTableWord n w = none ∧ s.withFetchWord n w = s

/-- Every command whose operands lie in its domain answers a next state and leaves the queue alone; one whose operands name nothing of
the module is refused, and nothing else is. -/
def Obligations.CommandsComplete : Prop :=
  ∀ (i : Instr) (s : State),
    (i.wf = true → ∃ t, exec i s = .next t ∧ t.pending = s.pending) ∧ (i.wf = false → exec i s = .refused .illFormed)

/-- Before its first cold start the module is without its input (R566): every readiness entry reads OFF, TICK stands, no pair is in
use, memory lists nothing and is in canonical form, the Tally has no power and no command waits. -/
def Obligations.ResetState : Prop :=
  State.reset.Sound ∧ State.reset.mem = Mem.empty ∧ State.reset.pending = [] ∧ (∀ i, State.reset.ctl.stateOf i = 0) ∧
  State.reset.ctl.power.tickOn = false ∧ State.reset.tally.powered = false ∧ State.reset.ctl.pairs = [] ∧
  ∀ k, State.reset.mem.read k = memDefault

/-- Every step keeps memory in canonical form. -/
def Obligations.StepKeepsMemoryCanonical : Prop := ∀ s t : State, s.Sound → step s = .next t → t.Sound

/-- The rows of the sealed Tally itself (chapter 22). -/
def tallyOwnRow : Instr → Bool
  | .tallyRecordFrame _ | .tallyEnrolment _ | .tallyReadout _ _ _ | .tallySample _ _ _ | .energyPulseEnd | .tallyCommit
  | .tallyTempRead _ | .tallyPowerUp _ | .tallyInputLost | .tallyMeshBreach => true
  | _ => false

/-- No step that is not a row of the Tally's own inputs changes anything of the Tally: no mailbox command, alarm or gesso step reaches
its counters, its log or its key (R607, R610). -/
def Obligations.OnlyTallyRowsChangeTally : Prop :=
  (∀ (s t : State) (c : Instr) (rest : List Instr), s.pending = c :: rest → tallyOwnRow c = false → step s = .next t →
    t.tally = s.tally) ∧
  ∀ s t : State, s.pending = [] → step s = .next t → t.tally = s.tally

/-- A hardware set of a status bit sets it and adds 1 to EVENT_COUNT in one action, even where the bit is already 1 (R65), in all
three kinds of status register; a W1C write clears exactly the bits written and leaves the count (R67). -/
def Obligations.StatusSetsAndClears : Prop :=
  ∀ (f : Fn) (b g n v k i : Nat), b < 3 → g < 16 → n < 256 → k < 16 →
    ((f.setInt b).intStatus = f.intStatus ||| 2 ^ b ∧ (f.setInt b).intCount = (f.intCount + 1) % 256) ∧
    ((f.setDma g).dmaStatus = f.dmaStatus ||| 2 ^ g ∧ (f.setDma g).dmaCount = (f.dmaCount + 1) % 256) ∧
    ((f.setMbx n).mbxStatus.getD (n / 16) 0 = f.mbxStatus.getD (n / 16) 0 ||| 2 ^ (n % 16) ∧
      (f.setMbx n).mbxCount.getD (n / 16) 0 = (f.mbxCount.getD (n / 16) 0 + 1) % 256) ∧
    ((f.w1cInt v).intStatus.testBit i = (f.intStatus.testBit i && !((v % 8).testBit i)) ∧ (f.w1cInt v).intCount = f.intCount) ∧
    ((f.w1cDma v).dmaStatus.testBit i = (f.dmaStatus.testBit i && !((v % 65536).testBit i)) ∧ (f.w1cDma v).dmaCount = f.dmaCount) ∧
    (((f.w1cMbx k v).mbxStatus.getD k 0).testBit i = ((f.mbxStatus.getD k 0).testBit i && !((v % 65536).testBit i)) ∧
      (f.w1cMbx k v).mbxCount = f.mbxCount)

/-- The RC judges a mailbox command by R523's checks in their order, answers the first that fails, and a refused command changes
nothing but its ring: LENGTH, SEQUENCE, NOT_NEGOTIATED, NO_SESSION or SESSION_ENDED, LOCKED at A2, ROLE_DENIED, then the items. A
command that cannot start yet changes nothing. -/
def Obligations.MailboxChecksInOrder : Prop :=
  ∀ (s : State) (k : Cmd) (h : Hdr) (args : List Arg) (refs : List Ref) (f : Ctx → W → Res), h.pair < 256 →
    let row := mbxRow k h args refs s f
    let p := s.ctl.pair h.pair
    let long := h.units ≠ unitsOf (max (argEnd args) (Ctl.inlineEnd refs)) ∨ s.ctl.unitLimit h.pair < h.units
    let late := if k.op = 0x0100 then h.seq ≠ 0 else h.seq ≠ p.expSeq
    (s.ctl.mbxReady h = false → row = .next s) ∧
    (s.ctl.mbxReady h = true →
      (long → row = .next (s.failed k h 0x0104 0)) ∧
      (¬ long → late → row = .next (s.failed k h 0x0106 0)) ∧
      (¬ long → ¬ late → p.st = .bound → k.op ≠ 0x0100 → row = .next (s.failed k h 0x0201 0)) ∧
      (¬ long → ¬ late → ¬ (p.st = .bound ∧ k.op ≠ 0x0100) →
        (s.ctl.alarms.gesso = true → k.gesso = false → row = .next (s.failed k h 0x0407 0)) ∧
        (s.ctl.alarms.gesso = false →
          (p.session = none → k.any = false → row = .next (s.failed k h (if p.ended then 0x0401 else 0x0202) 0)) ∧
          (p.session ≠ none ∨ k.any = true →
            (s.ctl.locked = true → k.lock = false → row = .next (s.failed k h 0x0407 0)) ∧
            (s.ctl.locked = false ∨ k.lock = true →
              (∀ x, p.session = some x → k.any = false → x.role ∉ k.roles → row = .next (s.failed k h 0x0403 0)) ∧
              (k.any = true ∨ (∃ x, p.session = some x ∧ x.role ∈ k.roles) →
                ∀ e, argFail args h.rsvdAt = some e → row = .next (s.failed k h e.1 e.2)))))))

/-- A response on a PCIe pair whose ring has room is written at the producer index with its PHASE, and the index passes it (R512);
where the ring is full or responses are held it is held behind them (R527); it never touches another pair. -/
def Obligations.ResponsesKeepOrder : Prop :=
  ∀ (c : Ctl) (n m op seq corr status detail : Nat) (body : List Byte), (c.pair n).remote = none →
    let p := c.pair n
    let msg : Msg := ⟨false, op, seq, corr, status, detail, c.tick, body, 0⟩
    let q := (c.respond n op seq corr status detail body).pair n
    let fits := msg.units ≤ p.rspN - Ctl.diff32 p.rspPi p.rspCi
    (p.held = [] → fits →
      q.rspPi = (p.rspPi + msg.units) % 2 ^ 32 ∧ q.held = [] ∧
      q.rspMsgs.getD (p.rspPi % p.rspN) msg = { msg with phase := (p.rspPi / p.rspN + 1) % 2 }) ∧
    (p.held ≠ [] ∨ ¬ fits → q = { p with held := p.held ++ [msg] }) ∧
    (m ≠ n → (c.respond n op seq corr status detail body).pair m = c.pair m)

/-- READINESS entries (R563, R564): SEALED shows before every other state; a change of the shown STATE adds 1 to CHANGE_COUNT and
sets READINESS in INT_STATUS of both functions; a change of REASON alone does not count; no change does nothing. -/
def Obligations.EntryChanges : Prop :=
  ∀ (c : Ctl) (i st reason : Nat),
    let e := c.entry i
    let d := c.postNow i st reason
    ((d.entry i).st = st ∧ (d.entry i).reason = reason) ∧
    (e.sealed = 0 → e.st ≠ st →
      (d.entry i).count = (e.count + 1) % 256 ∧ d.fnA.intStatus.testBit 0 = true ∧ d.fnB.intStatus.testBit 0 = true ∧
      d.shown i = (st, reason)) ∧
    (e.sealed = 0 → e.st = st → (d.entry i).count = e.count) ∧
    (e.sealed ≠ 0 → d.shown i = (5, e.sealed) ∧ (d.entry i).count = e.count) ∧
    (∀ j, j ≠ i → d.entry j = c.entry j)

/-- A write of bytes over memory's 64-byte lines (R206, R216, R217, R409, R416): a byte of a line that it covers whole, or that is not
poisoned, takes the new value; a poisoned line that it covers in part keeps its bytes and its poison; no other byte changes; poison
leaves exactly the lines covered whole. -/
def Obligations.WritesActByLine : Prop :=
  ∀ (b : Buf) (k i : Nat) (data : List Byte), b.mem.wf = true →
    let whole := fun l => k ≤ 64 * l ∧ 64 * l + 64 ≤ k + data.length
    let m := (b.write k data).mem
    m.wf = true ∧
    (i < data.length → whole ((k + i) / 64) ∨ b.mem.isPoisoned ((k + i) / 64) = false → m.read (k + i) = data.getD i 0) ∧
    (b.mem.isPoisoned (i / 64) = true → ¬ whole (i / 64) → m.read i = b.mem.read i ∧ m.isPoisoned (i / 64) = true) ∧
    (i < k ∨ k + data.length ≤ i → m.read i = b.mem.read i) ∧
    (m.isPoisoned i = true ↔ b.mem.isPoisoned i = true ∧ ¬ whole i)

/-- The flow record (R280): once a number is entered it is a duplicate, which the engine's receiver does not apply again,
acknowledges again and counts; a number 512 or more below the highest is discarded unacknowledged and counted; other flows stand. -/
def Obligations.FlowRecordsApplyOnce : Prop :=
  ∀ (c : Ctl) (w : W) (key key2 seq cls type : Nat) (r x : FlowRes) (p : Pkt) (f : W → Take),
    (c.mark key seq r).seen key seq = .copy r ∧
    (key2 ≠ key → (c.mark key seq r).seen key2 seq = c.seen key2 seq) ∧
    (p.type = type → w.c.fabric.arrivals.contains p = true → p.crcOk = true →
      (∀ j, w.c.jobs.get? p.job = some j → p.src ∉ j.expelled) → w.c.noRecord (4 * p.src + cls) = false →
      (w.c.seen (4 * p.src + cls) p.flowSeq = .copy x →
        w.engineTake type cls p f = ((w.on (Ctl.takeArrival p)).on (Ctl.countCopy (4 * p.src + cls))).on (Ctl.sendAck p)) ∧
      (w.c.seen (4 * p.src + cls) p.flowSeq = .below →
        w.engineTake type cls p f = (w.on (Ctl.takeArrival p)).on (Ctl.countCopy (4 * p.src + cls))))

/-- A response whose tag is free, or whose tag carries another flow sequence number, completes nothing and adds to DUPLICATES
(R282): no transaction changes, and a READ_RESP so discarded leaves at most room for what waits for a tag. -/
def Obligations.StrayResponsesDiscarded : Prop :=
  (∀ (s : State) (p : Pkt), pktOk p = true → p.type = 0x10 → s.ctl.fabric.arrivals.contains p = true → p.crcOk = true →
    s.ctl.fabric.lingering.get? p.tag = none → (∀ t, s.ctl.fabric.txns.get? p.tag = some t → t.pkt.flowSeq ≠ p.flowSeq) →
    Acts s (.readResp p) fun w => ((w.on (Ctl.takeArrival p)).on (Ctl.countDup (tagUnit p.tag))).tagFreed p.tag) ∧
  ∀ (c : Ctl) (tag seq src : Nat),
    (c.fabric.txns.get? tag = none → c.fabric.lingering.get? tag = none →
      c.takeResp tag seq src = (none, c.countDup (tagUnit tag))) ∧
    (∀ t, c.fabric.txns.get? tag = some t → t.pkt.flowSeq ≠ seq → c.takeResp tag seq src = (none, c.countDup (tagUnit tag))) ∧
    (c.countDup (tagUnit tag)).fabric.txns = c.fabric.txns ∧
    (c.countDup (tagUnit tag)).fabric.reqDup.getD (tagUnit tag) 0 = (c.fabric.reqDup.getD (tagUnit tag) 0 + 1) % 2 ^ 32

/-- The generator lanes (R103, R105): a draw of a lane advances it by the three shifts and returns its upper half; a lane that is not 0
and below 2^32 stays so; a seed gives 128 lanes, none of them 0. -/
def Obligations.GeneratorLanes : Prop :=
  ∀ (lanes : List Nat) (j v seed : Nat), v ≠ 0 → v < 2 ^ 32 → lanes[j]? = some v →
    (let a := v ^^^ (v <<< 13) % 2 ^ 32
     let b := a ^^^ (a >>> 17)
     let d := b ^^^ (b <<< 5) % 2 ^ 32
     drawLane lanes j = (d >>> 16, lanes.set j d) ∧ d ≠ 0 ∧ d < 2 ^ 32) ∧
    (seedLanes seed).length = 128 ∧ (∀ x ∈ seedLanes seed, x ≠ 0 ∧ x < 2 ^ 32)

/-- A conversion never changes a value that its target represents exactly (R78, R98, R102): the encoding comes back, under RNE and SR
alike, with SAT or without, and no overflow. -/
def Obligations.ExactValuesUnchanged : Prop :=
  ∀ (f : FmtSpec) (c : Nat) (sat : Bool) (r : Rnd), f ∈ [fBin32, fBin16, fBf16, fE4m3, fE5m2, fE3m2, fE2m3, fE2m1] →
    c < 2 ^ (1 + f.eb + f.fb) → (f.decode c).isFin = true →
    f.convert sat r (f.decode c) = ⟨c, false⟩

/-- MXINT8 (R85): the byte 0x80 is read as -2.0 (-128 of 64ths), a conversion into MXINT8 produces no 0x80, so each value that it
writes can be negated exactly. -/
def Obligations.Mxint8Symmetric : Prop :=
  ∀ (xs : List Fp) (lanes : List Nat) (sat sr : Bool), (fmtD 11 = .mxint8) ∧ (Fmt.value .mxint8 0x80 = .fin true 128 (-6)) ∧
    ∀ c ∈ (convRow 11 sat sr xs lanes).codes, c < 256 ∧ c ≠ 0x80 ∧
      ∃ d, d < 256 ∧ d ≠ 0x80 ∧ (signed 8 d = -signed 8 c)

/-- The blocks of a vector (Table 15-1): over C members they lie one behind another from element 0 to its last, each of COUNT / C
elements where C divides COUNT, and of lengths that differ by at most one where not (the model's choice, log 29). -/
def Obligations.BlocksPartitionVector : Prop :=
  ∀ (n c p q : Nat), 0 < c → p < c → q < c →
    blockLo n c 0 = 0 ∧ blockLo n c c = n ∧ blockLo n c p + blockLen n c p = blockLo n c (p + 1) ∧
    (c ∣ n → blockLen n c p = n / c) ∧ blockLen n c p ≤ blockLen n c q + 1 ∧ ((List.range c).map (blockLen n c)).sum = n

/-! The system commands (chapter 17). -/

/-- SYS_IDENTIFY, SYS_READINESS, SYS_EVENT_LOG_READ, SYS_CRED_LIST and JOB_STATUS answer the results of Tables 17-12 and
17-14 and change nothing else. The order of the log's and list's entries and the truncation to what fits are the model's
(log 27). -/
def Obligations.SystemReadsAnswer : Prop :=
  ∀ (s : State) (h : Hdr) (first count job : Nat) (j : Job),
    Reads s { op := 0x0104, any := true, lock := true, gesso := true } h [] [] (.sysIdentify h)
      (encode [.raw 1 (asciiBytes "TK90-M640-OA    "), .n 8 Config.serial.toNat, .n 4 0x00900100, .n 4 s.ctl.rc.fwVersion,
        .n 4 s.ctl.rc.epoch, .n 2 s.ctl.selfModule]) ∧
    Reads s { op := 0x0105, any := true, lock := true, gesso := true } h [] [] (.sysReadiness h)
      (encode ((List.range 64).map fun i => .n 4 (s.ctl.readyWord i))) ∧
    Reads s { op := 0x0108, roles := [0], lock := true } h
      [Arg.num 4 (decide (first < 2 ^ 32)), Arg.num 1 (1 ≤ count && count ≤ 16)] [] (.sysEventLogRead h first count)
      (encode [.list (fitting 8 (((s.ctl.rc.log.filter fun e => first ≤ e.seq).take count).map LogEvent.bytes))]) ∧
    Reads s { op := 0x0112, roles := [0] } h [Arg.num 2 (credOk first), Arg.num 1 (1 ≤ count && count ≤ 64)] []
      (.sysCredList h first count)
      (encode [.list (fitting 8 (((s.ctl.rc.creds.filter fun p => first ≤ p.1).take count).map fun p =>
        p.2.bytes p.1 ((s.ctl.consume { op := 0x0112, roles := [0] } h).sessionsOf p.1)))]) ∧
    (s.ctl.jobs.get? job = some j → (s.ctl.ctxOf h.pair).owns job = true →
      Reads s { op := 0x05E1, roles := [0, 1, 2], lock := true } h [Arg.num 2 (jobNumOk job)] [] (.jobStatus h job)
        (let count := fun (l : List Nat) => (l.filter (· = job)).length
        encode [bitmap 192 j.tiles, .raw 1 ((List.range 192).flatMap fun t =>
            leBytes 1 (if j.tiles.contains t then tileStCode (s.ctl.tile t).st else 0)),
          .n 2 (count (s.ctl.fabric.regions.vals.map (·.job))), .n 1 (count (s.ctl.chans.vals.map (·.job))),
          .n 2 (count (s.ctl.cqs.vals.map (·.job) ++ s.ctl.stackTab.vals.flatMap fun s => s.queues.vals.map (·.job))),
          .n 1 (count (s.ctl.colls.colls.vals.map (·.a.job))), .n 1 (count (s.ctl.colls.pipes.vals.map (·.a.job))),
          .n 1 (b2n j.ending)]))

/-- SYS_VERSION on a BOUND pair makes it NEGOTIATED at version 1.0 (R515 to R517); SYS_SESSION_CHALLENGE issues a challenge that
lives for 10 s (R519). -/
def Clause.VersionAndChallenge : Prop :=
  ∀ (s : State) (h : Hdr) (a b c d : Nat),
    ((s.ctl.pair h.pair).st = .bound → (a < 1 ∨ (a = 1 ∧ b = 0)) → 1 ≤ c →
      Does s { op := 0x0100, any := true, lock := true, gesso := true } h
        [Arg.num 1 (decide (a < 256)), Arg.num 1 (decide (b < 256)), Arg.num 1 (decide (c < 256)), Arg.num 1 (decide (d < 256))] []
        (.sysVersion h a b c d)
        (fun x => x.setPair h.pair { x.pair h.pair with st := .negotiated })
        (encode [.n 1 1, .n 1 0, .n 4 s.ctl.rc.epoch, .n 8 Config.serial.toNat, .n 1 h.pair])) ∧
    ((s.ctl.pair h.pair).st = .negotiated →
      Does s { op := 0x0101, any := true, lock := true } h [] [] (.sysSessionChallenge h)
        (fun x => x.draw.2.updPair h.pair fun p => { p with
          challenge := some (x.draw.1.toNat, x.tick + 10000000000) })
        (encode [.raw 8 (nonceBytes s.ctl.draw.1)]))

/-- SYS_SESSION_OPEN with the proof of R519 opens a session of the credential with the next session number, and a wrong proof
is PROOF_FAILED and counts against the credential. -/
def Clause.SessionOpens : Prop :=
  ∀ (s : State) (h : Hdr) (cred role m due : Nat) (nonce proof : List Byte) (k : Cred),
    (s.ctl.pair h.pair).st = .negotiated → (s.ctl.pair h.pair).challenge = some (m, due) → s.ctl.tick < due →
    s.ctl.rc.creds.get? cred = some k → ¬ s.ctl.tick < (s.ctl.rc.credFails.getD cred (0, 0)).2 →
    let args := [Arg.num 2 (credOk cred), Arg.num 1 (decide (role ≤ 3)), Arg.blk 32 (nonce.length = 32), Arg.blk 32 (proof.length = 32)]
    let c := s.ctl.consume { op := 0x0102, any := true, lock := true } h
    let good := k.role = role ∧ bit k.access (if (c.pair h.pair).remote.isSome then 2 else (c.pair h.pair).fn) = true ∧
      proof = sessionProof k.key m nonce h.pair cred role "OLM"
    (good →
      Lands s { op := 0x0102, any := true, lock := true } h args [] (.sysSessionOpen h cred role nonce proof)
        (W.on fun c => (((c.updPair h.pair fun p => { p with challenge := none }).onRc fun r => { r with
            credFails := Tab.del cred r.credFails }).onRc fun r => { r with
            nextSession := if s.ctl.rc.nextSession + 1 < 2 ^ 32 then s.ctl.rc.nextSession + 1 else 1 }).updPair h.pair fun p =>
          { p with
            st := .opened
            session := some { id := s.ctl.rc.nextSession, cred, role, jobs := k.jobs }
            ended := false })
        (encode [.n 4 s.ctl.rc.nextSession, .raw 8 (sessionProof k.key m nonce h.pair cred role "OLK")])
        (W.on (Ctl.tellTrial h.pair))) ∧
    (¬ good → accepts { op := 0x0102, any := true, lock := true } h args [] s = true →
      exec (.sysSessionOpen h cred role nonce proof) s = .next (s.land (((s.taken { op := 0x0102, any := true, lock := true } h).on
        fun c => (c.updPair h.pair fun p => { p with challenge := none }).openFailed cred).on
        (Ctl.answer { op := 0x0102, any := true, lock := true } h 0x0402 0 []))))

/-- SYS_SESSION_CLOSE, taken once no command of the pair executes, ends the session of a PCIe pair and unbinds a remote pair
(R509, R541), and SYS_PAIR_RELEASE unbinds the pair, each after its response. -/
def Clause.SessionEnds : Prop :=
  ∀ (s : State) (h : Hdr),
    ((s.ctl.pair h.pair).started = 0 →
      Lands s { op := 0x0103, lock := true } h [] [] (.sysSessionClose h) id [] (W.on fun c =>
        if (c.pair h.pair).remote.isSome then c.unbind h.pair else c.endSession h.pair)) ∧
    Lands s { op := 0x0106, any := true, lock := true } h [] [] (.sysPairRelease h) id [] (W.on (Ctl.unbind h.pair))

/-- The commands of a session's life: version and challenge, open, close and release (R509, R515 to R519, R541). -/
def Obligations.SessionCommands : Prop := Clause.VersionAndChallenge ∧ Clause.SessionOpens ∧ Clause.SessionEnds

/-- SYS_CRED_CREATE, SYS_CRED_REVOKE, SYS_OWNER_CLAIM and SYS_REMOTE_SET change the credential table and the remote mailbox's
settings as Table 17-12, R518, R520 and R521 say; JOB_CREATE makes a job of tiles that belong to none (R533). -/
def Obligations.SystemWrites : Prop :=
  ∀ (s : State) (h : Hdr) (cred role access n e0 e1 port job : Nat) (key : List Byte) (jobs tiles : List Nat) (k : Cred),
    (credOk cred = true → s.ctl.rc.creds.has cred = false → (role ≠ 1 → jobs = []) → jobs.length ≤ 16 →
      (∀ j ∈ jobs, 1 ≤ j ∧ j < 65536) →
      Does s { op := 0x0110, roles := [0] } h
        ([Arg.num 2 (credOk cred || cred = 0xFFFF), Arg.num 1 (decide (role ≤ 3)), Arg.blk 32 (key.length = 32)]
          ++ listArgs jobs.length (decide (jobs.length ≤ 16) && jobs.all fun j => 1 ≤ j && j < 65536)
          ++ [Arg.num 1 (decide (access < 8))])
        (inlineBlocks h ([Arg.num 2 (credOk cred || cred = 0xFFFF), Arg.num 1 (decide (role ≤ 3)), Arg.blk 32 (key.length = 32)]
          ++ listArgs jobs.length (decide (jobs.length ≤ 16) && jobs.all fun j => 1 ≤ j && j < 65536)
          ++ [Arg.num 1 (decide (access < 8))]) (listBlocks jobs.length))
        (.sysCredCreate h cred role key jobs access)
        (Ctl.onRc fun r => { r with creds := Tab.set cred ⟨role, key, jobs, access⟩ r.creds }) (encode [.n 2 cred])) ∧
    (s.ctl.rc.creds.get? cred = some k → (k.role = 0 → 2 ≤ (s.ctl.rc.creds.vals.filter (·.role = 0)).length) →
      Lands s { op := 0x0111, roles := [0] } h [Arg.num 2 (credOk cred)] [] (.sysCredRevoke h cred)
        (W.on (Ctl.onRc fun r => { r with creds := Tab.del cred r.creds })) [] (W.on (Ctl.endSessionsOf cred))) ∧
    ((s.ctl.pair h.pair).st = .negotiated → (s.ctl.pair h.pair).remote = none → (∀ k ∈ s.ctl.rc.creds.vals, k.role ≠ 0) →
      s.ctl.rc.creds.firstFree 1 1023 = some n →
      Does s { op := 0x0113, any := true, lock := true } h [Arg.blk 32 (key.length = 32), Arg.num 1 (decide (access < 8))] []
        (.sysOwnerClaim h key access)
        (fun c => ((c.onRc fun r => { r with creds := Tab.set n ⟨0, key, [], access⟩ r.creds }).openSession h.pair n 0 []).2)
        (encode [.n 2 n, .n 4 s.ctl.rc.nextSession])) ∧
    Does s { op := 0x0140, roles := [0] } h
      [Arg.num 1 (decide (e0 < 2)), Arg.num 1 (decide (e1 < 2)), Arg.num 2 (decide (port < 65536))] [] (.sysRemoteSet h e0 e1 port)
      (Ctl.onRc fun r => { r with
        enE0 := e0 = 1
        enE1 := e1 = 1
        mgmtPort := port }) (encode [.n 1 e0, .n 1 e1, .n 2 port]) ∧
    (s.ctl.jobs.has job = false → (∀ t ∈ tiles, s.ctl.jobOfTile t = none) → s.ctl.jobs.length < 64 →
      Does s { op := 0x05E0, roles := [0] } h [Arg.num 2 (jobNumOk job), Arg.blk 24 (tiles.all (· < 192))] []
        (.jobCreate h job tiles)
        (fun c => { c with jobs := Tab.set job { tiles := tiles.foldl (fun l t => insNat t l) [] } c.jobs }) [])

/-- A setup of an UNBOUND pair binds it with the sizes of its block (R510); CMD_PI, RSP_CI and EVT_CI move the indices of a pair
bound to the function where the new value is one the ring allows, else BAD_INDEX counts (R511, R512, R527, R536); a challenge
lives for 10 s (R519). -/
def Obligations.MailboxDoorbells : Prop :=
  ∀ (s : State) (fn n addr v k m due : Nat) (b : SetupBlock), fn < 2 →
    (n < 224 → (s.ctl.pair n).st = .unbound → s.ctl.rc.run = 3 → addr % 64 = 0 → setupOk b = true →
      Moves s (.doorbellSetup fn n addr b) fun c => c.setPair n {
        st := .bound, fn, cmdRing := b.cmdRing, rspRing := b.rspRing, evtRing := b.evtRing, indexAddr := b.indexAddr
        cmdN := 2 ^ b.cmdLog2, rspN := 2 ^ b.rspLog2, evtN := 2 ^ b.evtLog2, setupResult := 1 }) ∧
    (n < 224 → (s.ctl.pair n).st ≠ .unbound → (s.ctl.pair n).fn = fn →
      (Ctl.diff32 v (s.ctl.pair n).cmdPi < 2 ^ 31 → Ctl.diff32 v (s.ctl.pair n).cmdCi ≤ (s.ctl.pair n).cmdN →
        Moves s (.cmdPiDoorbell fn n v) fun c => c.updPair n fun p => { p with cmdPi := v % 2 ^ 32 }) ∧
      ((s.ctl.pair n).cmdN < Ctl.diff32 v (s.ctl.pair n).cmdCi →
        Moves s (.cmdPiDoorbell fn n v) fun c => c.updPair n fun p => { p with badIndex := inc32 p.badIndex }) ∧
      (widenIndex (v % 65536) (s.ctl.pair n).rspCi (s.ctl.pair n).rspPi = some k →
        Moves s (.rspCiWrite fn n v) fun c => (c.updPair n fun p => { p with rspCi := k }).drainHeld 64 n) ∧
      (widenIndex (v % 65536) (s.ctl.pair n).evtCi (s.ctl.pair n).evtPi = some k →
        Moves s (.evtCiWrite fn n v) fun c => (c.updPair n fun p => { p with evtCi := k }).evtsLost n)) ∧
    (n < 256 → (s.ctl.pair n).challenge = some (m, due) → due ≤ s.ctl.tick →
      Moves s (.challengeExpire n) fun c => c.updPair n fun p => { p with challenge := none })

/-! The host's registers, the PCIe ports and Ethernet (chapters 17 and 18). -/

/-- HOST_PORT_STATUS, ETH_PORT_STATUS, TELEM_SENSORS and TELEM_POWER answer the results of Tables 18-6, 20-6 and 20-7. -/
def Obligations.HostReadsAnswer : Prop :=
  ∀ (s : State) (h : Hdr) (port : Nat),
    Reads s { op := 0x0130, roles := [0, 2], lock := true } h [Arg.num 1 (decide (port < 2))] [] (.hostPortStatus h port)
      (let f := s.ctl.fn port
      encode [.n 1 (s.ctl.stateOf (1 + port)), .n 1 f.width, .n 1 f.rate, .n 2 f.mps, .n 2 f.mrrs, .n 4 f.correctable,
        .n 4 f.replays, .n 4 f.urSent, .n 4 f.cplTimeouts, .n 4 f.poisonedCpl, .n 4 f.linkDowns, .n 4 f.resets]) ∧
    Reads s { op := 0x0135, roles := [0, 2], lock := true } h [Arg.num 1 (decide (port < 2))] [] (.ethPortStatus h port)
      (let e := s.ctl.ethPort port
      encode [.n 1 (s.ctl.stateOf (52 + port)), .n 8 (Config.macAddress port).toNat, .n 1 e.cfg.enable, .n 4 e.cfg.ip,
        .n 1 e.cfg.pfx, .n 4 e.cfg.gateway, .n 2 e.cfg.vlan, .n 1 e.cfg.jumbo, .n 8 e.framesRx, .n 8 e.framesTx, .n 8 e.fcsErr,
        .n 8 e.fecCorrected, .n 8 e.fecUncorrectable, .n 8 e.rxOverflow, .n 8 e.discarded]) ∧
    Reads s { op := 0x0701, roles := [0, 2], lock := true } h [] [] (.telemSensors h) (sensorBytes s.ctl.power) ∧
    Reads s { op := 0x0702, roles := [0, 1], lock := true } h [] [] (.telemPower h) (powerBytes s.ctl.power)

/-- The registers of BAR0 (R67, R506, R549, Table 17-1): a W1C write to INT_STATUS clears its bits before the sets that meet it
apply; TICK_LO latches TICK_HI; a write to INT_MASK, DMA_GROUP_MASK or an MBX_MASK stores the mask; an unmask sends what was
pending. Nothing but the function's own registers changes. -/
def Clause.HostRegisters : Prop :=
  ∀ (s : State) (fn v vector k : Nat) (meets : List Nat), fn < 2 →
    Moves s (.statusW1cWrite fn 0xC00 v meets) (fun c =>
      (meets.filter (· < 3)).foldl (fun c b => c.updFn fn (Fn.setInt b)) (c.updFn fn (Fn.w1cInt v))) ∧
    Moves s (.statusW1cWrite fn 0xC08 v meets) (fun c =>
      (meets.filter (· < 16)).foldl (fun c b => c.updFn fn (Fn.setDma b)) (c.updFn fn (Fn.w1cDma v))) ∧
    (k < 14 → Moves s (.statusW1cWrite fn (0xC40 + 4 * k) v meets) (fun c =>
      (meets.filter (· < 16)).foldl (fun c b => c.updFn fn (Fn.setMbx (16 * k + b))) (c.updFn fn (Fn.w1cMbx k v)))) ∧
    Moves s (.tickLoRead fn) (Ctl.updFn fn fun f => { f with
      tickLoData := s.ctl.tick % 2 ^ 32
      tickHi := s.ctl.tick / 2 ^ 32 % 2 ^ 32 }) ∧
    Moves s (.registerWrite fn 0xC04 4 v) (Ctl.updFn fn fun f => { f with intMask := v % 2 ^ 32 % 8 }) ∧
    Moves s (.registerWrite fn 0xC0C 4 v) (Ctl.updFn fn fun f => { f with dmaMask := v % 2 ^ 32 % 65536 }) ∧
    (k < 14 → Moves s (.registerWrite fn (0xC80 + 4 * k) 4 v) (Ctl.updFn fn fun f => { f with
      mbxMask := Tab.set k (v % 2 ^ 32 % 65536) f.mbxMask })) ∧
    (vector < 33 → Moves s (.msixUnmask fn vector) (Ctl.updFn fn fun f =>
      ({ f with vecMask := clearBits f.vecMask (2 ^ vector) }).flush))

/-- What a read of BAR0 returns (R14, R15, R506, Table 17-1): the identity words, the latched TICK_HI, a mask as it was last written,
the registers of a channel's live window; 0 of what is reserved, of what only writes act on, of a window that is not live, and for a
read that is not 4 or 8 bytes naturally aligned; 8 bytes are two words. -/
def Clause.RegisterReads : Prop :=
  ∀ (c : Ctl) (fn n off width v : Nat) (x : DmaChan), fn < 2 →
    let reserved := fun (lo hi : Nat) => lo ≤ off ∧ off < hi
    (c.barRead fn 0x00 4 = 0x30394B54 ∧ c.barRead fn 0x04 4 = 0x00900100 ∧ c.barRead fn 0x08 4 = fn ∧ c.barRead fn 0x0C 4 = 0x100 ∧
      c.barRead fn 0x10 4 = Config.serial.toNat % 2 ^ 32 ∧ c.barRead fn 0x18 4 = c.rc.epoch ∧ c.barRead fn 0x24 4 = (c.fn fn).tickHi) ∧
    ((c.wordWrite fn 0xC04 v).barRead fn 0xC04 4 = v % 8 ∧ (c.wordWrite fn 0xC0C v).barRead fn 0xC0C 4 = v % 65536) ∧
    (reserved 0x28 0x100 ∨ reserved 0x200 0x400 ∨ reserved 0xC10 0xC40 ∨ reserved 0xCC0 0x1000 ∨ reserved 0x2000 0x10000 →
      c.barRead fn off 4 = 0) ∧
    (n < 64 → off < 64 → c.windowLive fn n = false → c.barRead fn (0x1000 + 64 * n + off) 4 = 0) ∧
    (n < 64 → c.windowLive fn n = true → c.chans.get? n = some x →
      c.barRead fn (0x1000 + 64 * n) 4 = x.pi % 2 ^ 32 ∧ c.barRead fn (0x1000 + 64 * n + 8) 4 = chanStatusWord x ∧
      c.barRead fn (0x1000 + 64 * n + 0x0C) 4 = 0) ∧
    (off % width ≠ 0 ∨ 65536 ≤ off ∨ (width ≠ 4 ∧ width ≠ 8) → c.barRead fn off width = 0) ∧
    (off < 65536 → off % 8 = 0 → c.barRead fn off 8 = c.barRead fn (off + 4) 4 * 2 ^ 32 + c.barRead fn off 4)

/-- The PCIe ports (R545, R547, R550): PERST# and its end, training ended at width and rate, the timeout of training, an
unsupported request, and the resets of a function. -/
def Clause.PciePorts : Prop :=
  ∀ (s : State) (fn cause width rate : Nat), fn < 2 →
    ((s.ctl.fn fn).linkUp = true → cause = 2 ∨ cause = 4 → Acts s (.functionReset fn cause) (W.on (Ctl.fnReset fn))) ∧
    ((s.ctl.fn fn).perst = false → Acts s (.functionReset fn 0) (W.on fun c => ((c.fnReset fn).updFn fn fun f => { f with
      perst := true, linkUp := false, width := 0, rate := 0 }).post (1 + fn) 0 2)) ∧
    ((s.ctl.fn fn).perst = true → s.ctl.rc.started = true → Acts s (.perstDeassertion fn)
      (W.on fun c => (c.updFn fn fun f => { f with perst := false }).pcieTrain fn)) ∧
    ((s.ctl.fn fn).perst = false → s.ctl.rc.started = true → s.ctl.stateOf (1 + fn) ≠ 4 → width ∈ [1, 2, 4, 8] → 1 ≤ rate → rate ≤ 6 →
      Acts s (.pcieLinkTrained fn width rate) (W.on fun c =>
        let c := c.updFn fn fun f => { f with
          linkUp := true
          width := width
          rate := rate }
        if width = 8 ∧ rate = 6 then c.post (1 + fn) 2 0 else c.post (1 + fn) 3 9)) ∧
    ((s.ctl.entry (1 + fn)).st = 1 → (s.ctl.fn fn).trainStart + 1000000000 ≤ s.ctl.tick →
      Acts s (.pcieTrainingTimeout fn) (W.on (Ctl.post (1 + fn) 4 0x0E))) ∧
    ((s.ctl.fn fn).linkUp = true → Moves s (.unsupportedRequestTlp fn)
      (Ctl.updFn fn fun f => { f with urSent := inc32 f.urSent }))

/-- Ethernet (R555 to R557, R559): a frame with a bad check sequence is counted and discarded; one for the port's own address and
the serving or management UDP port is received; PCS alignment and a fault of the K8 optics settle the port's state, as
ETH_CONFIG_SET does. -/
def Clause.EthernetPorts : Prop :=
  ∀ (s : State) (h : Hdr) (port : Nat) (f : EthFrame) (aligned : Bool) (cfg : EthCfg), port < 2 →
    (s.ctl.stateOf (52 + port) = 2 → f.fcsOk = false → Moves s (.ethFrameReceive port f) fun c =>
      ((c.updEth port fun e => { e with framesRx := e.framesRx + 1 }).updEth port fun e => { e with fcsErr := e.fcsErr + 1 }).updEth port
        fun e => { e with discarded := e.discarded + 1 }) ∧
    (s.ctl.stateOf (52 + port) = 2 → f.fcsOk = true → f.len ≤ 1522 → f.vlan = (s.ctl.ethPort port).cfg.vlan → f.fragment = false →
      f.options = false → (s.ctl.ethPort port).cfg.ip ≠ 0 → f.dst = 0 → f.proto = 2 → f.toIp = (s.ctl.ethPort port).cfg.ip →
      f.udpPort = s.ctl.serve.port ∨ f.udpPort = s.ctl.rc.mgmtPort →
      (s.ctl.ethPort port).rxQ.foldl (· + ·) 0 + f.len ≤ 4194304 →
      Moves s (.ethFrameReceive port f) fun c => (c.updEth port fun e => { e with framesRx := e.framesRx + 1 }).updEth port fun e => { e with
        rxQ := e.rxQ ++ [f.len] }) ∧
    Acts s (.ethPcsChange port aligned) (W.on fun c => (c.updEth port fun e => { e with aligned := aligned }).settleEth port) ∧
    Acts s (.k8OpticsFault port) (W.on fun c => (c.updEth port fun e => { e with fault := true }).settleEth port) ∧
    Lands s { op := 0x0134, roles := [0] } h
      [Arg.num 1 (decide (port < 2)), Arg.num 1 (decide (cfg.enable < 2)), Arg.num 4 (decide (cfg.ip < 2 ^ 32)),
        Arg.num 1 (8 ≤ cfg.pfx && cfg.pfx ≤ 30), Arg.num 4 (decide (cfg.gateway < 2 ^ 32)), Arg.num 2 (decide (cfg.vlan ≤ 4094)),
        Arg.num 1 (decide (cfg.jumbo < 2))] [] (.ethConfigSet h port cfg)
      (W.on fun c => (c.updEth port fun e => { e with
        cfg := cfg
        fault := e.fault && cfg.enable = 1 }).settleEth port)
      (encode [.n 1 cfg.enable, .n 4 cfg.ip, .n 1 cfg.pfx, .n 4 cfg.gateway, .n 2 cfg.vlan, .n 1 cfg.jumbo]) id

/-- The rows of the host's PCIe functions and of the Ethernet ports (chapters 17 and 18). -/
def Obligations.HostAndEthernetPorts : Prop :=
  Clause.HostRegisters ∧ Clause.RegisterReads ∧ Clause.PciePorts ∧ Clause.EthernetPorts

/-! The tiles (chapters 5 and 6). -/

/-- HOLD takes its committed entries and enters the hold mover (R144, R179). The instructions that only the sequencer carries out: GLAZE in define form
writes its descriptor (Table 6-8), MARK records its range, REPLAY starts it, LOOP pushes a level with B1 to B3 saved, END stops
dispatch (R144, R172 to R174, R183, R197, R198). -/
def Clause.SequencerInstructions : Prop :=
  ∀ (s : State) (d : Dispatch),
    let t := s.tileOf d
    let w := s.wordOf d
    (canDispatch d (opIs 0x04) s = true → Dispatches s d (.tileHold d) (W.on fun c => c.setTile d.tile
      ((t.takeCommitted (bits w 22 16 + 1) (bits w 26 23 + 1) ((t.row 0).committed.headD 0)).enqueue w 0 fun f => { f with
        fmt := (t.row 0).committed.headD 0
        total := bits w 26 23 + 1 }).advance)) ∧
    (canDispatch d (fun w => opIs 0x08 w && !bit w 16) s = true →
      let g : Glaze :=
        { op := bits w 21 20, opFmt := bits w 25 22, opAddr := bits w 41 26, opPitch := bits w 53 42, scaleEn := bits w 54 54
          scaleAddr := bits w 70 55, outFmt := bits w 74 71, outAddr := bits w 90 75, outPitch := bits w 102 91
          sat := bits w 103 103, rnd := bits w 104 104, outScale := bits w 120 105 }
      Dispatches s d (.glazeDefine d) (W.on fun c => c.setTile d.tile { t with glazes := Tab.set (bits w 19 17) g t.glazes }.advance)) ∧
    (canDispatch d (opIs 0x0E) s = true → Dispatches s d (.tileMark d) (W.on fun c => c.setTile d.tile
      { t with ranges := Tab.set (bits w 19 16) (t.pc + 1, t.pc + bits w 29 20) t.ranges }.advance)) ∧
    (canDispatch d (opIs 0x0F) s = true → Dispatches s d (.tileReplay d) (W.on fun c => c.setTile d.tile { t with
      pc := (t.ranges.getD (bits w 19 16) (0, 0)).1
      replay := some ⟨bits w 19 16, (t.ranges.getD (bits w 19 16) (0, 0)).2, t.pc + 1, bits w 35 20, bits w 51 36, bits w 89 52,
        t.loops.length⟩ })) ∧
    (canDispatch d (opIs 0x10) s = true → Dispatches s d (.tileLoop d) (W.on fun c => c.setTile d.tile { t with
      pc := t.pc + 1
      loops := ⟨t.pc + 1, t.pc + bits w 25 16, bits w 41 26 - 1, [t.b1, t.b2, t.b3], [bits w 57 42, bits w 73 58, bits w 89 74]⟩
        :: t.loops })) ∧
    (canDispatch d (opIs 0x11) s = true → Dispatches s d (.endProgram d) (W.on fun c => c.setTile d.tile { t with ending := true }))

/-- WAIT takes its tokens where they are there and holds the sequencer where not, with the TIMEOUT of its word; SIGNAL with AFTER
clear is sent at once; FENCE passes once nothing of its classes is in flight (R191 to R193, R196). -/
def Clause.TokenInstructions : Prop :=
  ∀ (s : State) (d : Dispatch),
    let t := s.tileOf d
    let w := s.wordOf d
    (canDispatch d (opIs 0x0B) s = true → bits w 35 20 ≤ t.token (bits w 19 16) → Dispatches s d (.tileWait d) (W.on fun c =>
      c.setTile d.tile { t with
        shortfall := Tab.del (bits w 19 16) t.shortfall
        tokens := Tab.set (bits w 19 16) (t.token (bits w 19 16) - bits w 35 20) t.tokens }.advance)) ∧
    (canDispatch d (opIs 0x0B) s = true → t.token (bits w 19 16) < bits w 35 20 → Dispatches s d (.tileWait d) (W.on fun c =>
      c.setTile d.tile { t with
        shortfall := Tab.del (bits w 19 16) t.shortfall
        wait := some ⟨bits w 19 16, bits w 35 20,
          if bits w 51 36 = 0 then none else some (s.ctl.tick + 1024 * bits w 51 36)⟩ })) ∧
    (canDispatch d (opIs 0x0C) s = true → bit w 44 = false → Dispatches s d (.tileSignal d) (W.on fun c =>
      (c.setTile d.tile t.advance).sendSignal d.tile ⟨bits w 43 36, bits w 19 16, bits w 35 20, t.inflight.map (·.id)⟩)) ∧
    (canDispatch d (opIs 0x0D) s = true → (∀ f ∈ t.inflight, bit w (16 + f.cls) = false) → Dispatches s d (.tileFence d) (W.on fun c =>
      c.setTile d.tile t.advance))

/-- The sequencer's own instructions and those of the token counters (chapter 6). -/
def Obligations.SequencerAndTokens : Prop := Clause.SequencerInstructions ∧ Clause.TokenInstructions

/-- What the computing instructions do at dispatch: each enters its unit with the steps that it owes, FEED with its entries
committed and its fetches begun (R142, R179), MMA and CONV with the stream buffer fetching (R149), EW and GLAZE with a row a step
for the element lanes (R160); an array instruction with a bind-off and a GLAZE take a copy of their descriptor (R183). -/
def Clause.UnitEntries : Prop :=
  ∀ (s : State) (d : Dispatch),
    let t := s.tileOf d
    let w := s.wordOf d
    (canDispatch d (opIs 0x05) s = true → Dispatches s d (.tileMma d) fun x =>
      (x.on fun c => c.setTile d.tile (t.enqueue w (bits w 99 96) fun f => { f with
        total := issueSteps (bits w 19 16) (bits w 23 20) (bits w 32 24 + 1)
        glaze := if bits w 87 86 = 2 then t.glaze (bits w 95 93) else {} }).advance).streamPump d.tile 256) ∧
    (canDispatch d (opIs 0x06) s = true → Dispatches s d (.tileConv d) fun x =>
      (x.on fun c => c.setTile d.tile (t.enqueue w (bits w 123 120) fun f => { f with
        total := issueSteps (bits w 19 16) (bits w 23 20) (convTaps w)
        glaze := if bits w 112 111 = 2 then t.glaze (bits w 119 117) else {} }).advance).streamPump d.tile 256) ∧
    (canDispatch d (opIs 0x07) s = true → Dispatches s d (.tileEw d) (W.on fun c =>
      c.setTile d.tile (t.enqueue w (bits w 98 95) fun f => { f with laneRows := bits w 90 81 + 1 }).advance)) ∧
    (canDispatch d (fun w => opIs 0x08 w && bit w 16) s = true → Dispatches s d (.glazeApply d) (W.on fun c =>
      c.setTile d.tile (t.enqueue w (bits w 32 29) fun f => { f with
        laneRows := bits w 28 22 + 1
        glaze := t.glaze (bits w 19 17) }).advance)) ∧
    (canDispatch d (opIs 0x03) s = true → Dispatches s d (.tileFeed d) fun x =>
      (x.on fun c => c.setTile d.tile ((t.commit (bits w 58 52 + 1) (bits w 19 16) (bits w 51 48 + 1)).enqueue w 0 fun f => { f with
        fmt := bits w 19 16
        total := (bits w 58 52 + 1) * (bits w 51 48 + 1) }).advance).feedPump d.tile 4096)

/-- A step of the units issues a step of the first array instruction that owes one, and only where it has a pacing token (R51), its
stream entries (R140, R141) and, of the last step of a draining instruction, 128 steps after the last such step (R157): the token
and the entries are gone. -/
def Clause.IssueSteps : Prop :=
  ∀ t : Tile, t.arrayStep = t ∨ ∃ f ∈ t.inflight, f.unit = 3 ∧ f.issued < f.total ∧
    0 < t.gauge ∧ t.arrayStep.gauge = t.gauge - 1 ∧
    entriesPer f.array.fh ≤ t.stream.length ∧ t.arrayStep.stream = t.stream.drop (entriesPer f.array.fh) ∧
    (f.issued + 1 = f.total → f.array.accEnd ≠ 0 → t.sinceDrain = 128 ∧ t.arrayStep.sinceDrain = 0)

/-- HOLD moves entries whole: what a row holds in its queue and its fetches only falls, so the slots that R286 counts stay within 16,
and a step of the array touches no row. -/
def Clause.RowsStayWithin : Prop :=
  ∀ (t : Tile) (i : Nat), (t.row i).queue.length + (t.row i).fly.length ≤ 16 →
    (t.tickStep.row i).queue.length + (t.tickStep.row i).fly.length ≤ 16 ∧
    (t.holdStep.row i).queue.length + (t.holdStep.row i).fly.length ≤ 16 ∧ t.arrayStep.rows = t.rows

/-- The computing instructions at dispatch, and what a step of the units then does. -/
def Obligations.ComputeInstructions : Prop := Clause.UnitEntries ∧ Clause.IssueSteps ∧ Clause.RowsStayWithin

/-- The instructions of the mesh port enter its units and start what can start: LOAD and STORE with the lines of their boxes,
SEND and RECV with their partner, channel and bytes (R175, R188). -/
def Obligations.MeshInstructions : Prop :=
  ∀ (s : State) (d : Dispatch),
    let t := s.tileOf d
    let w := s.wordOf d
    (canDispatch d (opIs 0x01) s = true → Dispatches s d (.tileLoad d) fun x =>
      (x.on fun c => c.setTile d.tile (t.enqueue w (bits w 127 124) fun f => { f with
        move := some (moveOf s.ctl d.tile t w false) }).advance).meshPump 4 d.tile) ∧
    (canDispatch d (opIs 0x02) s = true → Dispatches s d (.tileStore d) fun x =>
      (x.on fun c => c.setTile d.tile (t.enqueue w (bits w 127 124) fun f => { f with
        move := some (moveOf s.ctl d.tile t w true) }).advance).meshPump 4 d.tile) ∧
    (canDispatch d (opIs 0x09) s = true → Dispatches s d (.tileSend d) fun x =>
      (x.on fun c => c.setTile d.tile (t.enqueue w (bits w 62 59) fun f => { f with
        xfer := some {
          partner := bits w 23 16, chan := bits w 27 24, len := 32 * (bits w 58 45 + 1)
          addr := (if bit w 28 then accBase d.tile else opBase d.tile) + rebased (bits w 44 29) (t.ra w) } }).advance).meshPump 4
        d.tile) ∧
    (canDispatch d (opIs 0x0A) s = true → Dispatches s d (.tileRecv d) fun x =>
      (x.on fun c => c.setTile d.tile (t.enqueue w (bits w 63 60) fun f => { f with
        xfer := some {
          partner := bits w 23 16, chan := bits w 27 24, len := 32 * (bits w 59 46 + 1), merge := bit w 29
          addr := (if bit w 28 then accBase d.tile else opBase d.tile) + rebased (bits w 45 30) (t.rb w) } }).advance).meshPump 4
        d.tile)

/-- What happens at a tile between dispatches: an instruction that has done all it does leaves its unit and raises its
DONE_TOKEN (R166), END's tile becomes IDLE once all is complete and tells its starter (R174), a WAIT times out into a fault
(R192), and ARRAY_STEP is one step of the tile's units (R51, R141, R160), with what its slots held back of the mesh. -/
def Clause.TileEvents : Prop :=
  ∀ (s : State) (n idx due : Nat) (f : Inflight) (x : TileWait), n < 192 →
    let t := s.ctl.tile n
    (t.st = .running → t.ending = true → t.inflight = [] → t.after = [] → Acts s (.tileDone n) (W.on fun c =>
      (c.setTile n { t with
        st := .idle
        ending := false }).event 0x0301 (encode [.n 1 n]) (c.starterOf n))) ∧
    (t.inflight[idx]? = some f → t.complete f = true → t.after = [] → f.token ≠ 0 → Acts s (.instructionComplete n idx) fun y =>
      ((y.on fun c => c.setTile n { t with inflight := t.inflight.erase f }).on (Ctl.addToken n f.token 1)).meshPump 4 n) ∧
    (t.wait = some x → x.due = some due → due ≤ s.ctl.tick → Acts s (.waitTimeoutExpire n) (W.on fun c =>
      (c.setTile n { t with
        timeouts := w32 (t.timeouts + 1)
        shortfall := Tab.set x.token (x.count - t.token x.token) t.shortfall }).raiseTile n
          ⟨0x06, t.pc, 0, t.replayNo, t.imem.getD t.pc 0, 16, 0⟩)) ∧
    Acts s (.arrayStep n) (fun y => (y.unitStep n).meshPump 4 n)

/-- The tile commands of Table 17-13 on a tile that the session owns, whose job is not being torn down and whose Canvas is usable
(R199, R531, R532, R105). -/
def Clause.TileCommands : Prop :=
  ∀ (s : State) (h : Hdr) (n pc : Nat) (tiles : List Nat) (prog bases : Ref) (seed : Long),
    let x := s.ctl.ctxOf h.pair
    (tileRefuse s.ctl x n = none → progOk (refBlock s prog) = true → basesOk (refBlock s bases) = true →
      (s.ctl.tile n).st ≠ .running →
      Lands s { op := 0x0301, roles := [0, 1] } h [tileArg n, refArg s h prog, refArg s h bases] [prog, bases]
        (.tileLoadProgram h n prog bases)
        (W.on fun c => c.updTile n (Tile.loadProgram (refBlock s prog) (refBlock s bases))) [] id) ∧
    ((∀ t ∈ tiles, tileRefuse s.ctl x t = none ∧ (s.ctl.tile t).st ≠ .running) → progOk (refBlock s prog) = true →
      basesOk (refBlock s bases) = true →
      Lands s { op := 0x0306, roles := [0, 1] } h [Arg.blk 24 (tiles.all (· < 192)), refArg s h prog, refArg s h bases] [prog, bases]
        (.tileLoadMulti h tiles prog bases)
        (W.on fun c => tiles.foldl (fun c n => c.updTile n (Tile.loadProgram (refBlock s prog) (refBlock s bases))) c) [] id) ∧
    (tileRefuse s.ctl x n = none → (s.ctl.tile n).st ≠ .running →
      Lands s { op := 0x0302, roles := [0, 1] } h [tileArg n, Arg.num 2 (decide (pc < 1024))] [] (.tileStart h n pc)
        (W.on fun c => c.updTile n (Tile.start pc x.sid)) [] id) ∧
    ((∀ t ∈ tiles, tileRefuse s.ctl x t = none) →
      Lands s { op := 0x0307, roles := [0, 1] } h [Arg.blk 24 (tiles.all (· < 192)), Arg.num 2 (decide (pc < 1024))] []
        (.tileStartMulti h tiles pc)
        (W.on fun c => (tiles.filter fun n => (s.ctl.tile n).st != .running).foldl (fun c n => c.updTile n (Tile.start pc x.sid)) c)
        (encode [bitmap 192 (tiles.filter fun n => (s.ctl.tile n).st != .running)]) id) ∧
    (ownsTile s.ctl x n = true → (s.ctl.tile n).st ≠ .idle →
      Lands s { op := 0x0303, roles := [0, 1] } h [tileArg n] [] (.tileStop h n) (W.on (Ctl.stopTile n)) [] id) ∧
    (ownsTile s.ctl x n = true →
      Reads s { op := 0x0304, roles := [0, 1] } h [tileArg n] [] (.tileFaultRead h n)
        (encode [.raw 8 (s.ctl.tile n).faultRec.bytes])) ∧
    (ownsTile s.ctl x n = true →
      Reads s { op := 0x0305, roles := [0, 1], lock := true } h [tileArg n] [] (.tileStatus h n)
        (encode ([.n 1 (tileStCode (s.ctl.tile n).st), .n 2 (s.ctl.tile n).pc] ++
          (List.range 16).map (fun k => .n 2 ((s.ctl.tile n).token k)) ++
          [.n 2 (s.ctl.outstanding n), bitmap 16 (s.ctl.tile n).ranges.keys]))) ∧
    (tileRefuse s.ctl x n = none → (s.ctl.tile n).st ≠ .running →
      Lands s { op := 0x0308, roles := [0, 1] } h [tileArg n, Arg.num 8 true] [] (.tileSeedRng h n seed)
        (W.on fun c => c.updTile n fun t => { t with lanes := seedLanes seed.toNat }) [] id) ∧
    (tileRefuse s.ctl x n = none →
      Lands s { op := 0x0309, roles := [0, 1] } h [tileArg n] [] (.tileReset h n) (W.resetTile n) [] id)

/-- What happens to a tile from outside its program: events of its units, and the mailbox commands that name it. -/
def Obligations.TileEventsAndCommands : Prop := Clause.TileEvents ∧ Clause.TileCommands

/-! The memory stacks (chapter 7). -/

/-- The stack commands of Table 7-9: the scrub interval is stored (R218), a carried lane is declared failed and darned to the
lowest free spare (R235, R236), the log and the status are read. -/
def Clause.StackCommands : Prop :=
  ∀ (s : State) (h : Hdr) (st ch lane hours sp first count : Nat),
    Does s { op := 0x0230, roles := [0] } h [stackArg st, Arg.num 1 (1 ≤ hours && hours ≤ 168)] [] (.stackScrubSet h st hours)
      (fun c => c.updStack st fun x => { x with hours := hours }) (encode [.n 1 hours]) ∧
    (s.ctl.usable (7 + st) = true → lane < 16 → ((s.ctl.stack st).chan ch).carry.has lane = false →
      ((s.ctl.stack st).chan ch).copy = none → ((s.ctl.stack st).chan ch).deadLanes.contains lane = false →
      ((s.ctl.stack st).chan ch).freeSpare = some sp →
      Lands s { op := 0x0231, roles := [0] } h [stackArg st, Arg.num 1 (decide (ch < 128)), Arg.num 1 (decide (lane < 20))] []
        (.stackDarn h st ch lane) (W.on (Ctl.declareLane st ch lane 5)) (encode [.n 1 sp]) id) ∧
    Reads s { op := 0x0232, roles := [0, 3] } h
      [stackArg st, Arg.num 4 (decide (first < 2 ^ 32)), Arg.num 1 (1 ≤ count && count ≤ 64)] [] (.stackLogRead h st first count)
      (encode [.list ((((s.ctl.stack st).log.filter fun r => first ≤ r.seq).take count).map StackRec.bytes)]) ∧
    Reads s { op := 0x0233, roles := [0, 1], lock := true } h [stackArg st] [] (.stackStatus h st)
      (let x := s.ctl.stack st
      encode [.n 1 x.band, .n 2 (twos 16 x.reading), .n 2 (twos 16 x.palReading), .n 1 (b2n (x.band = 4)), .n 1 x.actLimit,
        .raw 1 ((List.range 128).flatMap fun i => leBytes 1 (x.chan i).sparesInUse),
        bitmap 128 ((List.range 128).filter fun i => !(x.chan i).failed.isEmpty)])

/-- PATROL_READ reads the channel's next line and moves the patrol on, also on a sealed stack (R218, R219, R603), and while a lane is
being darned the copy's next line is read and written in its place (R223); DARN_COPY_COMPLETE gives the position to its spare once
the copy has been through every line, logs it and tells the OWNER (R223); STACK_INIT_COMPLETE writes zeros over the whole stack,
posts its health and lets the requests go on that waited for it (R222, R225). -/
def Clause.StackEvents : Prop :=
  ∀ (s : State) (st ch p sp : Nat) (flips : List Flip) (failed : List (Nat × Nat)), st < 8 → ch < 128 →
    let x := s.ctl.stack st
    (flipsOk flips = true → 2 ≤ (s.ctl.entry (7 + st)).st → x.band ≠ 4 → (x.chan ch).copy = none →
      Acts s (.patrolRead st ch flips) fun w =>
        (((w.strike st flips).on (Ctl.onChan st ch fun c => { c with patrol := (c.patrol + 1) % chanLines })).readLine st
          (lineAddr ch (x.chan ch).patrol) 2).2) ∧
    (flipsOk flips = true → 2 ≤ (s.ctl.entry (7 + st)).st → x.band ≠ 4 → (x.chan ch).copy = some (p, sp) →
      (x.chan ch).copyAt < chanLines →
      Acts s (.patrolRead st ch flips) fun w =>
        let a := lineAddr ch (x.chan ch).copyAt
        let r := ((w.strike st flips).on (Ctl.onChan st ch fun c => { c with copyAt := (x.chan ch).copyAt })).readLine st a 3
        (r.2.writeStackLine st a r.1.1 r.1.2).on (Ctl.onChan st ch fun c => { c with copyAt := (x.chan ch).copyAt + 1 })) ∧
    ((x.chan ch).copy = some (p, sp) → x.band ≠ 4 → (x.chan ch).lost = false → 2 ≤ (s.ctl.entry (7 + st)).st →
      Acts s (.darnCopyComplete st ch) fun w =>
        ((w.b.mem.marked st ch (x.chan ch).copyAt).foldl (fun w pos => w.copyStep st ch pos) w).on fun c =>
        let c := (c.onChan st ch fun n => { n with
          copy := none, copyAt := 0, carry := Tab.set p sp n.carry, failed := n.failed.filter (· != p), pinRec := [] }).stackLog
            st 0x05 ch ((x.chan ch).laneOf p) 3 0xFF 0
        c.event 0x0231 (c.lastRec st) { owner := true }) ∧
    ((∀ f ∈ failed, f.1 < 128 ∧ f.2 < 20) → (s.ctl.entry (7 + st)).st = 1 → x.firstReading = false → x.band ≠ 4 →
      Acts s (.stackInitComplete st failed) fun w =>
        let w := w.on fun c => c.updStack st fun y => { y with
          chans := (List.range 128).foldl (fun t ch =>
            if Tab.has t ch || !(failedIn ch failed).isEmpty then
              Tab.upd ch {} (trainChan (s.ctl.entry (7 + st)).restarting (failedIn ch failed)) t
            else t) y.chans
          initDone := true }
        let w := w.on fun c => (List.range 128).foldl (fun c ch => trainLog st ch (failedIn ch failed) c) c
        let w := { w with b := w.b.op (.zero (stackKey st 0) (2 ^ 37)) }
        let r := (w.c.stack st).health
        (w.on fun c => if (c.entry (7 + st)).restarting then c.endRestart (7 + st) r.1 r.2
          else c.postNow (7 + st) r.1 r.2).releaseHeld st)

/-- The commands and events of the memory stacks (chapter 7). -/
def Obligations.StackRows : Prop := Clause.StackCommands ∧ Clause.StackEvents

/-! The Palette engines (chapter 8). -/

/-- The Palette's mailbox commands (Table 8-7): a queue is made with its 128-byte window region and its results, a queue with no
command left is destroyed at once and another waits for its commands (R243, R269), the statuses are read. -/
def Obligations.PaletteCommands : Prop :=
  ∀ (s : State) (h : Hdr) (st q job n k : Nat) (regions : List Nat) (ring : Option (Nat × Nat)) (c : Ctl) (p : PalQueue),
    let x := s.ctl.ctxOf h.pair
    let kc : Cmd := { op := 0x0240, roles := [0, 1] }
    (jobCheck s.ctl x job 18 = none → s.ctl.usable (7 + st) = true → palRegionsFail s.ctl x st job regions = none →
      regions.length ≤ 8 → (s.ctl.stack st).queues.firstFree 0 32 = some q →
      (s.ctl.consume kc h).addRegion
        { space := 3, base := st * 2 ^ 37 + q * 128, len := 128, job, perm := 2, opn := 0, repl := 0, key := 0, use := .window st q } = some (n, k, c) →
      Lands s kc h ([stackArg st, Arg.num 2 (1 ≤ job && job < 65536)] ++ listArgs regions.length (decide (regions.length ≤ 8))
          ++ [Arg.num 8 (decide ((ring.map (·.1)).getD (2 ^ 64 - 1) < 2 ^ 64)), Arg.num 4 (decide ((ring.map (·.2)).getD 0 < 2 ^ 24))])
        (inlineBlocks h ([stackArg st, Arg.num 2 (1 ≤ job && job < 65536)] ++ listArgs regions.length (decide (regions.length ≤ 8))
          ++ [Arg.num 8 (decide ((ring.map (·.1)).getD (2 ^ 64 - 1) < 2 ^ 64)), Arg.num 4 (decide ((ring.map (·.2)).getD 0 < 2 ^ 24))])
          (listBlocks regions.length)) (.paletteQueueCreate h st job regions ring)
        (fun w => { w with
          c := c.updStack st fun y => { y with
            queues := Tab.set q { job, regions := w.c.bindRegions regions, ring, window := n, session := x.sid } y.queues } })
        (encode [.n 1 q, .n 2 n, .n 4 k]) id) ∧
    (s.ctl.palQueue st q = some p → x.owns p.job = true → p.closing = false →
      (s.ctl.queueBusy st q = false →
        Lands s { op := 0x0241, roles := [0, 1] } h [stackArg st, queueArg q] [] (.paletteQueueDestroy h st q)
          (W.on (Ctl.stopQueue st q)) [] id) ∧
      (s.ctl.queueBusy st q = true →
        Waits s { op := 0x0241, roles := [0, 1] } h [stackArg st, queueArg q] [] (.paletteQueueDestroy h st q)
          (W.on (Ctl.stopQueue st q)) (.paletteQueue st q))) ∧
    (s.ctl.palQueue st q = some p → x.owns p.job = true →
      Reads s { op := 0x0242, roles := [0, 1], lock := true } h [stackArg st, queueArg q] [] (.paletteQueueStatus h st q)
        (encode [.n 4 p.accepted, .n 4 p.started, .n 4 p.completed, .n 4 p.head,
          .n 1 ((s.ctl.stack st).execs.filter fun e => e.queue = q && e.started).length])) ∧
    Reads s { op := 0x0243, roles := [0, 1], lock := true } h [stackArg st] [] (.paletteStatus h st)
      (let y := s.ctl.stack st
      encode [.n 1 y.actLimit, .n 1 (y.execs.filter (·.started)).length, .n 4 y.cmdsDone, .n 4 y.cmdsFailed, .n 4 y.nonfinite,
        .n 4 y.poisonOut, .n 4 y.rejects, .n 4 y.badHead])

/-- The nine Palette commands start (R247 to R259): the queue's next command, of the row's opcode, when it comes next in the
rotation. -/
def Clause.PaletteStarts : Prop :=
  ∀ (s : State) (st q : Nat) (x : PalQueue) (cmd : List Byte) (rest : List (List Byte)), st < 8 → q < 32 →
    s.ctl.palQueue st q = some x → x.waiting = cmd :: rest → s.ctl.palNext st = some q →
    (palOp cmd = 1 → Acts s (.paletteEw st q) (W.palStart st q x cmd)) ∧
    (palOp cmd = 2 → Acts s (.paletteAccum st q) (W.palStart st q x cmd)) ∧
    (palOp cmd = 3 → Acts s (.paletteSgd st q) (W.palStart st q x cmd)) ∧
    (palOp cmd = 4 → Acts s (.paletteAdam st q) (W.palStart st q x cmd)) ∧
    (palOp cmd = 5 → Acts s (.paletteGather st q) (W.palStart st q x cmd)) ∧
    (palOp cmd = 6 → Acts s (.paletteScatter st q) (W.palStart st q x cmd)) ∧
    (palOp cmd = 7 → Acts s (.paletteKvAppend st q) (W.palStart st q x cmd)) ∧
    (palOp cmd = 8 → Acts s (.paletteKvCompact st q) (W.palStart st q x cmd)) ∧
    (palOp cmd = 9 → Acts s (.paletteDigest st q) (W.palStart st q x cmd))

/-- Which command of a stack comes next (R240, R247): its queue can start it, and no queue that follows the one served last comes
before it and can; a queue can start its command where the stack serves and is in no write stop, fewer than 8 execute, an ORDERED one
has every earlier one complete, and the bank of its first line holds a credit. -/
def Clause.PaletteTurn : Prop :=
  ∀ (c : Ctl) (st q : Nat),
    (c.palNext st = some q → q < 32 ∧ c.palReady st q = true ∧
      ∀ i < (q + 31 - (c.stack st).turn % 32) % 32, c.palReady st (((c.stack st).turn + 1 + i) % 32) = false) ∧
    (c.palReady st q = true ↔ ∃ x cmd rest, c.palQueue st q = some x ∧ x.waiting = cmd :: rest ∧ (c.stack st).band ≠ 4 ∧
      (c.stateOf (7 + st) = 2 ∨ c.stateOf (7 + st) = 3 ∨ c.stateOf (7 + st) = 4) ∧
      ((c.stack st).execs.filter (·.started)).length < 8 ∧
      (palOrdered cmd = true → ∀ e ∈ (c.stack st).execs, e.queue ≠ q) ∧
      ∀ b, palBank cmd = some b → 0 < (c.stack st).credits b)

/-- A Palette command that starts on a stack that has not failed and passes its checks reads its lines with the errors that stand in
them, computes over the memory as it then is, enters the executing commands with the record's fields and its bank's credit, and
counts (R214, R240, R247, R254, R267, R268). -/
def Clause.PaletteRuns : Prop :=
  ∀ (w : W) (st q : Nat) (x : PalQueue) (cmd : List Byte) (c : Ctl), w.c.stateOf (7 + st) ≠ 4 →
    c = (w.c.updQueue st q (fun y => { y with
      started := y.started + 1
      waiting := y.waiting.drop 1 })).updStack st (fun y => { y with turn := q }) →
    palCheck cmd (c.palRanges x) (fun t => (((c.jobs.get? x.job).map (·.tiles)).getD []).contains t) = 0 →
    let f := W.palReads st cmd (palRun st 0 cmd (c.palRanges x)) w.b.mem.errs.length [] { w with c := c }
    let r := palRun st f.2.c.rc.freeCtr cmd (c.palRanges x) ⟨f.2.b.mem, []⟩
    w.palStart st q x cmd = (({ f.2 with
        c := f.2.c.onRc fun y => { y with freeCtr := y.freeCtr + palFree cmd }
        b := f.2.b.opsAll r.1.ops }.palPoison st f.1 r.2.poison (palMerges cmd f.2.b.mem r)).on fun c => c.updStack st fun s => { s with
      execs := s.execs ++ [PalExec.mk true q cmd r.2.status r.2.done r.2.except r.2.firstBad (palBank cmd)]
      nonfinite := (s.nonfinite + r.2.nonfinite) % 2 ^ 32
      poisonOut := (s.poisonOut + r.2.poison.length) % 2 ^ 32 })

/-- The stores to a queue's lines and the end of a command (R245, R246, R263): a full-line store to CMD is accepted where a slot
is free and the queue open, a HEAD store moves the head, a complete command's record is written and its slot freed. -/
def Clause.PaletteEvents : Prop :=
  ∀ (s : State) (st q idx n : Nat) (p : Pkt) (r : W × List Pkt) (c : Ctl) (e : PalExec), s.Admits p [] r →
    (p.type = 2 → p.space = 3 → bit p.offset 6 = false → r.1.c.useOf p = .window st q → p.offset % 64 = 0 →
      r.1.c.palAccept st q (p.payload.drop 8) = (.ok r.1.c, c) →
      Acts s (.paletteCmdStore p) fun _ =>
        ({ r.1 with c := c }.on (Ctl.mark (4 * p.src + 1) p.flowSeq .ack)).on (Ctl.sendAck p)) ∧
    (p.type = 2 → p.space = 3 → bit p.offset 6 = true → r.1.c.useOf p = .window st q → r.1.c.palHead p st q = (.ok r.1.c, c) →
      Acts s (.paletteHeadStore p) fun _ =>
        ({ r.1 with c := c }.on (Ctl.mark (4 * p.src + 1) p.flowSeq .ack)).on (Ctl.sendAck p)) ∧
    (n < 8 → s.ctl.palComplete n idx = some (e, c) →
      Acts s (.paletteCommandComplete n idx) fun w => W.servePal n e { w with c := c })

/-- A store to the CMD line of a queue that does not cover the whole line, that finds no free slot, or whose queue does not exist
is answered QUEUE_REFUSED or QUEUE_FULL, and adds 1 to QUEUE_REJECTS (R245). -/
def Clause.PaletteRefusals : Prop :=
  ∀ (s : State) (st q code : Nat) (p : Pkt) (r : W × List Pkt), s.Admits p [] r → p.type = 2 → p.space = 3 →
    bit p.offset 6 = false → r.1.c.useOf p = .window st q → (r.1.c.locked || r.1.c.alarms.gesso) = false →
    (∀ x, r.1.c.palQueue st q = some x → x.closing = true ∨ p.offset % 64 ≠ 0 ∨ p.payload.length ≠ 72 ∨ 64 ≤ Ctl.slotsUsed x) →
    code = (if (r.1.c.palQueue st q).all (fun x => x.closing || p.offset % 64 != 0 || p.payload.length != 72) then 0x050A
      else 0x0509) →
    Acts s (.paletteCmdStore p) fun _ =>
      ((r.1.on (Ctl.updStack st fun y => { y with rejects := inc32 y.rejects })).on
        (Ctl.mark (4 * p.src + 1) p.flowSeq (.err code))).on (Ctl.sendErr p code)

/-- The rows of the Palette engine's queues, from a queue write to a record (chapter 8). -/
def Obligations.PaletteEngineRows : Prop :=
  Clause.PaletteStarts ∧ Clause.PaletteTurn ∧ Clause.PaletteRuns ∧ Clause.PaletteEvents ∧ Clause.PaletteRefusals

/-! Fabric memory operations (chapters 9, 13 and 14). -/

/-- READ, WRITE, ATOMIC, SYNC_READ and SYNC_ADD admitted at the home are applied once and answered (R413, R415, R416, R427). -/
def Clause.HomeApplies : Prop :=
  ∀ (s : State) (p : Pkt) (flips : List Flip) (r : W × List Pkt), s.Admits p flips r →
    (p.type = 1 → Acts s (.fabricRead p flips) fun _ => r.1.applyRead p) ∧
    (p.type = 2 → flips = [] → s.ctl.plainWrite p = true → Acts s (.fabricWrite p) fun _ => r.1.applyWrite p) ∧
    (p.type = 3 → flips = [] → Acts s (.fabricAtomic p) fun _ => r.1.applyAtomic p) ∧
    (p.type = 4 → Acts s (.syncRead p flips) fun _ => r.1.applySyncRead p r.2) ∧
    (p.type = 5 → flips = [] → Acts s (.syncAdd p) fun _ => r.1.applySyncAdd p r.2)

/-- A request that fails a check of Table 14-3 is answered with that check's code, entered in its flow record so that a copy gets
the same answer, and applied to nothing (R411, R420). -/
def Clause.HomeRefuses : Prop :=
  ∀ (s : State) (p : Pkt) (flips : List Flip) (code : Nat), pktOk p = true → p.type = 1 → flipsOk flips = true →
    s.ctl.fabric.arrivals.contains p = true → p.crcOk = true → s.ctl.wayHeld p = false → s.ctl.noRecord (4 * p.src + 1) = false →
    (s.ctl.takeArrival p).seen (4 * p.src + 1) p.flowSeq = .fresh →
    ((s.ctl.takeArrival p).mark (4 * p.src + 1) p.flowSeq .pending).homeCheck p = .error code →
    Acts s (.fabricRead p flips) fun w => (w.strike (stackOf p.offset) flips).on (fun c =>
      ((((c.takeArrival p).mark (4 * p.src + 1) p.flowSeq .pending).countRefused p code).mark (4 * p.src + 1) p.flowSeq
        (.err code)).sendErr p code)

/-- Requests at their home: what an admitted request does, and how one that fails a check is refused (chapter 14). -/
def Obligations.HomeRequests : Prop := Clause.HomeApplies ∧ Clause.HomeRefuses

/-- READ_RESP, ATOMIC_RESP, ERROR_RESP and ACK complete the transaction of their tag and number, and free its tag (R281, R383,
R411, R415); a NAK HOP_DROP has the packet sent again at once (R396, R397). -/
def Clause.RequesterCompletes : Prop :=
  ∀ (s : State) (p : Pkt) (t : Txn) (c : Ctl),
    (s.Completes 0x10 p p.flowSeq t c → Acts s (.readResp p) fun w =>
      (W.done p.tag t (.ok (p.payload, p.typeArg)) { w with c := c }).tagFreed p.tag) ∧
    (s.Completes 0x11 p p.flowSeq t c → Acts s (.atomicResp p) fun w =>
      (W.done p.tag t (.ok (p.payload, b2n (bit p.flags 2))) { w with c := c }).tagFreed p.tag) ∧
    (s.Completes 0x12 p p.flowSeq t c → Acts s (.errorResp p) fun w =>
      (W.done p.tag t (.error (bits p.typeArg 15 0)) { w with c := c }).tagFreed p.tag) ∧
    (s.Completes 0x18 p p.typeArg t c → s.ctl.partAck p = none → Acts s (.flowAck p) fun w =>
      (W.done p.tag t (.ok ([], 0)) { w with c := c }).tagFreed p.tag) ∧
    (pktOk p = true → p.type = 0x19 → s.ctl.fabric.arrivals.contains p = true → p.crcOk = true →
      (s.ctl.takeArrival p).fabric.txns.get? p.tag = some t → t.copies ≠ 0 → (t.late = true → t.sentAt ≠ s.ctl.tick) →
      t.pkt.flowSeq % 2 ^ 24 = bits p.typeArg 31 8 → bits p.typeArg 7 0 = 1 → Ctl.givenUp { t with naks := t.naks + 1 } = false →
      Acts s (.flowNak p) (W.on fun c => (c.takeArrival p).resend p.tag { t with naks := t.naks + 1 }))

/-- A transaction whose timeout expires is sent again under its number, to the home where a replica did not answer (R75, R421,
R425); a lingering tag returns (R281); the idlest flow record goes (R420); a region zeroed is free (R412); a packet of this
module's own is routed (R387). -/
def Clause.FabricEvents : Prop :=
  ∀ (s : State) (tag src cls n : Nat) (t : Txn) (l : Linger) (r : FlowRec) (g : Region) (p : Pkt), tag < 65536 →
    (s.ctl.fabric.txns.get? tag = some t → (∀ a b d, t.who ≠ .frog a b d) → t.copies ≠ 0 → t.due ≤ s.ctl.tick → t.home = none →
      Ctl.givenUp { t with bad := if t.nakWait then t.bad else t.bad + 1 } = false →
      Acts s (.fabricTimeoutExpire tag) (W.on fun c => (c.countTimeout (tagUnit tag)).resend tag { t with
        late := true
        bad := if t.nakWait then t.bad else t.bad + 1 })) ∧
    (s.ctl.fabric.lingering.get? tag = some l → l.due ≤ s.ctl.tick → Acts s (.tagLingerEnd tag) fun w =>
      (w.on (Ctl.endLinger tag)).tagFreed tag) ∧
    (src < 65536 → cls < 4 → s.ctl.fabric.recs.get? (4 * src + cls) = some r → 16384 ≤ s.ctl.fabric.recs.length →
      r.last + 1000000000 ≤ s.ctl.tick → (∀ x ∈ s.ctl.fabric.recs.vals, r.last ≤ x.last) →
      Moves s (.flowRecordEvict src cls) (Ctl.onFabric fun f => { f with recs := Tab.del (4 * src + cls) f.recs })) ∧
    (n < 4096 → s.ctl.fabric.regions.get? n = some g → g.zeroing = true → s.ctl.regionBusy g = false → g.space ≠ 3 →
      (g.space = 2 → (s.ctl.stack (stackOf g.base)).band ≠ 4) → Acts s (.regionZeroingComplete n) fun w =>
        { w with b := w.b.op (.zero (g.space * 2 ^ 44 + g.base) g.len) }.on (Ctl.freeRegion n)) ∧
    (pktOk p = true → p.src = s.ctl.selfModule → Acts s (.packetRoute none p) (W.on (Ctl.inject p))) ∧
    (pktOk p = true → n < 32 → ((s.ctl.port n).inq.find? fun x => x.1.vc = p.vc).map (·.1) = some p →
      (s.ctl.routeOf (some n) p = .here → s.ctl.ingressFull p = false) → s.ctl.copyWaits (some n) p = false →
      Acts s (.packetRoute (some n) p) (W.on fun c => (c.takeInput n p).route (some n) p))

/-- The window of a flow (R279, R280, R293): a packet is sent only while fewer than 512 are unacknowledged, and takes the next number;
an answer frees its slot; a packet given up holds it until it is acknowledged, and one whose tag has returned until its job is torn
down; a frog is under the same rule. -/
def Clause.FlowWindows : Prop :=
  ∀ (c : Ctl) (tag k id src : Nat) (pipe : Bool) (t : Txn) (l : Linger) (p : Pkt), c.fabric.txns.get? tag = some t → t.copies = 0 →
    k = Ctl.flowKey (t.home.getD t.pkt).dest (t.home.getD t.pkt).type →
    let fl := c.fabric.flows.getD k {}
    (512 ≤ fl.unacked → c.launch tag = c) ∧
    (512 ≤ (c.fabric.flows.getD (Ctl.flowKey p.dest p.type) {}).unacked → c.frogOpen pipe id p = none) ∧
    (fl.unacked < 512 → c.launch tag = (c.onFabric fun f => { f with
      flows := Tab.set k { fl with next := (fl.next + 1) % 2 ^ 32, unacked := fl.unacked + 1 } f.flows
      txns := Tab.set tag { t with pkt := { t.pkt with flowSeq := fl.next }, home := t.home.map fun h => { h with flowSeq := fl.next } }
        f.txns }).sendCopy tag) ∧
    (c.freeWindow k = (c.onFabric fun f => { f with
      flows := Tab.upd k {} (fun x => { x with unacked := x.unacked - 1 }) f.flows }).pumpFlow k) ∧
    (l.out = 1 → l.slot = some k → l.want.filter (· != src) = [] →
      c.lingerAnswer tag src l = (c.onFabric fun f => { f with lingering := Tab.del tag f.lingering }).freeWindow k) ∧
    (c.jobEnding l.job = false → l.slot = some k → c.fabric.lingering.get? tag = some l →
      c.endLinger tag = c.onFabric fun f => { f with
        lingering := Tab.del tag f.lingering
        flows := Tab.upd k {} (fun x => { x with orphans := x.orphans ++ [l.job] }) f.flows })

/-- The requester's side of the fabric: responses, acknowledgements, NAKs, window slots and the fabric's timers (chapters 9, 13
and 14). -/
def Obligations.RequesterAndTimers : Prop := Clause.RequesterCompletes ∧ Clause.FlowWindows ∧ Clause.FabricEvents

/-- The region commands (R410, R412, R423): a region over free memory gets its number and a fresh key; destroying one refuses every
later request; flags and status. -/
def Clause.RegionCommands : Prop :=
  ∀ (s : State) (h : Hdr) (n opn repl : Nat) (a : RegionArgs) (c : Ctl) (r : Region) (body : List Byte),
    let x := s.ctl.ctxOf h.pair
    let k : Cmd := { op := 0x0260, roles := [0, 1] }
    let args := [Arg.num 1 (a.space = 1 || a.space = 2), Arg.num 8 (a.base % 64 = 0 && decide (a.base < 2 ^ 44)),
      Arg.num 8 (a.len % 64 = 0 && 64 ≤ a.len && decide (a.len ≤ 2 ^ 40)), Arg.num 2 (1 ≤ a.job && a.job < 65536),
      Arg.num 1 (decide (a.perm < 8)), Arg.num 1 (decide (a.opn < 2)), Arg.num 1 (decide (a.repl < 2))]
    (jobCheck s.ctl x a.job (offOf args 3) = none → rangeOk a = true →
      (∀ g ∈ s.ctl.fabric.regions.vals, overlaps a.space a.base a.len g = false) →
      (s.ctl.consume k h).makeRegion a = ((0, body), c) →
      Lands s k h args [] (.regionCreate h a) (fun w => { w with c := c }) body id) ∧
    (s.ctl.fabric.regions.get? n = some r → x.owns r.job = true →
      (r.zeroing = false → (s.ctl.dropRegion n).regionBusy r = false →
        Lands s { op := 0x0261, roles := [0, 1] } h [regionArg n] [] (.regionDestroy h n) (W.on (Ctl.dropRegion n)) [] id) ∧
      (r.zeroing = false →
        Lands s { op := 0x0262, roles := [0, 1] } h [regionArg n, Arg.num 1 (decide (opn < 2)), Arg.num 1 (decide (repl < 2))] []
          (.regionFlagsSet h n opn repl)
          (W.on (Ctl.onFabric fun f => { f with
            regions := Tab.set n { r with
              opn := opn
              repl := repl } f.regions })) (encode [.n 1 opn, .n 1 repl]) id) ∧
      Reads s { op := 0x0263, roles := [0, 1], lock := true } h [regionArg n] [] (.regionStatus h n)
        (encode [.n 2 n, .n 1 r.space, .n 8 r.base, .n 8 r.len, .n 2 r.job, .n 1 r.perm, .n 1 r.opn, .n 1 r.repl, .n 4 r.mismatch,
          .n 1 (b2n r.zeroing)]))

/-- The other fabric commands (R421, R424, R431, R648): replica maps, the job's timeout, the status, and a staged write. -/
def Clause.FabricCommands : Prop :=
  ∀ (s : State) (h : Hdr) (job timeout region key offset tag : Nat) (block : Ref) (ranges : List ReplicaRange) (data : List Byte)
      (r : Region) (c : Ctl),
    let x := s.ctl.ctxOf h.pair
    (jobCheck s.ctl x job 16 = none → ranges.length ≤ 64 → ranges.all replicaRangeOk = true → rangesApart ranges = true →
      Lands s { op := 0x0264, roles := [0, 1] } h [Arg.num 2 (1 ≤ job && job < 65536), refArg s h block] [block]
        (.replicaMapSet h job block ranges)
        (W.on (Ctl.onFabric fun f => { f with maps := Tab.set job ranges f.maps })) (replicaBody ranges) id) ∧
    (s.ctl.jobLive job = true → x.owns job = true →
      Lands s { op := 0x0265, roles := [0, 1] } h [Arg.num 2 (1 ≤ job && job < 65536)] [] (.replicaMapClear h job)
        (W.on (Ctl.onFabric fun f => { f with maps := Tab.del job f.maps })) [] id) ∧
    (jobCheck s.ctl x job 16 = none →
      Does s { op := 0x0266, roles := [0, 1] } h
        [Arg.num 2 (1 ≤ job && job < 65536), Arg.num 8 (2000 ≤ timeout && timeout ≤ 10000000)] [] (.fabricTimeoutSet h job timeout)
        (fun c => { c with jobs := c.jobs.map fun j => if j.1 = job then (j.1, { j.2 with timeout := timeout }) else j })
        (encode [.n 8 timeout])) ∧
    Reads s { op := 0x0267, roles := [0, 2], lock := true } h [] [] (.fabricStatus h)
      (let f := s.ctl.fabric
      encode [.n 2 s.ctl.ingressUsed,
        .n 8 (f.fullTicks + (match f.fullFrom with
          | some t => s.ctl.tick - t
          | none => 0)),
        .n 2 f.recs.length, .n 4 f.duplicates, .n 4 f.combined, .n 4 f.fallback, .n 4 f.targetDead,
        .list ((topSources f.mismatchSrc).map fun x => encodeAt 0 [.n 2 x.1, .n 4 x.2])]) ∧
    (1 ≤ data.length → data.length ≤ 256 → s.ctl.fabric.regions.get? region = some r → (s.ctl.free32 (.rc 0)).isSome = true →
      (s.ctl.consume { op := 0x0107, roles := [0, 1, 2] } h).request (.rc 0)
        (Ctl.reqPkt 2 (if x.role = 0 ∨ (x.role = 1 ∧ x.jobs.contains r.job = true) then r.job else 0)
          (s.ctl.selfModule * 2 ^ 48 + r.space * 2 ^ 44 + (r.base + offset) % 2 ^ 44) key 0 data) [] = some (tag, c) →
      Waits s { op := 0x0107, roles := [0, 1, 2] } h
        [regionArg region, Arg.num 4 (decide (key < 2 ^ 24)), Arg.num 8 (decide (offset < 2 ^ 44)), ⟨2 + data.length, 2, 0⟩] []
        (.sysStageWrite h region key offset data) (fun w => { w with c := c }) (.stage tag))


/-- The mailbox commands of regions, replicas and the fabric (chapter 14). -/
def Obligations.FabricAndRegionCommands : Prop := Clause.RegionCommands ∧ Clause.FabricCommands

/-! The DMA engine (chapter 11). -/

/-- The commands of Table 11-8: a queue and a channel are made under the number asked or the lowest free one, a queue no channel
uses is destroyed, a channel is destroyed at once where all its records are written or discarded, with the count of both, and else once
they are, the share is set, a kick acts as a doorbell, the status is read (R319, R323, R338). -/
def Clause.DmaCommands : Prop :=
  ∀ (s : State) (h : Hdr) (queue job n q share pi : Nat) (loc : RingLoc) (a : ChanArgs) (cq : DmaCq) (ch : DmaChan),
    let x := s.ctl.ctxOf h.pair
    let c1 : Cmd := { op := 0x0250, roles := [0, 1] }
    let c2 : Cmd := { op := 0x0252, roles := [0, 1] }
    let a1 := [Arg.num 1 (queue < 16 || queue = 0xFF), Arg.num 2 (1 ≤ job && job < 65536)] ++ ringArgs loc 6 16
    let a2 := [Arg.num 1 (a.chan < 64 || a.chan = 0xFF), Arg.num 2 (1 ≤ a.job && a.job < 65536), Arg.num 1 (decide (a.queue < 16))]
      ++ ringArgs a.ring 4 16 ++ [Arg.num 2 (1 ≤ a.share && a.share ≤ 256), Arg.num 1 (a.fn < 2 || a.fn = 0xFF),
        Arg.num 1 (decide (a.hostPorts < 4))]
    (jobCheck s.ctl x job (offOf a1 1) = none → s.ctl.usable 18 = true →
      ((queue = q ∧ q < 16 ∧ s.ctl.cqs.has q = false) ∨ (queue = 0xFF ∧ s.ctl.cqs.firstFree 0 16 = some q)) →
      Does s c1 h a1 [] (.dmaCqCreate h queue job loc) (fun c => { c with cqs := Tab.set q { job, loc } c.cqs })
        (encode [.n 1 q])) ∧
    (s.ctl.cqs.get? q = some cq → x.owns cq.job = true → (∀ y ∈ s.ctl.chans.vals, y.queue ≠ q) →
      Does s { op := 0x0251, roles := [0, 1] } h [Arg.num 1 (decide (q < 16))] [] (.dmaCqDestroy h q)
        (fun c => { c with cqs := Tab.del q c.cqs }) []) ∧
    (jobCheck s.ctl x a.job (offOf a2 1) = none → s.ctl.usable 18 = true → s.ctl.cqs.get? a.queue = some cq →
      x.owns cq.job = true → cq.job = a.job →
      ((a.chan = n ∧ n < 64 ∧ s.ctl.chans.has n = false) ∨ (a.chan = 0xFF ∧ s.ctl.chans.firstFree 0 64 = some n)) →
      Does s c2 h a2 [] (.dmaChannelCreate h a)
        (fun c => { c with
          chans := Tab.set n { job := a.job, session := x.sid, queue := a.queue, ring := a.ring, share := a.share
                               newShare := a.share, fn := a.fn, ports := a.hostPorts } c.chans })
        (encode [.n 1 n])) ∧
    (s.ctl.chans.get? n = some ch → x.owns ch.job = true →
      (ch.closing = false →
        let k : Cmd := { op := 0x0253, roles := [0, 1] }
        let stop := fun (w : W) => (w.on (Ctl.closeChan n)).discardRecords n (ch.begun.length + 1)
        let gone := fun (w : W) => (stop w).on (Ctl.settleChan n)
        ((gone (s.taken k h)).c.chans.has n = false →
          Lands s k h [chanArg n] [] (.dmaChannelDestroy h n) gone
            (encode [.n 4 (ch.pi - ch.next), .n 4 ((((stop (s.taken k h)).c.chans.get? n).map (·.lostRecs)).getD 0)]) id) ∧
        ((gone (s.taken k h)).c.chans.has n = true → Waits s k h [chanArg n] [] (.dmaChannelDestroy h n) gone (.channel n))) ∧
      Does s { op := 0x0254, roles := [0, 1] } h [chanArg n, Arg.num 2 (1 ≤ share && share ≤ 256)] []
        (.dmaChannelShareSet h n share) (Ctl.updChan n fun y => { y with newShare := share }) (encode [.n 2 share]) ∧
      Lands s { op := 0x0255, roles := [0, 1] } h [chanArg n, Arg.num 4 (decide (pi < 2 ^ 32))] [] (.dmaChannelKick h n pi)
        (W.on (Ctl.doorbell n pi)) [] id ∧
      Reads s { op := 0x0256, roles := [0, 1], lock := true } h [chanArg n] [] (.dmaChannelStatus h n)
        (encode [.n 4 ch.pi, .n 4 ch.ci, .n 4 (chanStatusWord ch), .n 4 0, .n 8 ch.errAddr, .n 4 ch.errInfo,
          .n 4 (s.ctl.headOf ch.queue), .n 4 ch.errDesc, .raw 4 (zeros 28), .n 4 ch.nDone, .n 8 ch.bytesMoved,
          .n 4 ch.busErrors, .n 4 ch.poisonLines, .n 4 ch.badIndex, .n 4 ch.badControl, .n 4 ch.cqStalls]))

/-- HOST_CHANNEL_REBIND gives a channel with nothing begun its new function and ring and sets its indices to 0; HOST_CQ_REBIND does
the same for a queue that no running channel uses (R553). -/
def Clause.DmaRebinds : Prop :=
  ∀ (s : State) (h : Hdr) (n fn q : Nat) (loc : RingLoc) (cq : DmaCq) (ch : DmaChan),
    let x := s.ctl.ctxOf h.pair
    (s.ctl.chans.get? n = some ch → x.owns ch.job = true → ch.st ≠ .running → ch.closing = false → ch.rebind = none →
      let set := fun (c : Ctl) =>
        (c.updChan n fun y => { y with begun := Ctl.abortBegun c.tick y, rebind := some (fn, loc) }).settleChan n
      (((set (s.ctl.consume { op := 0x0131, roles := [0, 1] } h)).chans.get? n).bind (·.rebind) = none →
        Lands s { op := 0x0131, roles := [0, 1] } h ([chanArg n, Arg.num 1 (fn < 2 || fn = 0xFF)] ++ ringArgs loc 4 16) []
          (.hostChannelRebind h n fn loc) (W.on set) [] id) ∧
      ((((set (s.ctl.consume { op := 0x0131, roles := [0, 1] } h)).chans.get? n).bind (·.rebind)).isSome = true →
        Waits s { op := 0x0131, roles := [0, 1] } h ([chanArg n, Arg.num 1 (fn < 2 || fn = 0xFF)] ++ ringArgs loc 4 16) []
          (.hostChannelRebind h n fn loc) (W.on set) (.rebind n fn loc))) ∧
    (s.ctl.cqs.get? q = some cq → x.owns cq.job = true → (∀ y ∈ s.ctl.chans.vals, y.queue = q → y.st ≠ .running) →
      Does s { op := 0x0132, roles := [0, 1] } h ([Arg.num 1 (decide (q < 16))] ++ ringArgs loc 6 16) [] (.hostCqRebind h q loc)
        (fun c => { c with cqs := c.cqs.map fun y => if y.1 = q then (q, { y.2 with loc, records := 0, head := 0 }) else y }) [])

/-- The mailbox commands of channels and completion queues (chapter 11). -/
def Obligations.DmaObjectCommands : Prop := Clause.DmaCommands ∧ Clause.DmaRebinds

/-- The registers of a channel's window, while it is live in the function written through: the doorbell, CQ_HEAD, ABORT,
RESUME_RETRY and RESUME_SKIP (R290, R291, R330, R333, R334). A window that is not live takes no write (R550). -/
def Clause.DmaWindow : Prop :=
  ∀ (s : State) (fn n v : Nat), fn < 2 → n < 64 →
    (s.ctl.windowLive fn n = true →
      Acts s (.descPiDoorbell fn n v) (W.on (Ctl.doorbell n v)) ∧ Acts s (.cqHeadWrite fn n v) (W.on (Ctl.cqHead n v)) ∧
      Acts s (.dmaAbort fn n) (W.on (Ctl.dmaAbort n)) ∧ Acts s (.resumeRetry fn n) (W.on (Ctl.dmaRetry n)) ∧
      Acts s (.resumeSkip fn n) (W.on (Ctl.dmaSkip n))) ∧
    (s.ctl.windowLive fn n = false →
      Stays s (.descPiDoorbell fn n v) ∧ Stays s (.cqHeadWrite fn n v) ∧ Stays s (.dmaAbort fn n) ∧ Stays s (.resumeRetry fn n) ∧
      Stays s (.resumeSkip fn n))

/-- A doorbell moves DESC_PI forward, and sets an idle channel to work, by a step that leaves no more descriptors outstanding than
the ring holds; any other is refused, counted and sets BAD_INDEX (R290, R291). -/
def Obligations.DmaDoorbell : Prop :=
  ∀ (c : Ctl) (n v : Nat) (x : DmaChan), c.chans.get? n = some x →
    (x.pi + Ctl.diff32 v (x.pi % 2 ^ 32) ≤ x.ci + x.ring.size →
      (c.doorbell n v).chans.get? n = some { x with
        pi := x.pi + Ctl.diff32 v (x.pi % 2 ^ 32)
        st := if x.st = .idle ∧ Ctl.diff32 v (x.pi % 2 ^ 32) ≠ 0 then .running else x.st }) ∧
    (x.ci + x.ring.size < x.pi + Ctl.diff32 v (x.pi % 2 ^ 32) →
      (c.doorbell n v).chans.get? n = some { x with
        badIndex := inc32 x.badIndex
        status := x.status ||| 2 ^ 4
        count := inc8 x.count }) ∧
    (∀ m, m ≠ n → (c.doorbell n v).chans.get? m = c.chans.get? m)

/-- COPY, FILL and NOP begin a running channel's next descriptor, as it stood when it was fetched, where it is of their opcode (R323 to
R326); one that is invalid is begun by each of them and is to complete with DESC_INVALID (R324). -/
def Clause.DmaBegins : Prop :=
  ∀ (s : State) (n : Nat) (fetched raw : List Byte) (x : DmaChan), n < 64 → (s.world.fetchAhead n 8).c.chans.get? n = some x →
    mayBegin x = true → nextRaw x fetched = some raw →
    let begin_ := fun (w : W) => (w.fetchAhead n 8).on fun c => c.updChan n fun y => { y with
      next := y.next + 1
      ahead := y.ahead.drop 1
      begun := y.begun ++ [DescRun.stamped c.tick
        { idx := y.next, raw := raw, final := if descBad raw y.ports then some 4 else none }] }
    ((dOp raw = 1 ∨ descBad raw x.ports = true) → Acts s (.dmaCopy n fetched) begin_) ∧
    ((dOp raw = 2 ∨ descBad raw x.ports = true) → Acts s (.dmaFill n fetched) begin_) ∧
    ((dOp raw = 3 ∨ descBad raw x.ports = true) → Acts s (.dmaNop n fetched) begin_)

/-- The register window of a DMA channel, and the start of a descriptor (chapter 11). -/
def Obligations.DmaStarts : Prop := Clause.DmaWindow ∧ Clause.DmaBegins

/-- The events of the DMA engine: the next burst of the channel whose turn it is among those that can have one (R320 to R322, R327), a
descriptor's completion (R329, R330) and the read of a written port that its record may wait for (R328), a record that waited for room
(R330), a bus error that a burst met (R332) and a fetch that fails (R649). -/
def Obligations.DmaEvents : Prop :=
  ∀ (s : State) (n tag q idx : Nat) (host : HostRead) (x : DmaChan) (d : DescRun) (b : BurstRun) (e : BusErr) (clear : Bool) (cq : DmaCq),
    n < 64 →
    (s.ctl.chans.get? n = some x →
      (∀ y ∈ x.begun, ∀ z ∈ y.flying, ∀ data mask, z.at_ = .ready data mask → z.err ≠ none) →
      s.ctl.dmaNext = some n → nextDesc x = some (d, clear) → s.ctl.dmaTag n = some tag →
      Acts s (.dmaBurstIssue n host) (W.issueBurst n tag x d host)) ∧
    (∀ i j, i < 64 → j < i → (s.ctl.fabric.dmaTurn + 1 + i) % 64 = n → s.ctl.dmaNext = some n →
      (s.ctl.chans.get? ((s.ctl.fabric.dmaTurn + 1 + j) % 64)).any (s.ctl.dmaReady ((s.ctl.fabric.dmaTurn + 1 + j) % 64)) = false) ∧
    Acts s (.dmaDescriptorComplete n) (W.recordNext n) ∧
    (s.ctl.chans.get? n = some x → x.begun = [d] → d.recorded = false → d.flying = [] → d.allDone = true → d.final = none →
      (d.carried = true ∨ dQuiet d.raw = false) → x.noRecords = false → s.ctl.cqs.get? x.queue = some cq →
      cq.records - cq.head < cq.loc.size → needsFlush d cq = true →
      Acts s (.dmaDescriptorComplete n) (W.on fun c =>
        (c.updDesc n d.idx fun y => { y with flying := [flushRun y] }).settleChan n)) ∧
    (q < 16 → idx < 64 →
      (s.ctl.chans.find? fun y => y.2.queue = q && (y.2.begun.find? (!·.recorded)).any (·.stalled)) = some (idx, x) →
      Acts s (.dmaRecordDeferred q) (W.recordNext idx)) ∧
    (∀ (status dir addr : Nat), s.ctl.chans.get? n = some x → x.begun = [d] → d.flying = [b] → b.pos = e.burst →
      b.err = some (e.kind, status, dir, addr) →
      Acts s (.dmaBusError n e) (W.on (Ctl.dmaFault n d.idx b.pos (addr % 2 ^ 64) (errInfo e.kind status 0 dir)))) ∧
    (∀ kind status rest, (s.world.fetchAhead n 8).c.chans.get? n = some x → mayBegin x = true → 1 ≤ e.kind → e.kind ≤ 3 →
      e.status < 65536 → (x.ahead = .bad kind status :: rest ∨ x.ahead = .host :: rest ∧ e.kind ≠ 1 ∧ kind = e.kind ∧ status = 0) →
      Acts s (.descriptorFetchFail n e) fun w => (w.fetchAhead n 8).on fun c =>
        (c.updChan n fun y => { y with
          busErrors := inc32 y.busErrors
          errAddr := fetchAddr y y.next
          errInfo := errInfo kind status (if kind = 2 then x.ring.kind - 1 else 0) 0
          errDesc := y.next
          failed := true
          fetchFailed := true
          st := .halted }).setChanBit n 1)

/-! Die-to-die links and the guest site (chapters 9 and 10). -/

/-- The lanes and flits of the die-to-die links: their status and the mailbox darning (Table 10-9, R302), a flit that is taken in
sequence (R299, R300), the acknowledgement timeout (R301), a lane that loses lock (R302), a clock lane that stops (R296, R307),
DARN and DARN_ACK (R303). -/
def Clause.LinkRows : Prop :=
  ∀ (s : State) (h : Hdr) (l d lane sp : Nat) (f : Flit), l < 17 → d < 2 →
    let x := s.ctl.link l
    let y := x.dir d
    Reads s { op := 0x0420, roles := [0, 1], lock := true } h [linkArg l] [] (.d2dLinkStatus h l)
      (let per := fun (y : D2dDir) => [Item.n 1 (d2dGroups l - y.retired.length), .n 1 y.darns.length,
        .n 1 (clkLost y 1 + clkLost y 2), .n 4 y.tx.replays, .n 4 y.tx.naksRx, .n 4 y.rx.dup]
      let errs := fun (y : D2dDir) => (List.range (d2dLanes l + d2dDarns l)).flatMap fun i => leBytes 1 (min 255 (y.laneErr.getD i 0))
      encode ([Item.n 1 x.st] ++ per x.dir0 ++ per x.dir1 ++ [.raw 1 (errs x.dir0 ++ errs x.dir1)])) ∧
    ((x.st = 2 ∨ x.st = 3) → y.failed.contains lane = false → Ctl.carries l y lane = some lane →
      Ctl.freeDarn l { y with failed := insNat lane y.failed } = some sp →
      Lands s { op := 0x0421, roles := [0] } h
        [linkArg l, Arg.num 1 (decide (d < 2)), Arg.num 2 (decide (lane < d2dLanes l + d2dDarns l))] [] (.d2dLaneDarn h l d lane)
        (W.on (Ctl.declareD2d l d lane)) (encode [.n 2 sp, .n 1 0xFF]) id) ∧
    (flitOk f = true → f.vc < 4 → f.crVc < 4 → f.payload.length ≤ 240 → (x.st = 2 ∨ x.st = 3) → x.retrain = false →
      s.ctl.onWire l d f = true →
      (f.lost = true → f.kind ≠ 1 → Acts s (.d2dFlitReceive l d f) (W.on fun c =>
        (c.putFlit l d f).updLink l fun z => z.updDir d fun u => { u with
          rx := { u.rx with
            nak := true
            copies := u.rx.copies.filter (·.1 != f.lseq) ++ [(f.lseq, Ctl.errLanes l y f.errBits)] } })) ∧
      (f.lost = false → f.nak = false → f.kind ≠ 1 → f.lseq = y.rx.next →
        Acts s (.d2dFlitReceive l d f) (W.on fun c =>
          ((c.putFlit l d f).updLink l fun z => z.updDir (1 - d) fun u =>
            let t := (u.tx.credit f.crVc f.crTotal).ack f.ackSeq c.tick
            { u with tx := LinkTx.pumpCtl 3 d2dB 2048 c.tick t.ctl t }).d2dAccept l d f))) ∧
    ((x.st = 2 ∨ x.st = 3) → y.tx.unacked ≠ [] → y.tx.lastAdv + 1000 ≤ s.ctl.tick →
      Acts s (.d2dAckTimeout l d) (W.on fun c => (c.replayD2d l d).updLink l fun z => z.updDir d fun u => { u with
        tx := u.tx.expire c.tick })) ∧
    (lane < d2dLanes l + d2dDarns l → (x.st = 2 ∨ x.st = 3) →
      Acts s (.laneLockLoss l d lane) (W.on (Ctl.declareD2d l d lane))) ∧
    (lane < d2dClks l → sp < 2 → x.st ≠ 0 →
      Acts s (.clockLaneStop l d lane sp) (W.on fun c =>
        let c := (c.updLink l fun z => z.updDir d fun u => { u with clk := Tab.upd lane 0 (· ||| 2 ^ sp) u.clk }).judgeLink l
        if l < 4 then c.unclock l else c)) ∧
    (y.asked.contains (lane, sp) = true →
      Moves s (.laneDarn l d lane sp) (fun c => c.updLink l fun z => z.updDir d fun u => { u with
        asked := u.asked.erase (lane, sp)
        acked := u.acked ++ [(lane, sp)]
        tx := u.tx.control 3 d2dB 2048 c.tick })) ∧
    (∀ t, y.acked = (lane, sp) :: t →
      Moves s (.laneDarnAck l d) (fun c => c.updLink l fun z => z.updDir d fun u => { u with
        acked := t
        darns := Tab.set lane sp u.darns }))

/-- The guest firewall: a request that passes every check of Table 10-8 takes a token and is applied, one that fails is answered
with the check's code (R313, R314); a waiting request is admitted; a response is matched (R315); the OWNER's commands of
Table 10-9 (R316, R317). -/
def Clause.GuestRows : Prop :=
  ∀ (s : State) (h : Hdr) (g : GuestReq) (r : Region) (n access rate threshold code : Nat),
    let k := fun op lock => ({ op := op, roles := [0], lock := lock } : Cmd)
    let take := fun (w : W) => w.on fun c => { c with guest := { c.guest with tokens := c.guest.tokens - 1 } }
    (guestOk g = true → g.tag < 1024 → s.ctl.guestOpen g.tag = true →
      (s.ctl.guestCheck g = .ok r → s.ctl.guestWaits r = false →
        (g.opcode ≠ 2 → Acts s (.guestRead g) fun w => (take w).guestDo g r) ∧
        (g.opcode = 2 → Acts s (.guestWrite g) fun w => (take w).guestDo g r)) ∧
      (s.ctl.guestCheck g = .error code →
        (g.opcode ≠ 2 → Acts s (.guestRead g) (W.on (Ctl.guestErr g code))) ∧
        (g.opcode = 2 → Acts s (.guestWrite g) (W.on (Ctl.guestErr g code)))) ∧
      (s.ctl.guestCheck g = .ok r → s.ctl.guestWaits r = true →
        let wait := W.on fun c => { c with guest := { c.guest with waiting := c.guest.waiting ++ [g] } }
        (g.opcode ≠ 2 → Acts s (.guestRead g) wait) ∧ (g.opcode = 2 → Acts s (.guestWrite g) wait))) ∧
    (n < 1024 → s.ctl.guest.waiting.find? (·.tag = n) = some g → s.ctl.guestCheck g = .ok r → s.ctl.guestWaits r = false →
      Acts s (.guestTokenAdmit n) fun w =>
        (w.on fun c => { c with guest := { c.guest with waiting := c.guest.waiting.erase g } }).guestRow g) ∧
    (guestOk g = true → s.ctl.guest.linkUp = true →
      (s.ctl.guest.easelTags.contains g.tag = true →
        Moves s (.guestResponse g) fun c =>
          { c with guest := { c.guest with easelTags := c.guest.easelTags.erase g.tag } }) ∧
      (s.ctl.guest.easelTags.contains g.tag = false → Acts s (.guestResponse g) (W.on Ctl.violation))) ∧
    (s.ctl.usable 16 = true →
      (s.ctl.fabric.regions.get? n = some r → r.zeroing = false → (r.space = 1 ∧ r.base < 0xA000000 ∨ r.space = 2) →
        Does s (k 0x0428 false) h [regionArg n, Arg.num 1 (1 ≤ access && access ≤ 3)] [] (.guestRegionGrant h n access)
          (fun c => { c with guest := { c.guest with grants := Tab.set n access c.guest.grants } }) []) ∧
      (s.ctl.guest.grants.has n = true →
        let revoke := fun (c : Ctl) => { c with guest := { c.guest with grants := Tab.del n c.guest.grants } }
        (s.ctl.guestBusy n = false → Does s (k 0x0429 false) h [regionArg n] [] (.guestRegionRevoke h n) revoke []) ∧
        (s.ctl.guestBusy n = true →
          Waits s (k 0x0429 false) h [regionArg n] [] (.guestRegionRevoke h n) (W.on revoke) (.guestRevoke n))) ∧
      Does s (k 0x042A false) h [Arg.num 2 (1 ≤ rate && rate ≤ 1024), Arg.num 2 (1 ≤ threshold && threshold ≤ 65535)] []
        (.guestGaugeSet h rate threshold)
        (fun c => { c with guest := { c.guest with rate, threshold } }) (encode [.n 2 rate, .n 2 threshold]) ∧
      Does s (k 0x042B false) h [] [] (.guestEnable h)
        (fun c => { c with guest := { c.guest with enabled := true, recent := [] } }) [] ∧
      Reads s (k 0x042C true) h [] [] (.guestStatus h)
        (let y := s.ctl.guest
        encode [.n 1 (s.ctl.stateOf 16), .n 1 (if y.linkUp then 16 else 0), .n 1 (if y.linkUp then 32 else 0), .n 4 y.violations,
          .n 1 (b2n y.enabled), .list (fitting 24 (y.grants.map fun x => leBytes 2 x.1 ++ leBytes 1 x.2))]))

/-- The rows of the die-to-die links and the guest site (chapter 10). -/
def Obligations.LinkAndGuestRows : Prop := Clause.LinkRows ∧ Clause.GuestRows

/-! The tensor network and the optical edge (chapters 12 and 13). -/

/-- The OPERATOR's plan and tables: PLAN_LOAD stores the whole plan and judges every port it changes (R398, R399, R401), PLAN_AMEND
changes entries of the plan in force, and its table is installed at once where no port has to be opened and waits for those ports
otherwise, while it strands no other table (R401 to R403), PORT_REJUDGE
judges a port (R400), ROUTE_TABLE_SET installs a table in one action and ROUTE_TABLE_CLEAR takes it out (R388, R392, R406). -/
def Clause.PlanCommands : Prop :=
  ∀ (s : State) (h : Hdr) (block : Ref) (plan old : Plan) (t : RouteTable) (table : Option RouteTable) (entries : List PlanEntry)
    (p job : Nat),
    let k := fun op => ({ op := op, roles := [2] } : Cmd)
    let args := [refArg s h block]
    let judge := fun (c0 : Ctl) (c : Ctl) =>
      ((List.range 32).filter fun q => c0.router.plan.isNone || c0.planEntry q != c.planEntry q || c0.selfModule != c.selfModule).foldl
        (fun c q => c.judge q) c
    (plan.version < 2 ^ 32 → plan.self < 65536 → plan.entries.all planEntryOk = true →
      plan.entries.map (·.port) = List.range 32 → backupsOk plan.entries = true →
      Lands s (k 0x0400) h args [block] (.planLoad h block plan)
        (W.on fun c => judge c (c.onRouter fun r => { r with plan := some plan })) (encode [.n 4 plan.version]) id) ∧
    (s.ctl.router.plan = some old → entries.length ≤ 32 → entries.all planEntryOk = true → (entries.map (·.port)).Nodup →
      (let new := { old with entries := old.entries.map fun e => (entries.find? (·.port = e.port)).getD e }
      let amended := fun (c : Ctl) => c.onRouter fun r => { r with plan := some new }
      let moved := (List.range 32).filter fun q => s.ctl.planEntry q != (amended s.ctl).planEntry q
      let opened := moved.filter fun q => (amended s.ctl).isNormal q
      backupsOk new.entries = true →
      (∀ u, table = some u → tableFail u (amended s.ctl).selfModule (amended s.ctl).isNormal = none ∧ s.ctl.tableRoom u.job = true) →
      (∀ u ∈ s.ctl.router.tables.vals, (∀ v, table = some v → v.job ≠ u.job) → ∀ m ∈ u.plus ++ u.minus, ∀ q ∈ bitList m 32,
        (amended s.ctl).isNormal q = true) →
      Lands s (k 0x0401) h args [block] (.planAmend h block entries table)
        (W.on fun c =>
          moved.foldl (fun c q => c.judge q) (match table with
            | none => amended c
            | some u =>
              if opened = [] then (amended c).installTable u
              else (amended c).onRouter fun r => { r with pend := opened.foldl (fun m q => Tab.set q u m) r.pend }))
        (encode [.n 4 old.version]) id)) ∧
    (let c := (s.ctl.consume (k 0x0403) h).judge p
    Lands s (k 0x0403) h [portArg p] [] (.portRejudge h p) (W.on (Ctl.judge p)) (encode [.n 1 (c.port p).outcome]) id) ∧
    (s.ctl.router.plan ≠ none → tableFail t s.ctl.selfModule s.ctl.isNormal = none →
      (s.ctl.router.tables.length < 16 ∨ s.ctl.router.tables.has t.job = true) →
      Lands s (k 0x0410) h args [block] (.routeTableSet h block t) (W.on (Ctl.installTable t)) (encode [.n 4 t.epoch]) id) ∧
    (s.ctl.router.tables.has job = true →
      Lands s (k 0x0411) h [Arg.num 2 (1 ≤ job && job < 65536)] [] (.routeTableClear h job)
        (W.on (Ctl.onRouter fun r => { r with
          tables := Tab.del job r.tables
          broken := r.broken.filter (·.1 != job)
          pend := r.pend.filter (·.2.job != job) })) [] id)

/-- What the OWNER and FABRIC_ADMIN read of the network: the plan with each port's outcome and peer, a routing table, a port's
counters, the newest snapshot and one taken now; and the period of the snapshots (R404 to R406, Tables 13-10 to 13-12). -/
def Clause.RouterReads : Prop :=
  ∀ (s : State) (h : Hdr) (p job i ms : Nat) (t : RouteTable) (b : List Byte),
    let k := fun op => ({ op := op, roles := [0, 2] } : Cmd)
    let c := s.ctl
    Reads s { op := 0x0402, roles := [0, 2], lock := true } h [] [] (.planStatus h)
      (encode [.n 4 ((c.router.plan.map (·.version)).getD 0), .n 2 c.selfModule, .list ((List.range 32).map fun q =>
        let e := c.planEntry q
        let y := (c.port q).ident.getD ⟨0, 0xFFFF, 0, 0, 0⟩
        encodeAt 0 [.n 1 e.role, .n 8 e.serial, .n 2 e.module, .n 1 e.peerPort, .n 1 e.backsUp, .n 1 (c.port q).outcome,
          .n 8 y.serial, .n 2 y.module, .n 1 y.port, .n 1 y.major, .n 1 y.minor])]) ∧
    (c.router.tables.get? job = some t → (c.ctxOf h.pair).owns job = true →
      Reads s { op := 0x0412, roles := [0, 1, 2] } h [Arg.num 2 (1 ≤ job && job < 65536)] [] (.routeTableRead h job)
        (encode (tableItems t .list))) ∧
    Reads s (k 0x0450) h [portArg p] [] (.routerPortCounters h p)
      (let x := c.port p
      encode ([Item.n 8 x.flitsTx, .n 8 x.flitsRx, .n 8 x.pktsTx, .n 8 x.pktsRx, .n 8 (stallNow c x)]
        ++ ((List.range 7).map fun r => .n 4 (x.drops.getD (r + 1) 0))
        ++ [.n 4 x.rx.lost, .n 4 x.rx.dup, .n 4 x.tx.replays, .n 4 x.retrains, .n 4 x.naksTx, .n 4 x.naksRx]
        ++ ((List.range 8).map fun v => .n 2 (Ctl.slotsHeld x v)) ++ ((List.range 8).map fun v => .n 2 (x.queueMax.getD v 0)))) ∧
    (i < 16 → c.router.snaps.reverse[i]? = some b →
      Reads s (k 0x0451) h [Arg.num 1 (i < 16 || i = 0xFF)] [] (.routerSnapshot h i) (encodeAt 32 [.list [b]])) ∧
    ((((c.consume (k 0x0451) h).snapshot).router.snaps.reverse[0]?) = some b →
      Lands s (k 0x0451) h [Arg.num 1 true] [] (.routerSnapshot h 0xFF) (W.on Ctl.snapshot) (encodeAt 32 [.list [b]]) id) ∧
    Lands s { op := 0x0452, roles := [2] } h [Arg.num 2 (decide (ms ≤ 1000))] [] (.routerSnapshotPeriod h ms)
      (W.on fun c => c.onRouter fun r => { r with
        period := ms
        periodDue := c.tick + ms * 1000000 }) (encode [.n 2 ms]) id

/-- The events of a hop: a flit whose CRC or a codeword fails is discarded, one in sequence is accepted, with the credits, the
acknowledgement and the flits counted lost that it tells, and what waits moves on (R346, R376 to R379), as the port stands once the
symbols in error are counted, which may fail a slot (R362); the replay timeout (R379), the
identity exchange judged (R399), and the period's snapshot (R405). -/
def Clause.HopEvents : Prop :=
  ∀ (s : State) (q serial module peer major minor : Nat) (quads : List QuadPeer) (f : Flit), q < 32 →
    let x := s.ctl.port q
    let fec := fun (c : Ctl) => (c.updOPort q fun o => { o with
      fecCorrected := o.fecCorrected + fecFixed f.symbols
      fecUncorrectable := o.fecUncorrectable + fecFailed f.symbols }).countErrors q f.symbols
    let c1 := fec s.ctl
    let y := c1.port q
    (flitOk f = true → f.payload.length ≤ 236 → bit s.ctl.power.rails 5 = true → y.outcome = 1 → 1 ≤ c1.stateOf (20 + q) →
      c1.stateOf (20 + q) ≤ 3 →
      ((f.lost = true ∨ 0 < fecFailed f.symbols) → y.retrain = false →
        Acts s (.hopFlitReceive q f) (W.on fun c => (fec c).hopLose q f)) ∧
      (f.lost = false → fecFailed f.symbols = 0 → f.nak = false → f.kind ≠ 1 → f.lseq = y.rx.next → y.retrain = false →
        let d := (f.txTotal + 65536 - y.rx.counted.getD f.txVc 0) % 65536
        d < 32768 →
        Acts s (.hopFlitReceive q f) (W.on fun c =>
          (((fec c).updPort q fun y => { y with
            flitsRx := y.flitsRx + 1
            tx := (y.tx.credit f.crVc f.crTotal).ack f.ackSeq c.tick
            rx := { y.rx.free f.txVc d with
              lost := y.rx.lost + d
              counted := Tab.upd f.txVc 0 (fun t => (t + d) % 65536) y.rx.counted } }).hopAccept q f).drainAll q))) ∧
    (x.retrain = false → x.tx.unacked ≠ [] → x.tx.lastAdv + 4000 ≤ s.ctl.tick →
      Acts s (.hopReplayTimeout q) (W.on fun c => (c.replayHop q).updPort q fun y => { y with tx := y.tx.expire c.tick })) ∧
    (serial < 2 ^ 64 → module < 65536 → peer < 256 → major < 256 → minor < 256 → (s.ctl.oport q).swatch = false →
      bit s.ctl.power.rails 5 = true →
      (∀ x ∈ quads, x.quad < 4) →
      Acts s (.identityExchange q serial module peer major minor quads) (W.on fun c =>
        (quads.foldl (fun c x => c.checkQuad q x)
          (c.updPort q fun y => { y with ident := some ⟨serial, module, peer, major, minor⟩ })).judge q)) ∧
    (s.ctl.router.period ≠ 0 → s.ctl.router.periodDue ≤ s.ctl.tick →
      Acts s .periodicSnapshot (W.on fun c =>
        c.snapshot.onRouter fun r => { r with periodDue := r.periodDue + r.period * 1000000 }))

/-- Retrain, of a hop and of a die-to-die link (Table 9-3, R277, R278, R305): training completes, the receiver sends its mark once
it has drained, the sender takes the mark and replays; the link is up when both marks are taken, and a wrong free-slot count
fails it. -/
def Clause.RetrainEvents : Prop :=
  ∀ (s : State) (l p d lseq : Nat) (free : List Nat), l < 17 → d < 2 → p < 32 → lseq < 65536 →
    let x := s.ctl.link l
    let y := s.ctl.port p
    (x.st = 1 → x.trained = false → d2dDead l x = false →
      (x.retrain = false → Acts s (.linkTrainingComplete l []) (W.on (Ctl.setLinkSt l (d2dUp l x)))) ∧
      (x.retrain = true → Acts s (.linkTrainingComplete l []) (W.on (Ctl.updLink l fun z => { z with trained := true })))) ∧
    (y.retrain = true → (s.ctl.oport p).lossDue = none →
      Acts s (.linkTrainingComplete (32 + p) []) (W.on (Ctl.updPort p fun z => { z with trained := true }))) ∧
    (x.retrain = true → x.trained = true → (x.dir d).markSent = false →
      Acts s (.readyMarkSend l d) (W.on (Ctl.updLink l fun z => z.updDir d fun u => { u with
        markSent := true
        rx := { u.rx with
          freed := []
          told := []
          nak := false
          gap := false } }))) ∧
    (y.retrain = true → y.trained = true → y.inq = [] → y.markSent = false →
      Acts s (.readyMarkSend (32 + p) 1) (W.on fun c => (c.updPort p fun z => { z with
        markSent := true
        part := z.part.map fun w => (w.1, { w.2 with slots := 0 })
        rx := { z.rx with
          freed := []
          told := []
          counted := []
          gap := false
          nak := false } }).endPortRetrain p)) ∧
    (x.retrain = true → (x.dir d).markSent = true → (x.dir d).markTaken = false → lseq = ((x.dir d).rx.next + 65535) % 65536 →
      Ctl.auditBad 4 (fun _ => d2dB) free = [] →
      Acts s (.readyMark l d lseq free) (W.on fun c => (c.updLink l fun z => z.updDir d fun u => { u with
        markTaken := true
        tx := (u.tx.restore lseq c.tick).retake }).endLinkRetrain l)) ∧
    (y.retrain = true → y.trained = true → y.markTaken = false →
      (Ctl.auditBad 8 hopB free = [] →
        Acts s (.readyMark (32 + p) 0 lseq free) (W.on fun c => (c.updPort p fun z => { z with
          markTaken := true
          tx := (z.tx.restore lseq c.tick).retake }).endPortRetrain p)) ∧
      (Ctl.auditBad 8 hopB free ≠ [] →
        Acts s (.readyMark (32 + p) 0 lseq free) (W.on fun c =>
          (((c.updPort p fun z => { z with
            markTaken := true
            tx := (z.tx.restore lseq c.tick).retake }).updPort p fun z => { z with dead := 0x13 }).audit (32 + p) 8 hopB free).settlePort p)))

/-- The hop protocol of the network ports and the retraining of their links (chapters 12 and 13). -/
def Obligations.HopAndRetrainEvents : Prop := Clause.HopEvents ∧ Clause.RetrainEvents

/-- The commands of Table 12-8: a port's and its grid slots' status (R372, R373), a steer and a swatch test that answer at their
outcome (R349, R367), the calibration interval (R357) and a slot retired (R362). -/
def Clause.OpticCommands : Prop :=
  ∀ (s : State) (h : Hdr) (p dir j m interval : Nat) (places : List Nat),
    Reads s { op := 0x0440, roles := [0, 1, 2], lock := true } h [portArg p] [] (.opticPortStatus h p) (s.ctl.optStatus p) ∧
    Reads s { op := 0x0441, roles := [0, 2], lock := true } h [portArg p, laneDirArg dir] [] (.opticSlotStatus h p dir)
      ((List.range 18).flatMap (gridRecord s.ctl p dir)) ∧
    (placesClash places = false →
      Waits s { op := 0x0442, roles := [2] } h
        [Arg.num 1 (decide (m < 4)), Arg.blk 32 (places.length = 32 && places.all fun x => x < 8 || x = 15)] []
        (.opticSteer h m places)
        (W.on fun c => { c with optics := { c.optics with
          steer := Tab.upd m [] (· ++ [(c.optics.steerSeq, places)]) c.optics.steer
          steerSeq := c.optics.steerSeq + 1 } }) (.steer s.ctl.optics.steerSeq)) ∧
    (p ≠ 0xFF →
      Lands s { op := 0x0443, roles := [0] } h
        [Arg.num 1 (p < 32 || p = 0xFF), Arg.num 8 (interval = 0 || (100000000 ≤ interval && interval ≤ 60000000000))] []
        (.opticCalSet h p interval)
        (W.on fun c =>
          let set := fun (x : FibreDir) => { x with
            interval := interval
            calDue := c.tick + interval }
          (c.updFibre p 0 set).updFibre p 1 set) (encode [.n 8 interval]) id) ∧
    (bit s.ctl.power.rails 5 = true →
      Waits s { op := 0x0444, roles := [0, 2] } h [portArg p] [] (.opticSwatchRun h p) (W.on (Ctl.startSwatch p)) (.swatch p)) ∧
    (let k : Cmd := { op := 0x0445, roles := [0] }
     let args := [portArg p, laneDirArg dir, Arg.num 1 (decide (j < 16))]
     let f := (s.ctl.oport p).place.getD (j / 4) p
     let old := (s.ctl.fibre f dir).map.get? j
     let c := (s.ctl.consume k h).ownerRetire f dir j
     let new := (c.fibre f dir).map.get? j
     old.isSome = true →
      (new = old → Waits s k h args [] (.opticSlotRetire h p dir j) (W.on (Ctl.ownerRetire f dir j)) (.slotRetire f dir j)) ∧
      (new ≠ old → Lands s k h args [] (.opticSlotRetire h p dir j) (W.on (Ctl.ownerRetire f dir j))
        (encode [.n 1 (new.getD 0xFF), .n 1 (c.portWidth p dir)]) id))

/-- The mailbox commands of the plan, the routing tables, the router's counters and the optical edge (chapters 12 and 13). -/
def Obligations.NetworkCommands : Prop := Clause.PlanCommands ∧ Clause.RouterReads ∧ Clause.OpticCommands

/-- The ring loops, lasers and slot moves: a ring that is locked is recorded, with the light that it finds, and one unlocked fails its
grid slot (R354, R356); a laser's reading is kept, its warning is acted on, and the floor reached twice fails the grid slot (R359 to R361);
a changeover and a calibration copy the slot onto a spare and end as verified (R357, R360, R365), a slot retired by failure comes back
after a good sweep (R364), and the far ends' moves and reports are followed (R361, R362). The laser's P0 is the module's own (free)
value. -/
def Clause.OpticSlots : Prop :=
  ∀ (s : State) (f dir w j heater margin sp : Nat) (power : Int) (r : LoopReading) (m : LaneMove) (g : Grid) (k : SlotCopy)
    (verified : List Nat), f < 32 → dir < 2 → w < 18 → j < 16 →
    let tx := s.ctl.fibre f 0
    let d := s.ctl.fibre f dir
    let p0 := Config.laserP0 f w
    let reads := lastN 100 (g.reads ++ [power])
    (heater < 256 → r.offset.natAbs ≤ 100 →
      let locked := fun (y : Grid) => { y with
        offset := r.offset
        heater := heater
        out := 0 }
      Acts s (.ringLoopUpdate f 0 w r heater false) (W.on (Ctl.updGrid f 0 w locked)) ∧
      Acts s (.ringLoopUpdate f 1 w r heater false) (W.on fun c => (c.updGrid f 1 w fun y => { locked y with power := r.power }).setLit f w
        r.light) ∧
      Acts s (.ringLoopUpdate f 0 w r heater true) (W.on fun c => (c.updGrid f 0 w locked).failGrid f 0 w 6)) ∧
    (heater < 256 → 100 < r.offset.natAbs → 9 ≤ (tx.grid.getD w {}).out →
      Acts s (.ringLoopUpdate f 0 w r heater false) (W.on fun c => (c.updGrid f 0 w fun y => { y with
        offset := r.offset
        heater := heater
        out := y.out + 1 }).failGrid f 0 w 6)) ∧
    (tx.grid.getD w {} = g → p0 - 300 < power →
      (g.warned = true ∨ reads.length < 100 ∨ 100 * (p0 - 150) < reads.sum →
        Acts s (.laserMonitorRead f w power []) (W.on (Ctl.updGrid f 0 w fun _ => { g with
          power := power
          reads := reads
          low := false }))) ∧
      (g.warned = false → reads.length = 100 → reads.sum ≤ 100 * (p0 - 150) → tx.map.find? (fun x => decide (x.2 = w)) = some (j, w) →
        Acts s (.laserMonitorRead f w power []) (W.on fun c => (c.updGrid f 0 w fun _ => { g with
          power := power
          reads := reads
          low := false
          warned := true }).warnLaser f j w))) ∧
    (tx.grid.getD w {} = g → power ≤ p0 - 300 → g.low = true → g.warned = true → g.floored = false →
      Acts s (.laserMonitorRead f w power []) (W.on fun c => (c.updGrid f 0 w fun _ => { g with
        power := power
        reads := reads
        floored := true }).failGrid f 0 w 5)) ∧
    (tx.copy = none → tx.warn.has w = true → (s.ctl.portsOn f).all s.ctl.portQuiet = true →
      tx.map.find? (fun x => decide (x.2 = w)) = some (j, w) → Ctl.freeSlot tx = some sp →
      Acts s (.laserChangeover f w []) (W.on (Ctl.startCopy f 0 ⟨false, j, w, sp, []⟩))) ∧
    (tx.copy = some k → k.cal = false → k.grid = w → (∀ x ∈ verified, x < 18) →
      Acts s (.laserChangeover f w verified) (W.on fun c =>
        if k.spare ∈ verified then (c.finishCopy f 0 4).drainWaiting f
        else (c.dropCopy f 0 0).beginChangeover f w (k.spare :: k.tried))) ∧
    (laneMoveOk m = true → Acts s (.laneMove f j m) (W.on fun c => (c.dropCopy f 1 0).moveSlot f 1 j m.cause m.spare)) ∧
    Acts s (.slotFailReport f j) (W.on (Ctl.failSlot f 0 j 6)) ∧
    (margin < 256 → d.copy = some k → k.cal = true →
      Acts s (.calIntervalExpire f dir true margin) (W.on fun c =>
        (c.updOPort (c.slotPort f k.slot) fun o => { o with cals := inc32 o.cals }).dropCopy f dir 0)) ∧
    (margin < 256 → d.copy = none → d.interval ≠ 0 → d.calDue ≤ s.ctl.tick → Ctl.calSlot d = some w →
      let turned := fun (c : Ctl) => c.updFibre f dir fun x => { x with
        calNext := (w + 1) % 18
        calDue := c.tick + d.interval }
      (Ctl.reexam d w = false → d.map.get? w = some j → Ctl.freeSlot d = some sp →
        Acts s (.calIntervalExpire f dir true margin) (W.on fun c => (turned c).startCopy f dir ⟨true, w, j, sp, []⟩)) ∧
      (Ctl.reexam d w = true → 6 ≤ margin →
        Acts s (.calIntervalExpire f dir true margin) (W.on fun c =>
          ((turned c).updGrid f dir w fun g => { g with margin := min 24 margin }).restoreSlot f dir w)))

/-- Light and steering: the swatch test of the port in turn completes and the port is judged (R349 to R352), light is not found, returns
and is lost (R353, R371), and a steer moves its quads at its moment (R366, R367). -/
def Clause.OpticLight : Prop :=
  ∀ (s : State) (p m due id : Nat) (tx rx : List Sweep) (places : List Nat) (rest : List (Nat × List Nat)), p < 32 → m < 4 →
    let o := s.ctl.oport p
    (sweepsOk tx = true → sweepsOk rx = true → s.ctl.swatchTurn (p / 4) = some p → (s.ctl.port p).inq = [] →
      Acts s (.swatchComplete p tx rx) (W.on fun c =>
        ((((c.updOPort p fun o => { o with swatch := false }).formMaps p tx rx).passTurn p).freshHop p).judge p)) ∧
    (o.swatch = true → s.ctl.litSlots p = 0 → o.settled + 10000000000 ≤ s.ctl.tick →
      Acts s (.noLightTimeout p) (W.on fun c =>
        ((c.updOPort p fun o => { o with
          swatch := false
          noLight := true }).passTurn p).judge p)) ∧
    (bit s.ctl.power.rails 5 = true → 4 ≤ s.ctl.litSlots p → o.lightAt + 10000000 ≤ s.ctl.tick →
      (o.swatch = true → Acts s (.lightReturn p) (W.on (Ctl.updOPort p fun o => { o with lossDue := none }))) ∧
      (o.swatch = false → o.noLight = true →
        Acts s (.lightReturn p) (W.on fun c => (c.updOPort p fun o => { o with lossDue := none }).startSwatch p))) ∧
    (bit s.ctl.power.rails 5 = true → s.ctl.litSlots p < 4 → o.lightAt + 1000000 ≤ s.ctl.tick → o.swatch = false → o.noLight = false →
      o.lossDue = none → (s.ctl.port p).dead = 0 → (s.ctl.port p).outcome ≠ 4 → (s.ctl.port p).outcome ≠ 6 →
      Acts s (.lightLoss p) (W.on fun c =>
        (c.updOPort p fun o => { o with lossDue := some (c.tick + 100000000) }).retrainPort p)) ∧
    (o.lossDue = some due → due ≤ s.ctl.tick →
      Acts s (.lightLossTimeout p) (W.on fun c =>
        ((c.updOPort p fun o => { o with lossDue := none }).updPort p fun x => { x with
          dead := 0x0E
          retrain := false
          tx := { x.tx with unacked := [] } }).settlePort p)) ∧
    (s.ctl.optics.steer.get? m = some ((id, places) :: rest) → s.ctl.steerReady m places = true → s.ctl.optics.steering.has m = false →
      Acts s (.steerExecute m) (W.on (Ctl.steerApply m id places rest)))

/-- The events of the optical edge (chapter 12). -/
def Obligations.OpticRows : Prop := Clause.OpticSlots ∧ Clause.OpticLight

/-! Collectives, pipeline channels and the spare fill (chapter 15). -/

/-- COLL_CREATE, COLL_START, COLL_DESTROY, COLL_STATUS and COLL_POLICY_SET (Table 15-10): a collective whose arguments agree and
whose buffers lie in regions of its job gets its start line and its first generation (R432 to R440), a start of the generation it
awaits runs it (R443), it is destroyed with a frog where one is under way (R468), its status is read (R467), and a policy holds from
the next generation (R468). -/
def Clause.CollCommands : Prop :=
  ∀ (s : State) (h : Hdr) (a : CollArgs) (t : RouteTable) (r n cid gen policy timeout share : Nat) (c : Ctl) (k : Coll),
    let x := s.ctl.ctxOf h.pair
    let kc : Cmd := { op := 0x0500, roles := [0, 1] }
    (jobCheck s.ctl x a.job (offOf (collCreateArgs a) 1) = none → s.ctl.usable 17 = true → s.ctl.colls.colls.has a.id = false →
      a.cmds.length ≤ 8 → onCommitOk a = true → s.ctl.router.tables.get? a.job = some t →
      (∀ d < 3, bit a.dimMask d = true → d < t.lens.length) → collAgrees a (collDims t a.dimMask) = true →
      (∀ b ∈ collNeeds a (collDims t a.dimMask), s.ctl.inJobRegion a.job b.1 b.2 = true) →
      (a.tile < 192 → s.ctl.jobOfTile a.tile = some a.job) →
      (s.ctl.consume kc h).addRegion { space := 1, base := 0xA000000 + 64 * a.id, len := 64, job := a.job, perm := 2, opn := 0, repl := 0
                                       key := 0, use := .collStart a.id } = some (r, n, c) →
      Lands s kc h (collCreateArgs a) (collCreateRefs h a) (.collCreate h a)
        (fun w => { w with
          c := (c.onColls fun z => { z with colls := Tab.set a.id (newColl a x.sid r) z.colls }).readShape a.id })
        (encode [.n 2 r, .n 4 n]) id) ∧
    (s.ctl.colls.colls.get? cid = some k → x.owns k.a.job = true →
      Lands s { op := 0x0501, roles := [0, 1] } h [collArg cid] [] (.collDestroy h cid)
        (fun w => (if k.busy then w.frogDestroyed cid k else w).on (Ctl.dropColl cid)) [] id ∧
      (s.ctl.collStopped k = false → s.ctl.usable 17 = true → k.st = .idle → gen = k.gen →
        Lands s { op := 0x0502, roles := [0, 1] } h [collArg cid, Arg.num 4 (decide (gen < 2 ^ 32))] [] (.collStart h cid gen)
          (W.collStart cid gen) [] id) ∧
      Reads s { op := 0x0503, roles := [0, 1, 2], lock := true } h [collArg cid] [] (.collStatus h cid)
        (encode ([.n 1 k.st.code, .n 4 k.gen, .n 1 (k.attempt % 256)] ++ cntItems k.cnt ++ [.list (k.suspects.map (leBytes 2))])) ∧
      ((k.st = .idle ∨ k.st = .aborted) → (policy = 0 ∨ k.a.direct = true) →
        (policy ≠ 1 ∨ k.a.reduces = false ∨ (k.a.carry0.isSome = true ∧ k.a.carry1.isSome = true)) →
        Lands s { op := 0x0505, roles := [1, 2] } h
          [collArg cid, Arg.num 1 (decide (policy < 3)), Arg.num 8 (10000 ≤ timeout && timeout ≤ 1000000000),
            Arg.num 1 (1 ≤ share && share ≤ 64)] [] (.collPolicySet h cid policy timeout share)
          (W.on (Ctl.updColl cid fun y => { y with
            policyNext := policy
            timeoutNext := timeout
            shareNext := share })) (encode [.n 1 policy, .n 8 timeout, .n 1 share]) id))

/-- COLL_RESUME and COLL_ABORT, of one collective and of a job's; COLL_EXPEL and JOB_EXPEL_BUDGET_SET (R451, R456, R462). -/
def Clause.CollControl : Prop :=
  ∀ (s : State) (h : Hdr) (cid job m budget refill : Nat) (k : Coll) (j : Job),
    let x := s.ctl.ctxOf h.pair
    let args := [Arg.num 1 (cid < 64 || cid = 0xFF), Arg.num 2 (decide (job < 65536))]
    let k4 : Cmd := { op := 0x0504, roles := [1, 2] }
    let k6 : Cmd := { op := 0x0506, roles := [1, 2] }
    (cid ≠ 0xFF → s.ctl.colls.colls.get? cid = some k → x.owns k.a.job = true →
      (s.ctl.usable 17 = true → k.st = .aborted →
        Lands s k4 h args [] (.collResume h cid job) (W.on (Ctl.collResume cid)) [] id) ∧
      (let eff := fun (w : W) => w.collTrigger cid 5 w.c.selfModule false
      ((((eff (s.taken k6 h)).c.colls.colls.get? cid).any Coll.busy = true →
        Waits s k6 h args [] (.collAbort h cid job) eff (.coll cid)) ∧
      (((eff (s.taken k6 h)).c.colls.colls.get? cid).any Coll.busy = false →
        Lands s k6 h args [] (.collAbort h cid job) eff [] id)))) ∧
    (cid = 0xFF → s.ctl.jobLive job = true → x.owns job = true →
      (s.ctl.usable 17 = true →
        Lands s k4 h args [] (.collResume h cid job)
          (W.on fun c => (c.colls.colls.filter fun (y : Nat × Coll) => y.2.a.job = job).foldl
            (fun (c : Ctl) (y : Nat × Coll) => c.collResume y.1) c) [] id) ∧
      (let eff := fun (w : W) => w.triggerWhere 5 w.c.selfModule true (fun k => k.a.job = job) fun k => k.a.job = job
      (((eff (s.taken k6 h)).c.colls.colls.vals.any fun k => k.a.job = job && k.busy) = true →
        Waits s k6 h args [] (.collAbort h cid job) eff (.collJob job)) ∧
      (((eff (s.taken k6 h)).c.colls.colls.vals.any fun k => k.a.job = job && k.busy) = false →
        Lands s k6 h args [] (.collAbort h cid job) eff [] id))) ∧
    (s.ctl.jobs.get? job = some j →
      (j.available ≠ 0 →
        Lands s { op := 0x0507, roles := [2] } h [jobArg job, Arg.num 2 (decide (m < 65536))] [] (.collExpel h job m)
          (fun w => (w.on fun c => { c with jobs := Tab.set job { j with
            available := j.available - 1
            refillDue := if j.available = j.budget then c.tick + j.refill else j.refillDue
            expelled := insNat m j.expelled } c.jobs }).moduleTrigger job m 4) [] id) ∧
      Lands s { op := 0x0508, roles := [0] } h
        [jobArg job, Arg.num 1 (decide (budget ≤ 16)), Arg.num 8 (3600000000000 ≤ refill && refill ≤ 604800000000000)] []
        (.jobExpelBudgetSet h job budget refill)
        (W.on fun c => { c with jobs := Tab.set job { j with
          budget := budget
          refill := refill
          available := min j.available budget
          refillDue := if j.available < budget ∧ j.budget ≤ j.available then c.tick + refill else j.refillDue } c.jobs }) (encode [.n 1 budget, .n 8 refill]) id)

/-- The mailbox commands of collectives (chapter 15). -/
def Obligations.CollectiveCommands : Prop := Clause.CollCommands ∧ Clause.CollControl

/-- The pipeline channels' and the spare's commands (R457, R458, R463, R464, R467, R468). -/
def Obligations.PipeCommands : Prop :=
  ∀ (s : State) (h : Hdr) (a : PipeArgs) (cid r1 k1 r2 k2 job source : Nat) (block : Ref) (pairs : List FillPair) (c1 c2 : Ctl)
      (anchor : Coll) (p : Pipe),
    let x := s.ctl.ctxOf h.pair
    let kc : Cmd := { op := 0x0510, roles := [0, 1] }
    let line := fun off use => ({ space := 1, base := 0xA001000 + 128 * a.id + off, len := 64, job := a.job, perm := 2, opn := 0
                                  repl := 0, key := 0, use := use } : Region)
    (jobCheck s.ctl x a.job (offOf (pipeCreateArgs a) 1) = none → s.ctl.usable 17 = true → s.ctl.colls.pipes.has a.id = false →
      s.ctl.colls.colls.get? a.anchor = some anchor → anchor.a.job = a.job →
      s.ctl.inJobRegion a.job a.buffer (a.slots * a.slotBytes) = true → (a.tile < 192 → s.ctl.jobOfTile a.tile = some a.job) →
      (a.dir = 1 → recvSlots s.ctl + a.slots * a.samples ≤ 256) →
      (s.ctl.consume kc h).addRegion (line 0 (.pipeStart a.id)) = some (r1, k1, c1) →
      c1.addRegion (line 64 (.pipeRelease a.id)) = some (r2, k2, c2) →
      Lands s kc h (pipeCreateArgs a) [] (.pipeCreate h a)
        (fun w => { w with
          c := c2.onColls fun z => { z with
            pipes := Tab.set a.id { a, session := x.sid, start := r1, release := r2, gen := anchor.gen, attempt := anchor.attempt }
              z.pipes } })
        (encode [.n 2 r1, .n 4 k1, .n 2 r2, .n 4 k2]) id) ∧
    (s.ctl.colls.pipes.get? cid = some p → x.owns p.a.job = true →
      Lands s { op := 0x0511, roles := [0, 1] } h [collArg cid] [] (.pipeDestroy h cid) (W.on (Ctl.dropPipe cid)) [] id ∧
      Reads s { op := 0x0512, roles := [0, 1, 2], lock := true } h [collArg cid] [] (.pipeStatus h cid)
        (encode ([.n 1 (if p.a.dir = 0 then p.busy.length
          else (p.full ++ p.parts.map fun q => (q.gen, bits q.typeArg 11 6)).eraseDups.length), .n 4 p.gen] ++ cntItems p.cnt))) ∧
    (jobCheck s.ctl x job (offOf (spareFillArgs s h job source block pairs) 0) = none → 1 ≤ pairs.length → pairs.length ≤ 64 →
      fillPairsOk source pairs = true → s.ctl.usable 18 = true → (∀ y, s.ctl.colls.spares.get? job = some y → y.running = false) →
      (∀ q ∈ pairs, s.ctl.inJobRegion job q.dst q.len = true ∧
        ∃ g, s.ctl.regionAt 2 (bits q.dst 43 0) = some g ∧ g.2.key = q.dstKey) →
      Waits s { op := 0x0520, roles := [2] } h (spareFillArgs s h job source block pairs) (if 4 < pairs.length then [block] else [])
        (.spareFill h job source block pairs) (fun w => (w.on (Ctl.beginFill job source pairs)).on (Ctl.fillPump 16 job)) (.fill job)) ∧
    (s.ctl.jobLive job = true →
      (∀ y, s.ctl.colls.spares.get? job = some y → y.promotable = true → y.running = false →
        Lands s { op := 0x0521, roles := [2] } h [jobArg job] [] (.sparePromote h job)
          (W.on (Ctl.updSpare job fun z => { z with promoted := true })) [] id) ∧
      Reads s { op := 0x0522, roles := [2, 0], lock := true } h [jobArg job] [] (.spareStatus h job)
        (let y := s.ctl.colls.spares.getD job {}
        encode [.n 1 y.done, .n 1 y.outcome, .n 1 (b2n y.promotable)]))

/-- The engine's packets at their receiver: one that is taken is acknowledged and acts once, on the collective, the vote, the channel
or the attempt that it names (R280, R433, R444, R446, R451, R459). -/
def Obligations.EnginePackets : Prop :=
  ∀ (s : State) (p : Pkt) (g : W → W),
    (collTake p s.world = .act g →
      (s.Arrives 0x20 0 p → Acts s (.contribPacket p) (ackedThen 0 p g)) ∧
      (s.Arrives 0x21 0 p → Acts s (.collGatherPacket p) (ackedThen 0 p g)) ∧
      (s.Arrives 0x22 0 p → Acts s (.exchangePacket p) (ackedThen 0 p g)) ∧
      (s.Arrives 0x23 0 p → Acts s (.bcastPacket p) (ackedThen 0 p g)) ∧
      (s.Arrives 0x24 0 p → Acts s (.votePacket p) (ackedThen 0 p g))) ∧
    (pipeTake p s.world = .act g → s.Arrives 0x25 0 p → Acts s (.pipeData p) (ackedThen 0 p g)) ∧
    (∀ (k : Pipe), s.Arrives 0x26 0 p → s.ctl.colls.pipes.get? (bits p.typeArg 5 0) = some k → k.a.job = p.job → k.a.dir = 0 →
      k.a.peer = p.src → k.busy.contains (p.gen, bits p.typeArg 11 6) = true →
      k.waiting = [] ∨ s.ctl.pipeBlocked (bits p.typeArg 5 0) = false →
      Acts s (.pipeCredit p) (ackedThen 0 p fun w =>
        (w.on (Ctl.updPipe (bits p.typeArg 5 0) fun y => { y with busy := y.busy.erase (p.gen, bits p.typeArg 11 6) })).pipePump
          (bits p.typeArg 5 0) 64)) ∧
    (s.Arrives 0x30 3 p → p.payload.length = 8 →
      (bit p.typeArg 7 = true → frogAllTake p s.world = .act g → Acts s (.frogPacket p) (ackedThen 3 p g)) ∧
      (bit p.typeArg 7 = false → bit p.typeArg 6 = false → frogTake (bits p.typeArg 5 0) p s.world = .act g → Acts s (.frogPacket p) (ackedThen 3 p g)) ∧
      (bit p.typeArg 7 = false → bit p.typeArg 6 = true → pipeFrogTake (bits p.typeArg 5 0) p s.world = .act g → Acts s (.frogPacket p) (ackedThen 3 p g)))

/-- What a contribution does, by its attempt and its place: one of the running generation and attempt is applied (R446); one of the
next generation is kept for it; one of a generation or attempt past is counted LATE and changes nothing else (R289, R446). -/
def Obligations.ContributionPlaces : Prop :=
  ∀ (w : W) (p : Pkt) (k : Coll),
    let cid := bits p.typeArg 5 0
    w.c.colls.colls.get? cid = some k → k.a.job = p.job → p.type ≠ 0x24 →
    (p.gen = k.gen → p.gen ≠ (k.gen + 1) % 2 ^ 32 → bits p.typeArg 23 16 = k.attempt % 256 → k.st = .running ∨ k.st = .voting →
      k.outside p = false → w.c.collStopped k = false → collTake p w = .act (W.contribution cid p)) ∧
    (p.gen = (k.gen + 1) % 2 ^ 32 →
      collTake p w = .act (W.on (Ctl.updColl cid fun y => { y with early := y.early ++ [p] }))) ∧
    (p.gen ≠ k.gen → p.gen ≠ (k.gen + 1) % 2 ^ 32 → genAfter p.gen k.gen = false → collTake p w = .act (W.on (addLate cid))) ∧
    (p.gen = k.gen → p.gen ≠ (k.gen + 1) % 2 ^ 32 → bits p.typeArg 23 16 ≠ k.attempt % 256 →
      attemptAfter (bits p.typeArg 23 16) (k.attempt % 256) = false → collTake p w = .act (W.on (addLate cid)))

/-- The writes to the engine's lines (R443, R459): each is acknowledged, a start line starts its collective, a send line queues its
micro-batch, a release line frees it and sends the credit. -/
def Clause.EngineLines : Prop :=
  ∀ (s : State) (p : Pkt) (r : W × List Pkt) (cid : Nat) (k : Pipe), s.Admits p [] r → p.type = 2 →
    let g := fieldAt p.payload 8 4
    let m := fieldAt p.payload 12 2
    (s.ctl.useOf p = .collStart cid → (s.ctl.colls.colls.get? cid).any s.ctl.collStopped = false → p.span = 64 →
      Acts s (.generationStartWrite p) fun _ => r.1.lineStore p (W.collStart cid g)) ∧
    (s.ctl.useOf p = .pipeStart cid → r.1.c.colls.pipes.get? cid = some k → k.a.dir = 0 → s.ctl.pipeBlocked cid = false → p.offset % 64 = 0 → 6 ≤ p.span → m < 64 →
      k.takes g = true → k.sent.contains (g, m) = false → k.sending.contains (g, m) = false → k.waiting.contains (g, m) = false →
      Acts s (.pipeSendStart p) fun _ => r.1.lineStore p fun w =>
        (w.on (Ctl.updPipe cid fun y => { y with waiting := y.waiting ++ [(g, m)] })).pipePump cid 64) ∧
    (s.ctl.useOf p = .pipeRelease cid → r.1.c.colls.pipes.get? cid = some k → k.full.contains (g, m) = true → p.offset % 64 = 0 →
      6 ≤ p.span →
      Acts s (.pipeReleaseWrite p) fun _ => r.1.lineStore p (W.on fun c =>
        (c.updPipe cid fun y => { y with full := y.full.erase (g, m) }).sendPipe cid [pipePkt k 0x26 g m []]))

/-- The engine's timers: a step late under WAIT is reported and under CARRY or DROP released (R447), a vote's grace ends in a
rollback (R451), a held phase begins (R439), on-commit commands are tried again (R445), an expel unit returns (R462), and a frog is
sent again (R452). -/
def Clause.EngineTimers : Prop :=
  ∀ (s : State) (cid job nbr due tag : Nat) (k : Coll) (x : CStep) (j : Job) (t : Txn), cid < 64 →
    let late := fun (k : Coll) => ({ k with
      stepDue := none
      expired := k.expired ++ [k.step]
      cnt := { k.cnt with timeouts := inc32 k.cnt.timeouts } } : Coll)
    let missing := (x.await.map (·.1)).filter fun m => !k.done.contains (k.step, m) && !k.released.contains (k.step, m)
    (s.ctl.colls.colls.get? cid = some k →
      (k.stepDue = some due → k.plan[k.step]? = some x → k.st = .running → k.begun = true → due ≤ s.ctl.tick → s.ctl.collStopped k = false →
        (x.reducing = false ∨ k.policy = 0 → Acts s (.stepTimeoutExpire cid) fun w =>
          (w.on (Ctl.updColl cid late)).on (Ctl.event 0x0510
            (encode [.n 1 cid, .n 4 k.gen, .n 1 (k.attempt % 256), .n 2 (missing.head?.getD 0)]) { tenant := [k.a.job] })) ∧
        (x.reducing = true → k.policy ≠ 0 → Acts s (.stepTimeoutExpire cid) fun w =>
          ((w.on (Ctl.updColl cid late)).on (Ctl.updColl cid fun y => { y with
            released := y.released ++ missing.map fun m => (k.step, m) })).run cid)) ∧
      (k.st = .voting → k.committing = false → k.grace = some due → due ≤ s.ctl.tick →
        Acts s (.voteGraceExpire cid) (W.collRollback cid)) ∧
      (k.st = .running → s.ctl.collStopped k = false → k.hold = some due → (due ≤ s.ctl.tick ∨ s.ctl.collHeld k = false) →
        Acts s (.phaseBoundaryRelease cid) fun w => (w.beginStep cid true).run cid) ∧
      (k.committing = true → k.commitDue ≤ s.ctl.tick →
        Acts s (.onCommitRetry cid) (W.commitWork cid))) ∧
    (1 ≤ job → job < 65536 → s.ctl.jobs = [(job, j)] → j.available < j.budget → j.refillDue ≤ s.ctl.tick →
      Moves s (.expelRefill job) fun c => { c with jobs := [(job, { j with
        available := j.available + 1
        refillDue := j.refillDue + j.refill })] }) ∧
    (nbr < 65536 → (s.ctl.fabric.txns.filter fun y => y.2.who = .frog false cid nbr && y.2.due ≤ s.ctl.tick) = [(tag, t)] →
      let u := { t with
        late := true
        bad := if t.nakWait then t.bad else t.bad + 1 }
      Ctl.givenUp u = false →
      Acts s (.frogResend cid nbr) fun w => (w.on (Ctl.countTimeout (tagUnit tag))).on fun c =>
        (c.onFabric fun f => { f with txns := Tab.set tag u f.txns }).frogCopy tag)

/-- SPARE_FILL_PAIR_CHECK (R463, R464): equal digests carry the fill on to its next pair or end it with FILL_OK; a mismatch copies the
pair once more and then ends it with FILL_MISMATCH. The local digest reads the range's lines, with what their errors bring about
(R214). -/
def Clause.SpareFillCheck : Prop :=
  ∀ (s : State) (job : Nat) (src : List Byte) (x : Spare) (pr : FillPair), 1 ≤ job → job < 65536 → src.length = 64 →
    s.ctl.colls.spares.get? job = some x → x.pairs[x.done]? = some pr → x.running = true → x.digest = true →
    let look := fun (w : W) =>
      if bits pr.dst 47 44 = 2 then w.scan (stackOf (bits pr.dst 43 0)) (stackA (bits pr.dst 43 0)) pr.len 0 else w
    let m := (look s.world).b.mem
    let same := m.anyPoison (memKey pr.dst) pr.len = false ∧ sha3 (m.readBytes (memKey pr.dst) pr.len) = src
    let next := fun (c : Ctl) => c.updSpare job fun y => { y with
      done := y.done + 1
      retried := false
      pos := 0
      digest := false }
    (same → x.done + 1 < x.pairs.length → Acts s (.spareFillPairCheck job src) (fun w => (look w).on fun c => (next c).fillPump 16 job)) ∧
    (same → x.pairs.length = x.done + 1 → Acts s (.spareFillPairCheck job src) (fun w => (look w).on fun c => (next c).fillEnd job 0)) ∧
    (¬ same → x.retried = true → Acts s (.spareFillPairCheck job src) (fun w => (look w).on (Ctl.fillEnd job 1))) ∧
    (¬ same → x.retried = false → Acts s (.spareFillPairCheck job src) (fun w => (look w).on fun c =>
      (c.updSpare job fun y => { y with
        retried := true
        pos := 0
        digest := false }).fillPump 16 job))

/-- The collective engine's lines in the hub SRAM, its timers, and the check of a spare fill (chapter 15). -/
def Obligations.EngineLinesAndTimers : Prop := Clause.EngineLines ∧ Clause.EngineTimers ∧ Clause.SpareFillCheck

/-! The serving engine (chapter 16). -/

/-- The model's commands (R470, R479, R488, R502): a model that nothing refuses is loaded with the digest of its weights and a queue
for each pool, unloaded, its tokeniser table stored, its pools shrunk. -/
def Clause.ServeModel : Prop :=
  ∀ (s : State) (h : Hdr) (a : ModelArgs) (m : Model) (slot : Nat) (block : Ref) (table : BpTable) (limits : List Nat) (pools : Tab Pool)
      (c : Ctl),
    let x := s.ctl.ctxOf h.pair
    let k := fun op => ({ op := op, roles := [0, 1] } : Cmd)
    let read := (s.taken (k 0x0600) h).readWeights a
    let digest := sha3 ((read.c.weightRegions a).flatMap fun r => read.b.mem.readBytes (2 * 2 ^ 44 + r.base) r.len)
    (modelFail x a (s.ctl.consume (k 0x0600) h) = none → read.weightsPoisoned a = false →
      Ctl.openPools a x.sid a.pools read.c = some (pools, c) →
      Lands s (k 0x0600) h (modelArgs a) (modelRefs h a) (.serveModelLoad h a)
        (fun w => { w.readWeights a with
          c := (c.onServe fun y => { y with
            model := some { a := a, session := x.sid, digest := digest, progs := read.c.modelProgs a.job, pools := pools } }).newMaxResident })
        (encode [.raw 8 digest]) id) ∧
    (s.ctl.serve.model = some m → x.owns m.a.job = true →
      Lands s (k 0x0601) h [] [] (.serveModelUnload h) (W.on Ctl.unloadModel) [] id ∧
      (s.ctl.usable 19 = true → poolLimitsFail s.ctl m limits = none →
        (((s.taken (k 0x0603) h).setPoolLimits limits).c.pagesToMove = false →
          Lands s (k 0x0603) h [Arg.ref (limits.length = 8)] (limitsRefs h limits) (.servePoolShrink h limits) (W.setPoolLimits limits)
            [] id) ∧
        (((s.taken (k 0x0603) h).setPoolLimits limits).c.pagesToMove = true →
          Waits s (k 0x0603) h [Arg.ref (limits.length = 8)] (limitsRefs h limits) (.servePoolShrink h limits) (W.setPoolLimits limits)
            .pool))) ∧
    (s.ctl.usable 19 = true → bpOk ((s.ctl.serve.model.map (·.a.vocab)).getD 262144) table = true →
      (∀ y ∈ s.ctl.serve.contracts.vals, y.a.tokeniser ≠ slot) →
      Lands s (k 0x0602) h [Arg.num 1 (decide (slot < 4)), refArg s h block] [block] (.serveTokeniserLoad h slot block table)
        (W.on (Ctl.onServe fun y => { y with tables := Tab.set slot table y.tables })) (encode [.raw 8 (sha3 (refBlock s block))]) id)

/-- The contract's commands (R482, R492, R495, R496, R498, R502): a contract that nothing refuses is made, its key replaced with 60 s
of grace, closed, its status, a window and the floor read. -/
def Clause.ServeContracts : Prop :=
  ∀ (s : State) (h : Hdr) (a0 : ContractArgs) (m : Model) (cid seq b step ctx : Nat) (key : List Byte) (y : Contract)
      (r : Nat × List Byte),
    let x := s.ctl.ctxOf h.pair
    let k := fun op => ({ op := op, roles := [0, 1] } : Cmd)
    let a := stretchDefaults a0
    (s.ctl.serve.model = some m →
      (contractFail x a m (s.taken (k 0x0610) h) = none →
        (let made := fun (c : Ctl) =>
          let c := (c.withContract a x.sid m).newMaxResident
          (c.updContract a.id fun y => { y with win := c.newWindow y 0 }).preemptFor 1024
        Lands s (k 0x0610) h (contractArgs a) [] (.serveContractCreate h a0) (fun w => (w.on made).serveKick)
          (encode [.n 2 (made (s.ctl.consume (k 0x0610) h)).serve.maxResident]) id)) ∧
      (x.owns m.a.job = true → ctx ≤ m.a.maxContext →
        (let t := iterTime m.a b (b * ctx) step
        Reads s (k 0x0615) h [Arg.num 2 (1 ≤ b && b ≤ 1024), Arg.num 1 (decide (step < 16)), Arg.num 4 (64 ≤ ctx && ctx ≤ 131072)] []
          (.serveFloorQuery h b step ctx)
          (encode [.n 8 (ceilDiv (t.num * 1000000000) t.den), .n 8 (if t.num = 0 then 0 else b * t.den / t.num)])))) ∧
    (s.ctl.contract? cid = some y → x.owns y.job = true →
      Lands s (k 0x0611) h [contractArg, Arg.blk 32 (key.length = 32)] [] (.serveContractKeySet h cid key)
        (W.on fun c => c.updContract cid fun z => { z with
          key := key
          oldKey := some (z.key, c.tick + 60000000000) }) [] id ∧
      (y.closing = false →
        ((((s.taken (k 0x0612) h).on (Ctl.beginClose cid)).serveKick.c.contract? cid).isSome = true →
          Waits s (k 0x0612) h [contractArg] [] (.serveContractClose h cid) (fun w => (w.on (Ctl.beginClose cid)).serveKick)
            (.contract cid)) ∧
        ((((s.taken (k 0x0612) h).on (Ctl.beginClose cid)).serveKick.c.contract? cid).isSome = false →
          Lands s (k 0x0612) h [contractArg] [] (.serveContractClose h cid) (fun w => (w.on (Ctl.beginClose cid)).serveKick) [] id)) ∧
      Reads s { op := 0x0613, roles := [0, 1], lock := true } h [contractArg] [] (.serveContractStatus h cid)
        (let st := y.stretch.getD { digest := [] }
        encode [.n 2 (s.ctl.residents.filter (·.contract = cid)).length, .n 2 (s.ctl.intake.filter (·.contract = cid)).length,
          .n 4 y.setAside, .n 4 y.authFail, .n 4 y.malformed, .n 4 y.replayed, .n 1 (b2n y.stretch.isSome), .n 4 y.stretchSeq,
          .n 8 st.decode, .n 8 st.prefill]) ∧
      (y.records.find? (·.1 = seq) = some r →
        Reads s { op := 0x0614, roles := [0, 1, 3] } h [contractArg, Arg.num 4 (decide (seq < 2 ^ 32))] []
          (.serveWindowRead h cid seq) (encode [.raw 8 r.2])))

/-- The mailbox commands of the serving engine (chapter 16). -/
def Obligations.ServeCommands : Prop := Clause.ServeModel ∧ Clause.ServeContracts

/-- Requests and cancels from the mailbox, and the engine's status (R481, R485, R502). -/
def Clause.ServeRequests : Prop :=
  ∀ (s : State) (h : Hdr) (cid stream e : Nat) (payload : List Byte) (y : Contract) (c : Ctl) (q : Sequence),
    let x := s.ctl.ctxOf h.pair
    let k := fun op => ({ op := op, roles := [0, 1] } : Cmd)
    (s.ctl.contract? cid = some y → x.owns y.job = true →
      (s.ctl.usable 19 = true →
        (s.ctl.seq? cid stream = some q →
          Reads s (k 0x0620) h (requestArgs stream payload) (requestRefs h stream payload) (.serveRequest h cid stream payload)
            (encode [.raw 8 (s.ctl.repeatAnswer q).2])) ∧
        (s.ctl.seq? cid stream = none → fieldAt payload 44 4 = 0 →
          (∀ w : W, w = W.serveKick { s.taken (k 0x0620) h with c := c } →
            (s.ctl.consume (k 0x0620) h).submit cid stream (.mailbox x.n x.sid) payload (payload.drop 48) false = .ok c →
            w.c.seq? cid stream = some q →
            Lands s (k 0x0620) h (requestArgs stream payload) (requestRefs h stream payload) (.serveRequest h cid stream payload)
              (fun _ => w) (encode [.raw 8 (Ctl.acceptBytes (w.c.queuePos cid stream) q)]) id) ∧
          ((s.ctl.consume (k 0x0620) h).submit cid stream (.mailbox x.n x.sid) payload (payload.drop 48) false = .error e →
            Reads s (k 0x0620) h (requestArgs stream payload) (requestRefs h stream payload) (.serveRequest h cid stream payload)
              (encode [.raw 8 (Ctl.refuseBytes e)])))) ∧
      ((s.ctl.seq? cid stream).isSome = true →
        Lands s (k 0x0621) h [contractArg, Arg.num 8 (decide (stream < 2 ^ 64))] [] (.serveCancel h cid stream)
          (fun w => (w.on (Ctl.cancelSeq cid stream)).serveKick) [] id)) ∧
    Reads s { op := 0x0622, roles := [0, 1], lock := true } h [] [] (.serveStatus h)
      (encode [.n 2 s.ctl.residents.length, .n 2 s.ctl.intake.length, .n 2 s.ctl.serve.maxResident,
        .n 4 ((s.ctl.serve.model.map (·.iter)).getD 0), .n 1 s.ctl.power.step,
        .list ((List.range 8).map fun st =>
          leBytes 4 (((Tab.get? st ((s.ctl.serve.model.map (·.pools)).getD [])).map Ctl.poolFree).getD 0))])

/-- The messages of TSP that are taken (R474 to R478, R485): a repeated REQUEST is answered again and a new one, come whole, is
submitted; CANCEL ends its sequence; an ACK drops the tokens below it; RESEND sends the kept tokens again. -/
def Clause.TspMessages : Prop :=
  ∀ (s : State) (m : Tsp) (c : Ctl) (q : Sequence),
    let k := m.contract
    let n := m.stream
    let old := fun (c : Ctl) => c.onServe fun y => { y with parts := y.parts.filter fun p => !(p.contract = k && p.stream = n) }
    (s.TakesTsp 1 m c →
      (c.seq? k n = some q → Acts s (.tspRequest m) fun w =>
        ({ w with c := c } : W).on (Ctl.tspSend k n (c.repeatAnswer q).1 m.client (c.repeatAnswer q).2)) ∧
      (c.seq? k n = none → 48 ≤ m.payload.length → fieldAt m.payload 44 4 = 0 → bit m.flags 0 = false →
        (∀ p ∈ c.serve.parts, ¬ (p.contract = k ∧ p.stream = n)) →
        Acts s (.tspRequest m) fun w =>
          (({ w with c := c } : W).on old).takeRequest k n m.client m.payload (m.payload.drop 48) (bit m.flags 1)) ∧
      (c.seq? k n = none → 48 ≤ m.payload.length → fieldAt m.payload 44 4 = 0 → bit m.flags 0 = true →
        (∀ p ∈ c.serve.parts, ¬ (p.contract = k ∧ p.stream = n)) →
        Acts s (.tspRequest m) fun w =>
          (({ w with c := c } : W).on old).on (Ctl.onServe fun y => { y with
            parts := y.parts ++ [{ contract := k, stream := n, client := m.client, first := c.tick, got := [(0, m.payload)]
                                   textOut := bit m.flags 1 }] }))) ∧
    (s.TakesTsp 2 m c → Acts s (.tspCancel m) fun w => (({ w with c := c } : W).on (Ctl.cancelSeq k n)).serveKick) ∧
    (s.TakesTsp 3 m c → c.seq? k n = some q → q.paused = false →
      Acts s (.streamAck m) fun w => ({ w with c := c } : W).on (Ctl.updSeq k n fun z => { z with
        acked := max q.acked (min (fieldAt m.payload 0 4) q.sent)
        paused := z.paused
        skipLat := z.skipLat })) ∧
    (s.TakesTsp 4 m c → c.seq? k n = some q → q.r.textOut = false →
      Acts s (.tspResend m) fun w => ({ w with c := c } : W).on fun c =>
        let lo := max q.acked (fieldAt m.payload 0 4)
        (List.range (q.sent - lo)).foldl (fun (st : Ctl) i =>
          st.tspSend q.contract q.stream 0x82 q.client (Ctl.tokensBytes (lo + i) [q.out.getD (lo + i) 0] [])) c)

/-- The engine's timers while its firmware runs: parts that never came whole (R475), a delivered stream forgotten (R476), a token
overdue (R494), a window recorded (R495), a stretch closed (R499), an old key dropped (R492), a record released once the Tally holds
it or sent again (R500, R621), and the done line that ends an iteration (R471). -/
def Clause.ServeTimers : Prop :=
  ∀ (s : State) (n stream slot d seq : Nat) (p : Parts) (q : Sequence) (y : Contract) (st : Stretch) (e : Queued) (pk : Pkt)
      (r : W × List Pkt) (m : Model), n < 2 ^ 32 → stream < 2 ^ 64 → slot < 1024 → seq < 2 ^ 32 → s.ctl.rc.run = 3 →
    ((s.ctl.serve.parts.find? fun p => p.contract = n && p.stream = stream) = some p → p.first + 1000000000 ≤ s.ctl.tick →
      Acts s (.requestPartsTimeout n stream) (W.on fun c =>
        (c.onServe fun y => { y with parts := y.parts.filter (· != p) }).tspSend n stream 0x84 p.client (Ctl.refuseBytes 8))) ∧
    (s.ctl.seq? n stream = some q → q.done.isSome = true → q.doneTick + 10000000000 ≤ s.ctl.tick →
      Moves s (.streamRetentionExpire n stream) (Ctl.onServe fun y => { y with
        seqs := y.seqs.filter fun q => !(q.contract = n && q.stream = stream) })) ∧
    (s.ctl.residents.find? (·.slot = some slot) = some q → q.deadline = some d → d ≤ s.ctl.tick →
      Acts s (.interTokenDeadline slot) (W.on fun c =>
        ((c.updSeq q.contract q.stream fun z => { z with
          deadline := none
          overdue := true }).updContract q.contract fun k => { k with win := { k.win with misses := inc32 k.win.misses } }).onServe
            fun y => { y with timeouts := inc32 y.timeouts })) ∧
    (s.ctl.contract? n = some y →
      (y.stretch = some st → st.first + y.a.stretchTime ≤ s.ctl.tick →
        Acts s (.stretchTimeExpire n) (W.on fun c => c.closeStretch n 1)) ∧
      (∀ key, y.oldKey = some (key, d) → d ≤ s.ctl.tick →
        Acts s (.contractKeyGraceEnd n) (W.on fun c => c.updContract n fun k =>
          if k.oldKey.any fun o => decide (o.2 ≤ c.tick) then { k with oldKey := none } else k)) ∧
      (y.win.start + y.a.window ≤ s.ctl.tick →
        (let c := s.ctl.noteCauses
        let c := (c.residents.filter fun q => q.contract = n && q.from_.isSome).foldl
          (fun c q => c.countTime q.contract q.stream true) c
        ∀ k, c.contract? n = some k →
          Acts s (.serveWindowEnd n) (W.on fun _ =>
            let w := windowRecord n k c.tick
            let t := c.updContract n fun k => { k with
              records := lastN 64 (k.records ++ [(k.win.seq, w.2)])
              win := c.newWindow k (k.win.seq + 1) }
            if w.1 = 0 then t else t.event 0x0602 (encodeEv [.n 4 n, .raw 8 w.2]) (Ctl.serveTo k.job))))) ∧
    ((s.ctl.serve.queue.find? fun q => q.contract = n && q.seq = seq) = some e → e.sentAt = some d → d + 20000000 ≤ s.ctl.tick →
      (s.tally.powered = true → seq < nextSeqOf s.tally n →
        Acts s (.recordResendCheck n seq) fun w =>
          ((w.on (Ctl.onServe fun y => { y with queue := y.queue.filter (· != e) })).on fun c =>
            c.serve.contracts.keys.foldl (fun (c : Ctl) id => c.retryClose id) c).serveKick) ∧
      (nextSeqOf s.tally n ≤ seq → s.ctl.stateOf 15 = 2 →
        Acts s (.recordResendCheck n seq) (W.on (Ctl.onServe fun y => { y with
          queue := y.queue.map fun x => if x = e then { e with sentAt := some s.ctl.tick } else x })))) ∧
    (s.Admits pk [] r → pk.type = 2 → pk.space = 1 → s.ctl.doneLine = some d → pk.offset / 64 = d / 64 →
      s.ctl.serveHeld = false →
      (let w := r.1.applyWrite pk
      w.c.serve.model = some m → m.waiting = true → ofLE (w.b.mem.readBytes (hubBase + d) 4) = (m.iter + 2 ^ 32 - 1) % 2 ^ 32 →
      Acts s (.iterationDone pk) fun _ => (w.on (Ctl.updModel fun m => { m with stored := true })).serveKick))

/-- Requests of the mailbox and of TSP, and the serving engine's timers (chapter 16). -/
def Obligations.ServeRuns : Prop := Clause.ServeRequests ∧ Clause.TspMessages ∧ Clause.ServeTimers

/-! Telemetry, power and start-up (chapters 17, 19 and 20). -/

/-- TELEM_READ shows an OWNER the counters of a kind; the values of the link counters that the peer holds are free (R534). -/
def Clause.TelemetryReads : Prop :=
  ∀ (s : State) (h : Hdr) (index : Nat), (s.ctl.ctxOf h.pair).role = 0 →
    let k : Cmd := { op := 0x0700, roles := [0, 1, 2], lock := true }
    let args := fun kind => [Arg.num 1 (decide (kind < 256)), Arg.num 2 (decide (index < 65536))]
    let shows := fun (l : List Nat) => encode (l.map fun v => .n 8 v)
    (telemIndexOk 1 index = true → Reads s k h (args 1) [] (.telemRead h 1 index) (shows (s.ctl.telemTile index))) ∧
    (telemIndexOk 2 index = true → Reads s k h (args 2) [] (.telemRead h 2 index) (shows (s.ctl.telemChan index))) ∧
    (telemIndexOk 3 index = true → Reads s k h (args 3) [] (.telemRead h 3 index) (shows (s.ctl.telemPalette index))) ∧
    (telemIndexOk 4 index = true → Reads s k h (args 4) [] (.telemRead h 4 index) (shows (s.ctl.telemFabric index))) ∧
    (telemIndexOk 5 index = true →
      Lands s k h (args 5) [] (.telemRead h 5 index) (W.on fun c => (c.telemLink index).2)
        (shows ((s.ctl.consume k h).telemLink index).1) id)

/-- PWR_CONFIG_SET, PWR_RAILS_RESTORE and SYS_FUNCTION_RESTART (R572, R575, R584): the limits are stored while every contract's floor
allows them; the rails come up where nothing bars them; a Canvas or a stack that nothing uses trains again. -/
def Clause.PowerCommands : Prop :=
  ∀ (s : State) (h : Hdr) (vcore cap index : Nat),
    ((∀ k ∈ s.ctl.serve.contracts.vals, cap ≤ k.a.floorStep) →
      Lands s { op := 0x0115, roles := [0] } h [Arg.num 2 (700 ≤ vcore && vcore ≤ 850), Arg.num 1 (decide (cap < 16))] []
        (.pwrConfigSet h vcore cap) (W.on (Ctl.onPower fun p => { p with
          vcoreSet := vcore
          cap := cap })) (encode [.n 2 vcore, .n 1 cap]) id) ∧
    (s.ctl.power.rails ≠ 63 → s.ctl.power.inputFault = false → s.ctl.power.tripped = [] → s.ctl.power.seat = true →
      Waits s { op := 0x0116, roles := [0] } h [] [] (.pwrRailsRestore h) (W.on Ctl.railsOn) .rails) ∧
    ((s.ctl.entry index).st ≠ 0 → (s.ctl.entry index).st ≠ 1 →
      (index < 7 → (∀ j ∈ s.ctl.jobs.vals, ∀ t ∈ j.tiles, t / 48 ≠ index - 3) →
        Waits s { op := 0x0114, roles := [0] } h [Arg.num 1 (3 ≤ index && index ≤ 14)] [] (.sysFunctionRestart h index)
          (W.on fun c => (((c.beginRestart index).retrainLink (index - 3)).retrainLink (4 + (index - 3))).retrainLink
            (4 + (index - 3 + 3) % 4)) (.entry index)) ∧
      (7 ≤ index → (∀ r ∈ s.ctl.fabric.regions.vals, r.space = 2 → stackOf r.base ≠ index - 7) →
        (s.ctl.stack (index - 7)).queues = [] →
        Waits s { op := 0x0114, roles := [0] } h [Arg.num 1 (3 ≤ index && index ≤ 14)] [] (.sysFunctionRestart h index)
          (W.on fun c => (c.beginRestart index).updStack (index - 7) fun x => { x with initDone := false, firstReading := true }) (.entry index)))

/-- The mailbox commands of telemetry and power (chapters 9 and 20). -/
def Obligations.TelemetryAndPowerCommands : Prop := Clause.TelemetryReads ∧ Clause.PowerCommands

/-- The four gauges refill by one token an interval, up to their depth: a tile's steps and element lanes in 16 - step of every 16
intervals, a DMA channel's bursts, under its new share from then on, and the guest's requests (R284, R285, R314, R587, R589). -/
def Clause.GaugesRefill : Prop :=
  ∀ (s : State) (n : Nat),
    let step := s.ctl.power.step
    (n < 192 →
      Acts s (.gaugeRefill 0 n) (W.on fun c => c.updTile n fun t => { t with
        interval := (t.interval + 1) % 16
        gauge := if rev4 t.interval < step then t.gauge else min 64 (t.gauge + 1) }) ∧
      Acts s (.gaugeRefill 3 n) (W.on fun c => c.updTile n fun t => { t with
        laneInterval := (t.laneInterval + 1) % 16
        laneGauge := if rev4 t.laneInterval < step then t.laneGauge else min 64 (t.laneGauge + 1) })) ∧
    (n < 64 → Acts s (.gaugeRefill 1 n) (W.on (Ctl.updChan n fun x => { x with
      share := x.newShare
      gauge := min 16 (x.gauge + 1) }))) ∧
    Moves s (.gaugeRefill 2 0) fun c => { c with guest := { c.guest with tokens := min 32 (c.guest.tokens + 1) } }

/-- The events of the power stage with standby power present: a round (R578 to R584, R590), the fast limiter (R585), an input out of
range and a thermal trip, which remove the rails and raise A1 (R575, R580), the seat (R634), and a Canvas that has come up
(R566). -/
def Clause.PowerEvents : Prop :=
  ∀ (s : State) (r : Round) (current power core sensor k : Nat) (selfTest : Bool), s.ctl.power.standby = true →
    ((∀ x ∈ r.readings, x.1 < 59 ∧ -32768 < x.2 ∧ x.2 < 32768) →
      Acts s (.housekeepingRoundEnd r) fun w =>
        (List.range 8).foldl (fun w st => w.stackRound st)
          (w.on fun c => (c.onPower (roundPower r (c.rc.run = 3) c.tick)).coolantAlarms s.ctl.power)) ∧
    Acts s (.fastLimiterSample current power core) (W.on (Ctl.onPower (limiterSample current power core))) ∧
    Acts s .inputOutOfRange (fun w =>
      ((w.on (Ctl.onPower fun p => { p with inputFault := true })).railsOff 0).on (Ctl.alarm 2 1 43)) ∧
    (sensor < 10 → Acts s (.thermalTrip sensor) fun w =>
      ((w.on (Ctl.onPower fun p => { p with tripped := insNat sensor p.tripped })).railsOff 1).on (Ctl.alarm 4 1 sensor)) ∧
    (s.ctl.power.railsDue = false → Acts s .seatAssert (W.on (Ctl.onPower fun p => { p with seat := true }))) ∧
    (s.ctl.power.railsDue = true → (s.ctl.rc.run = 2 ∨ s.ctl.rc.run = 3) →
      Acts s .seatAssert (W.on fun c => (c.onPower fun p => { p with seat := true }).railsOn)) ∧
    Acts s .seatRelease (fun w => (w.on (Ctl.onPower fun p => { p with seat := false })).railsOff 0) ∧
    (k < 4 → (s.ctl.entry (3 + k)).st = 1 → (s.ctl.link k).st ≠ 1 →
      Acts s (.canvasInitComplete k selfTest) fun w =>
        ({ w with
          b := w.b.opsAll (((List.range 48).map (· + 48 * k)).flatMap fun n =>
            [MemOp.zero (opBase n) (1 <<< 22), .zero (accBase n) (1 <<< 20)]) } : W).on (Ctl.canvasUp k selfTest))

/-- The refill of every gauge, and the events of the power stage and the sensors (chapters 9 and 20). -/
def Obligations.GaugesAndPowerEvents : Prop := Clause.GaugesRefill ∧ Clause.PowerEvents

/-- A round's decision on the power step, by the conditions of Table 20-3 (R582): down, to the next deeper step, where one of D1 to D6
holds, unless it is L15; after the fourth quiet round in a row up by one, unless it is CAP_STEP; else it stays. Temperatures are in
tenths of a degree. A round without an inlet reading is not quiet, which is the model's choice (log 28). -/
def Obligations.PowerStep : Prop :=
  ∀ (p : Power) (power foldback : Nat), p.step ≤ 15 →
    let q := stepRound power foldback p
    let hot := fun (lo hi : Nat) (t : Int) => ∃ k v, lo ≤ k ∧ k ≤ hi ∧ junction p k = some v ∧ t < v
    let down := 2400 < power ∨ hot 0 7 999 ∨ hot 8 9 999 ∨ ((∃ v, p.readings.get? 53 = some v ∧ 450 < v) ∨ p.coolantLow = true) ∨
      200 < foldback ∨ p.step < p.cap
    let quiet := ¬ down ∧ power ≤ 2300 ∧ ¬ hot 0 9 950 ∧ ∃ v, p.readings.get? 53 = some v ∧ v ≤ 450
    (down → q.step = min 15 (p.step + 1) ∧ q.quiet = 0) ∧
    (quiet → p.quiet < 3 → q.step = p.step ∧ q.quiet = p.quiet + 1) ∧
    (quiet → 3 ≤ p.quiet → q.step = (if p.step = p.cap then p.step else p.step - 1) ∧ q.quiet = 0) ∧
    (¬ down → ¬ quiet → q.step = p.step ∧ q.quiet = 0) ∧
    q.step ≤ 15 ∧ q.cap = p.cap ∧ q.vcoreSet = p.vcoreSet ∧ q.rails = p.rails ∧ q.readings = p.readings

/-! Security and firmware (chapters 17, 19 and 21). -/

/-- The security commands (Table 21-7): attestation signs a report over the nonce and keeps it for the session (R599), reports, the
configuration and the certificates are read in pieces (R598, R600, R609), the alarm state is read and set, A2 is unlocked where
nothing bars it (R605), and an alarm is raised after its answer. Signatures are the module's own, which the model holds open. -/
def Clause.SecurityCommands : Prop :=
  ∀ (s : State) (h : Hdr) (rid kind offset len level limit confirm first count : Nat) (nonce report : List Byte) (t : Session),
    let k := fun op => ({ op := op, lock := true } : Cmd)
    (let r := signed_ 0 ((s.ctl.consume (k 0x0800) h).reportBody nonce)
    Lands s (k 0x0800) h [Arg.blk 32 (nonce.length = 32)] [] (.secAttest h nonce)
      (W.on fun c => (c.onRc fun r => { r with nextReport := nextId r.nextReport }).updPair (s.ctl.ctxOf h.pair).n fun p => { p with
        session := p.session.map fun (t : Session) => { t with reports := lastN 16 (t.reports ++ [(s.ctl.rc.nextReport, r)]) } })
      (encode [.n 4 s.ctl.rc.nextReport, .n 2 r.length]) id) ∧
    ((s.ctl.pair h.pair).session = some t → t.reports.find? (·.1 = rid) = some (rid, report) →
      Reads s (k 0x0801) h (Arg.num 4 true :: pieceArgs s.ctl h.pair report.length offset len 56) [] (.secReportRead h rid offset len)
        (encode [.raw 1 (bytesAt report offset len)])) ∧
    Reads s { op := 0x0802, roles := [0, 3], lock := true } h (pieceArgs s.ctl h.pair s.ctl.configBlock.length offset len 64) []
      (.secConfigRead h offset len) (encode [.raw 1 (bytesAt s.ctl.configBlock offset len), .n 4 s.ctl.configBlock.length]) ∧
    Reads s { op := 0x0803, any := true, lock := true } h (Arg.num 1 (decide (kind < 2)) :: pieceArgs s.ctl h.pair 7235 offset len 56) []
      (.secCertRead h kind offset len) (encode [.raw 1 (bytesAt (Config.certificate kind) offset len)]) ∧
    Reads s { op := 0x0810, roles := [0, 2, 3], lock := true, gesso := true } h [] [] (.secAlarmStatus h)
      (encode [.n 1 s.ctl.alarmLevel, bitmap 16 s.ctl.alarms.standing.keys, .n 2 s.ctl.sigCount, .n 2 s.ctl.alarms.lostRecords]) ∧
    Does s { op := 0x0811, roles := [0], lock := true } h
      [Arg.num 1 (decide (level < 3)), Arg.num 1 (2 ≤ limit && limit ≤ 64)] [] (.secAlarmConfig h level limit)
      (Ctl.onAlarms fun a => { a with
        inLevel := level + 1
        sigLimit := limit }) (encode [.n 1 level, .n 1 limit]) ∧
    ((∀ x ∈ s.ctl.alarms.standing, x.2 = 2 → x.1 = 7 ∨ x.1 = 10) → s.ctl.alarms.a2 = true → s.ctl.serve.model = none →
      Lands s { op := 0x0812, roles := [0], lock := true } h [] [] (.secUnlock h)
        (W.on fun c => lockEntries.foldl (fun c i => if (c.entry i).sealed = 0x15 then c.release i else c)
          (((c.clearAlarm 7).clearAlarm 10).onAlarms fun a => { a with a2 := false })) [] id) ∧
    Lands s { op := 0x0813, roles := [0], lock := true } h
      [Arg.num 1 (decide (level < 3)), Arg.num 4 (confirm < 2 ^ 32 && (level != 2 || confirm = Config.serial.toNat % 2 ^ 32))] []
      (.secAlarmRaise h level confirm) id [] (W.raise 10 (level + 1) 0) ∧
    Reads s { op := 0x0814, roles := [0, 3], lock := true, gesso := true } h
      [Arg.num 4 (decide (first < 2 ^ 32)), Arg.num 1 (1 ≤ count && count ≤ 64)] [] (.secAlarmLogRead h first count)
      (encode [.list (fitting 56 (((s.ctl.alarms.log.filter fun r => first ≤ r.seq).take count).map AlarmRec.bytes))])

/-- The alarm sources with standby power present (Table 21-4, R601, R637): each raises its level, gesso removes the rails (R606), and a
source that is in order again no longer stands. -/
def Clause.SecurityEvents : Prop :=
  ∀ (s : State), s.ctl.power.standby = true →
    Acts s .lidTamper (W.raise 1 3 0) ∧
    (s.ctl.alarms.gesso = true → s.ctl.serve.queue = [] → Acts s .gessoRailsOff fun w => (w.on Ctl.loseRecords).railsOff 0) ∧
    (bit s.ctl.power.rails 1 = true →
      Acts s (.railOutOfRange 0) fun w => (w.on (Ctl.onPower fun p => { p with railLost := insNat 0 p.railLost })).raise 3 2 47) ∧
    Acts s (.railOutOfRange 1) (fun w => (w.on (Ctl.onPower fun p => { p with railLost := insNat 1 p.railLost })).raise 3 2 0) ∧
    Acts s .clockGlitch (fun w => (w.on (Ctl.onPower fun p => { p with clockLost := true })).raise 6 2 0) ∧
    Acts s .alarmInAssert (fun w => (w.on (Ctl.onPower fun p => { p with alarmIn := true })).raise 9 s.ctl.alarms.inLevel 0) ∧
    Acts s (.alarmSourceClear 3) (W.on fun c => (c.onPower fun p => { p with railLost := [] }).clearAlarm 3) ∧
    Acts s (.alarmSourceClear 6) (W.on fun c => (c.onPower fun p => { p with clockLost := false }).clearAlarm 6) ∧
    Acts s (.alarmSourceClear 9) (W.on fun c => (c.onPower fun p => { p with alarmIn := false }).clearAlarm 9)

/-- The commands and events of security (chapter 21). -/
def Obligations.SecurityRows : Prop := Clause.SecurityCommands ∧ Clause.SecurityEvents

/-- What the levels do (R602, R603, R606): an alarm of level A1 only records it, one of A2 locks and quiesces the module unless it is
locked, one of A3 starts gesso, and after gesso no alarm does more than record. -/
def Obligations.AlarmLevels : Prop :=
  ∀ (w : W) (src detail : Nat),
    (w.raise src 1 detail = w.on (Ctl.alarm src 1 detail)) ∧
    (w.c.alarms.gesso = false → w.c.alarms.a2 = false → w.raise src 2 detail = (w.on (Ctl.alarm src 2 detail)).quiesce) ∧
    (w.c.alarms.gesso = false → w.raise src 3 detail = (w.on (Ctl.alarm src 3 detail)).gesso) ∧
    (w.c.alarms.gesso = true → ∀ level, w.raise src level detail = w.on (Ctl.alarm src level detail)) ∧
    (∀ level, (w.on (Ctl.alarm src level detail)).c.alarms.log =
      lastN 256 (w.c.alarms.log ++ [⟨w.c.alarms.seq, src, level, detail, w.c.tick, w.c.rc.epoch⟩])) ∧
    (∀ level, ∀ f < 2, bit ((w.on (Ctl.alarm src level detail)).c.fn f).intStatus 2 = true)

/-- The firmware commands (R504, R542, R543): an image that verifies goes into the bank that does not run, a VALID bank is put on trial,
a trial is committed with its anti-rollback value, the RC restarts after its answer, the status is read. -/
def Clause.FirmwareCommands : Prop :=
  ∀ (s : State) (h : Hdr) (image : Ref) (bank restartNow window : Nat),
    let img := refBlock s image
    let new : Bank := { st := 1, image := img }
    let n := s.ctl.rc.runBank
    (s.ctl.trialOn = false →
      (imageSigned img = true → s.ctl.rc.rollback ≤ fieldAt img 12 1 →
        Lands s { op := 0x0120, roles := [0] } h [refArg s h image] [image] (.sysFwLoad h image)
          (W.on fun c => (c.updBank (1 - n) fun _ => new).onRc fun r => { r with bootBank := r.runBank })
          (encode [.n 1 (1 - n), .raw 8 new.digest, .n 4 new.version, .n 1 new.security]) id) ∧
      ((s.ctl.bankOf bank).st = 1 → bank ≠ n →
        Lands s { op := 0x0121, roles := [0] } h
          [Arg.num 1 (decide (bank < 2)), Arg.num 1 (decide (restartNow < 2)), Arg.num 4 (60 ≤ window && window ≤ 86400)] []
          (.sysFwActivate h bank restartNow window)
          (W.on fun c => (c.updBank bank fun b => { b with st := 2 }).onRc fun r => { r with
            bootBank := bank
            commitWindow := window }) []
          (W.on fun c => if restartNow = 1 then c.rcRestart else c))) ∧
    Lands s { op := 0x0122, roles := [0] } h [] [] (.sysRcRestart h) id [] (W.on Ctl.rcRestart) ∧
    ((s.ctl.bankOf n).st = 2 →
      (let set := fun (c : Ctl) =>
        ((c.updBank n fun b => { b with st := 3 }).updBank (1 - n) fun b => if b.st = 3 then { b with st := 1 } else b).onRc fun r =>
          { r with
            commitDue := none
            rollback := max r.rollback (c.bankOf n).security }
      Lands s { op := 0x0123, roles := [0] } h [] [] (.sysFwCommit h) (W.on set)
        (encode [.n 1 (set (s.ctl.consume { op := 0x0123, roles := [0] } h)).rc.rollback]) id)) ∧
    Reads s { op := 0x0124, roles := [0, 3], lock := true } h [] [] (.sysFwStatus h)
      (let one := fun (n : Nat) =>
        let b := s.ctl.bankOf n
        if b.st = 0 then [Item.n 1 0, .n 4 0, .n 1 0, .raw 8 (zeros 64)]
        else [Item.n 1 b.st, .n 4 b.version, .n 1 b.security, .raw 8 b.digest]
      encode (one 0 ++ one 1 ++ [.n 1 s.ctl.rc.rollback]))

/-- Start and restart (R504, R543, R566 to R568, R575, R595): the watchdog restarts a running RC, a commit window that ends ends its
trial, the cold start and the boot set the module going, and without standby power only what is stored outlasts it. -/
def Clause.StartEvents : Prop :=
  ∀ (s : State) (due n : Nat) (lid : Bool) (w : W),
    ((s.ctl.rc.run = 2 ∨ s.ctl.rc.run = 3) → Acts s .rcWatchdogExpire (W.on Ctl.rcRestart)) ∧
    (s.ctl.rc.commitDue = some due → due ≤ s.ctl.tick → (s.ctl.bankOf s.ctl.rc.runBank).st = 2 →
      Acts s .fwCommitWindowExpire (W.on (Ctl.endTrial s.ctl.rc.runBank))) ∧
    (s.ctl.power.standby = false →
      Acts s (.coldStart lid) fun w => if lid then (w.on Ctl.coldStart).raise 1 3 0 else w.on Ctl.coldStart) ∧
    (s.ctl.power.standby = true →
      Acts s .standbyPowerLost fun w => { w with
        c := w.c.powerLost
        b := w.b.op (.zero 0 (2 ^ 66)) }) ∧
    (s.ctl.rc.run = 1 → s.ctl.alarms.gesso = true →
      Acts s .bootRomImageStart (W.on fun c => (c.onRc fun r => { r with run := 5 }).firstStart)) ∧
    (s.ctl.rc.run = 1 → s.ctl.alarms.gesso = false → s.world.bootChoose = (some n, w) →
      Acts s .bootRomImageStart fun _ => w.on fun c =>
        let b := c.bankOf n
        let c := (c.onRc fun r => { r with
          run := 2
          runBank := n
          fwVersion := b.version
          fwDigest := b.digest }).firstStart
        if c.power.railsDue && c.power.seat then c.railsOn else c) ∧
    (s.ctl.rc.run = 1 → s.ctl.alarms.gesso = false → s.world.bootChoose = (none, w) →
      Acts s .bootRomImageStart fun _ => w.on fun c =>
        [17, 18, 19].foldl (fun c i => c.post i 4 0x14) ((c.onRc fun r => { r with run := 4 }).post 0 4 0x14)) ∧
    (s.ctl.rc.run = 2 → Acts s .rcBootComplete fun w => w.on (Ctl.bootComplete w.ty))

/-- Firmware banks, and the events of a start (chapters 19 and 21). -/
def Obligations.FirmwareAndStart : Prop := Clause.FirmwareCommands ∧ Clause.StartEvents

/-- The management bus (R639, Table 23-6): a write sets the offset, a read puts that many bytes of the 256-byte record on the bus,
wrapping, and the record's bytes sum to 0. -/
def Obligations.ManagementBus : Prop :=
  ∀ (s : State) (b : Byte) (data : List Byte) (count : Nat), s.ctl.power.standby = true →
    Acts s (.smbusWrite (b :: data)) (W.on (Ctl.onPower fun p => { p with smbusOffset := b.toNat })) ∧
    Acts s (.smbusRead count) (W.on (Ctl.onPower fun p => { p with
      smbusData := (List.range count).map fun i => smbusRecord.getD ((p.smbusOffset + i) % 256) 0 })) ∧
    smbusRecord.length = 256 ∧ smbusRecord.foldl (· + ·) 0 = 0

/-! The teardown of a job (chapter 14). -/

/-- JOB_TEARDOWN and JOB_DESTROY stop a job and wait (R430, R533); once nothing of it is left, the regions are zeros and their numbers
free, the job's flows close, the completion queues go, and the commands return, JOB_DESTROY's with the tiles reset. -/
def Obligations.JobTeardown : Prop :=
  ∀ (s : State) (h : Hdr) (job : Nat), s.ctl.jobLive job = true →
    let k1 : Cmd := { op := 0x05F0, roles := [2], lock := true }
    let k2 : Cmd := { op := 0x05E2, roles := [0], lock := true }
    let args := [Arg.num 2 (1 ≤ job && job < 65536)]
    (s.ctl.jobEnding job = false →
      Waits s k1 h args [] (.jobTeardown h job) (W.tearDown job) (.job job false) ∧
      Waits s k2 h args [] (.jobDestroy h job) (W.tearDown job) (.job job true)) ∧
    (s.ctl.jobEnding job = true → (∀ x ∈ s.ctl.rc.waits, x.what ≠ .job job true) →
      Waits s k2 h args [] (.jobDestroy h job) id (.job job true)) ∧
    (1 ≤ job → job < 65536 → s.ctl.jobEnding job = true → s.ctl.jobBusy job = false →
      (let freed := fun (w : W) => (w.c.fabric.regions.filter fun (x : Nat × Region) => x.2.job = job).foldl (fun (w : W) (x : Nat × Region) =>
        (if x.2.space = 3 then w else { w with b := w.b.op (.zero (x.2.space * 2 ^ 44 + x.2.base) x.2.len) }).on (Ctl.freeRegion x.1)) w
      let gone := fun (w : W) => (freed w).on fun c =>
        ({ c.closeFlows job with cqs := c.cqs.filter fun (x : Nat × DmaCq) => x.2.job != job }.event 0x0502
          (encodeEv [.n 2 job, .n 2 0xFFFF]) { owner := true, fabric := true }).finishOne (.job job false) 0 []
      ((∀ x ∈ (gone s.world).c.rc.waits, x.what ≠ .job job true) → (∃ x ∈ s.ctl.rc.waits, x.what = .job job false) →
        Acts s (.jobTeardownComplete job) gone) ∧
      ((∃ x ∈ (gone s.world).c.rc.waits, x.what = .job job true) → (∃ x ∈ s.ctl.rc.waits, x.what = .job job true) →
        Acts s (.jobTeardownComplete job) fun w =>
          ((((((gone w).c.jobs.get? job).map (·.tiles)).getD []).foldl (fun (w : W) n => w.resetTile n) (gone w)).on fun c =>
            ({ c with jobs := Tab.del job c.jobs }).finishOne (.job job true) 0 []))))

/-! The sealed Tally (chapter 22). -/

/-- The Tally's rows: nothing but the Tally changes, and the entry that the RC shows of it (R571, R610). A frame is judged (R617 to
R622), a readout signed (R629), a sample metered (R611 to R614), a pulse ended, the counters committed (R616), the temperature read
(R624), power found and lost (R616, R627); without power only the mesh acts (R628). -/
def Clause.TallyRows : Prop :=
  ∀ (s : State) (frame nonce : List Byte) (kind arg mV mA mReturn : Nat) (temp : Int) (checks : TallyChecks),
    (s.tally.powered = true →
      Meters s (.tallyRecordFrame frame) (Tally.frame frame) ∧ Meters s (.tallyEnrolment frame) (Tally.frame frame) ∧
      (1 ≤ kind → kind ≤ 3 →
        Meters s (.tallyReadout kind arg nonce) fun t => { t with reading := t.readingOf kind arg nonce }) ∧
      Meters s (.tallySample mV mA mReturn) (Tally.sample mV mA mReturn) ∧
      (19000 ≤ s.tally.pulseAge → Meters s .energyPulseEnd fun t => { t with
        pulseOn := false
        pulseAge := 0 }) ∧
      Meters s .tallyCommit Tally.commit ∧ Meters s (.tallyTempRead temp) (Tally.tempRead temp) ∧
      Meters s .tallyInputLost Tally.inputLost) ∧
    (s.tally.powered = false → Meters s (.tallyPowerUp checks) (Tally.powerUp checks)) ∧
    (s.tally.powered = true → Meters s .tallyMeshBreach (Tally.seal_ 1)) ∧
    (s.tally.powered = false → Meters s .tallyMeshBreach fun t => { t with meshOpen := true })

/-- The Tally's commands (Table 22-7): its status, its certificate, a signed reading kept for the session, and its pieces. -/
def Clause.TallyCommands : Prop :=
  ∀ (s : State) (h : Hdr) (rid kind arg offset len : Nat) (nonce reading : List Byte),
    let x := s.ctl.ctxOf h.pair
    let k := fun op => ({ op := op, roles := [0, 1, 3], lock := true, gesso := true } : Cmd)
    Reads s (k 0x0900) h [] [] (.tallyStatus h)
      (encode [.n 1 s.tally.flags, .n 4 Config.tallySealNumber.toNat, .n 2 (twos 16 s.tally.temp), .n 2 s.tally.held.length]) ∧
    Reads s { op := 0x0901, any := true, lock := true, gesso := true } h (pieceArgs s.ctl h.pair 7235 offset len 56) []
      (.tallyCertRead h offset len) (encode [.raw 1 (bytesAt Config.tallyCertificate offset len)]) ∧
    ((x.role ≠ 1 ∨ (kind = 2 ∧ ∃ y, s.ctl.serve.contracts.get? arg = some y ∧ x.owns y.job = true)) → s.tally.powered = true →
      (let b := s.tally.readingOf kind arg nonce
      Lands s (k 0x0902) h
        [Arg.num 1 (1 ≤ kind && kind ≤ 3), Arg.num 8 (arg < 2 ^ 64 && (kind != 2 || arg < 2 ^ 32)), Arg.blk 32 (nonce.length = 32)] []
        (.tallyRead h kind arg nonce)
        (W.on fun c => (c.onRc fun r => { r with nextReading := nextId r.nextReading }).updPair x.n
          (Pair.keep s.ctl.rc.nextReading b)) (encode [.n 4 s.ctl.rc.nextReading, .n 2 b.length]) id)) ∧
    ((s.ctl.pair h.pair).kept.find? (·.1 = rid) = some (rid, reading) →
      Reads s (k 0x0903) h (Arg.num 4 true :: pieceArgs s.ctl h.pair reading.length offset len 56) []
        (.tallyReadingFetch h rid offset len) (encode [.raw 1 (bytesAt reading offset len)]))

/-- The inputs of the Tally and the mailbox commands that read it (chapter 22). -/
def Obligations.TallyInputsAndCommands : Prop := Clause.TallyRows ∧ Clause.TallyCommands

/-- The Tally's accumulators (R611 to R616, R619): a sample adds its energy and a pulse for every 0.1 Wh, a record that passes its
checks adds its tokens, closes what it closes and moves NEXT_SEQ on, a refused one adds to no counter but its code's, and a commit
keeps every total. -/
def Obligations.TallyAccumulates : Prop :=
  ∀ (t : Tally) (mV mA mReturn code cid : Nat) (body rec_ : List Byte) (k : TContract),
    let fits := fun (c d : TCount) => c.total ≤ d.total
    (20 ≤ mA → (t.sample mV mA mReturn).energy.total * 1000000000 + (t.sample mV mA mReturn).frac
      = t.energy.total * 1000000000 + t.frac + mV * mA) ∧
    (mA < 20 → t.frac < 1000000000 → (t.sample mV mA mReturn).energy.total = t.energy.total) ∧
    ((t.sample mV mA mReturn).pulses.total
      = t.pulses.total + ((t.sample mV mA mReturn).energy.total / 360000 - t.energy.total / 360000)) ∧
    (cid = fieldAt rec_ 0 4 → t.contracts.get? cid = some k →
      (t.accept rec_).accepted.total = t.accepted.total + 1 ∧
      (t.accept rec_).decode.total = t.decode.total + fieldAt rec_ 8 8 ∧
      (t.accept rec_).prefill.total = t.prefill.total + fieldAt rec_ 16 8 ∧
      ∃ y, (t.accept rec_).contracts.get? cid = some y ∧ y.next = fieldAt rec_ 4 4 + 1 ∧ y.closed = decide (fieldAt rec_ 40 1 = 2) ∧
        y.decode.total = k.decode.total + fieldAt rec_ 8 8 ∧ y.prefill.total = k.prefill.total + fieldAt rec_ 16 8) ∧
    (t.recordCheck true body = some code → t.sealAlarm = true → code ≠ 6 ∧ code ≠ 7 ∧ code ≠ 8 ∧ code ≠ 9) ∧
    ((t.refuse code).accepted = t.accepted ∧ (t.refuse code).decode = t.decode ∧ (t.refuse code).prefill = t.prefill ∧
      (t.refuse code).contracts = t.contracts ∧ ((t.refuse code).refused.getD code {}).total = (t.refused.getD code {}).total + 1) ∧
    (fits t.energy t.commit.energy ∧ t.commit.energy.total = t.energy.total ∧ t.commit.pulses.total = t.pulses.total ∧
      t.commit.accepted.total = t.accepted.total ∧ t.commit.decode.total = t.decode.total ∧
      t.commit.prefill.total = t.prefill.total) ∧
    (t.inhibit = false → t.commit.energy.pending = 0 ∧ t.commit.energy.committed = t.energy.total)

/-- Which check refuses a record (Table 22-4, R617 to R620), in the table's order: no enrolled key or a Tally bound to
another module (the code is the model's reading, log 62), a signature that does not verify, a
field out of range, a seal alarm, and, against the contract's own record, closed, replayed or ahead. -/
def Obligations.TallyChecksOrder : Prop :=
  ∀ (t : Tally) (body key : List Byte) (k : TContract),
    let r := body.take 128
    let seq := fieldAt r 4 4
    let good := bytesAt r 41 3 = List.replicate 3 0 ∧ bytesAt r 48 16 = List.replicate 16 0 ∧ fieldAt r 40 1 ≤ 4 ∧ fieldAt r 8 8 ≤ 2 ^ 24
    (t.enrolled = none → t.recordCheck true body = some 2) ∧
    (t.enrolled = some key → t.foreign = true → t.recordCheck true body = some 2) ∧
    (t.enrolled = some key → t.selfTestFail = false → t.foreign = false →
      (Config.mldsaVerify key (sha3 r) (body.drop 128) = false → t.recordCheck true body = some 3) ∧
      (Config.mldsaVerify key (sha3 r) (body.drop 128) = true →
        (¬ good → t.recordCheck true body = some 4) ∧
        (good → t.sealAlarm = true → t.recordCheck true body = some 5) ∧
        (good → t.sealAlarm = false → t.contracts.get? (fieldAt r 0 4) = some k →
          (k.closed = true → t.recordCheck true body = some 6) ∧
          (k.closed = false → seq < k.next → t.recordCheck true body = some 7) ∧
          (k.closed = false → k.next < seq → t.recordCheck true body = some 8) ∧
          (k.closed = false → seq = k.next → t.recordCheck true body = none))))

/-! The remote mailbox (chapter 17). -/

/-- The datagrams of MGMT_PORT (R537 to R541): a HELLO within its limits is answered with a CHALLENGE, an OPEN with its two responses or
its refusing status, a COMMAND is delivered in order, an EVENT_ACK clears what it covers, a CLOSE ends the session; one whose TAG does
not verify is counted and does nothing else. -/
def Clause.RemoteDatagrams : Prop :=
  ∀ (s : State) (g : Dgram) (n : Nat) (p : Pair) (r : Remote),
    let c0 := s.ctl.ethTake g.port
    (g.ok = true → s.ctl.mgmtOn g.port = true →
      (g.type = 1 → g.formed = true →
        ((c0.ethPort g.port).helloWindow + 1000000000 ≤ c0.tick ∨ (c0.ethPort g.port).helloInWindow < 256) →
        c0.challengesHeld.length < 64 →
        Acts s (.remoteHello g) (W.on fun c => (c.ethTake g.port).sendChallenge g)) ∧
      (g.type = 3 → g.formed = true → g.session = 0 →
        (openRefusal (g.units.take 64) (g.units.drop 64) = none →
          Acts s (.remoteOpen g) (W.on fun c => (c.ethTake g.port).remoteOpen g (g.units.take 64) (g.units.drop 64))) ∧
        (∀ second status, openRefusal (g.units.take 64) (g.units.drop 64) = some (second, status) →
          Acts s (.remoteOpen g) (W.on fun c =>
            (c.ethTake g.port).openNo g (g.units.take 64) (g.units.drop 64) second status))) ∧
      (g.type = 0x10 → c0.remotePair g.session = some (n, p, r) → g.mac ≠ kmac256 r.key g.bytes 128 "OLR" →
        Acts s (.remoteCommand g) (W.on fun c => (c.ethTake g.port).authFail))) ∧
    (s.TakesDgram 0x10 g n p r → 64 ≤ g.units.length →
      Acts s (.remoteCommand g) (W.on fun c => (c.dgramSeen g n).remoteDeliver n (fieldAt g.units 4 4))) ∧
    (s.TakesDgram 0x13 g n p r →
      Acts s (.remoteEventAck g) (W.on fun c => ((c.dgramSeen g n).updPair n fun p => { p with
        remote := p.remote.map fun r => { r with unacked := r.unacked.filter fun x => 2 ^ 31 ≤ Ctl.diff32 g.ack x.1 } }).evtsLost n)) ∧
    (s.TakesDgram 0x14 g n p r → Acts s (.remoteClose g) (W.on fun c => (c.dgramSeen g n).unbind n))

/-- The timers of a remote session (R540, R541): an event that no ACK covers goes out again, 300 s without a datagram end the session,
and a command held behind a gap for 1 s is dropped. -/
def Clause.RemoteTimers : Prop :=
  ∀ (s : State) (n seq due : Nat) (r : Remote) (m : Msg), n < 256 → (s.ctl.pair n).remote = some r →
    ((r.unacked.find? fun x => x.1 = seq && decide (x.2.1 ≤ s.ctl.tick)) = some (seq, due, m) →
      Acts s (.remoteEventResend n seq) (W.on fun c =>
        (c.updPair n fun p => { p with
          remote := some { r with
            unacked := r.unacked.map fun x => if x.1 = seq then (x.1, c.tick + 10000000, x.2.2) else x } }).remoteSend n 0x12 0 m.bytes)) ∧
    (r.lastRx + 300000000000 ≤ s.ctl.tick → Acts s (.remoteSessionIdle n) (W.on fun c => c.unbind n)) ∧
    Acts s (.remoteGapExpire n seq) (W.on fun c => c.updPair n fun p => { p with
      remote := some { r with early := r.early.filter fun x => !(x.1 = seq && decide (x.2 ≤ c.tick)) } })

/-- The datagrams and timers of the remote mailbox (chapter 17). -/
def Obligations.RemoteMailbox : Prop := Clause.RemoteDatagrams ∧ Clause.RemoteTimers
end

