-- ==== Sys2Proof/Laws/Mem.lean ====
section
/-! SUPPORT. Memory: a read after a write, and the canonical form that every operation keeps. -/

namespace Sys2Proof.Machine

theorem lookCell_lt {k : Nat} {l : List Host.Cell} (h : ∀ c ∈ l, k < c.1) : lookCell k l = memDefault := by
  cases l with
  | nil => rfl
  | cons c t =>
    obtain ⟨j, b⟩ := c
    have hj : k < j := h (j, b) (by simp)
    simp [lookCell, hj, Nat.ne_of_lt hj]

/-- Strictly rising keys, as a relation. -/
theorem risingCells_cons {j : Nat} {b : Byte} {t : List Host.Cell} :
    risingCells ((j, b) :: t) = true ↔ b ≠ memDefault ∧ (∀ c ∈ t, j < c.1) ∧ risingCells t = true := by
  induction t generalizing j b with
  | nil => simp [risingCells]
  | cons c t ih =>
    obtain ⟨k, d⟩ := c
    simp only [risingCells, Bool.and_eq_true, bne_iff_ne, ne_eq, decide_eq_true_eq]
    constructor
    · rintro ⟨⟨hb, hjk⟩, ht⟩
      refine ⟨hb, ?_, ht⟩
      intro c hc
      rcases List.mem_cons.mp hc with rfl | hc
      · exact hjk
      · exact Nat.lt_trans hjk ((ih.mp ht).2.1 c hc)
    · rintro ⟨hb, hall, ht⟩
      exact ⟨⟨hb, hall (k, d) (by simp)⟩, ht⟩

theorem risingNats_cons {j : Nat} {t : List Nat} :
    risingNats (j :: t) = true ↔ (∀ c ∈ t, j < c) ∧ risingNats t = true := by
  induction t generalizing j with
  | nil => simp [risingNats]
  | cons k t ih =>
    simp only [risingNats, Bool.and_eq_true, decide_eq_true_eq]
    constructor
    · rintro ⟨hjk, ht⟩
      refine ⟨?_, ht⟩
      intro c hc
      rcases List.mem_cons.mp hc with rfl | hc
      · exact hjk
      · exact Nat.lt_trans hjk ((ih.mp ht).1 c hc)
    · rintro ⟨hall, ht⟩
      exact ⟨hall k (by simp), ht⟩

theorem putCell_keys {k : Nat} {b : Byte} {l : List Host.Cell} {c : Host.Cell} (h : c ∈ putCell k b l) :
    c = (k, b) ∨ c ∈ l := by
  induction l with
  | nil => by_cases hb : b = memDefault <;> simp_all [putCell]
  | cons x t ih =>
    obtain ⟨j, d⟩ := x
    simp only [putCell] at h
    split at h
    · split at h <;> simp_all
    · split at h
      · split at h <;> simp_all
        rcases h with h | h <;> simp [h]
      · rcases List.mem_cons.mp h with h | h
        · simp [h]
        · rcases ih h with h | h <;> simp [h]

theorem putCell_rising {k : Nat} {b : Byte} {l : List Host.Cell} (h : risingCells l = true) :
    risingCells (putCell k b l) = true := by
  induction l with
  | nil => by_cases hb : b = memDefault <;> simp [putCell, hb, risingCells]
  | cons x t ih =>
    obtain ⟨j, d⟩ := x
    have hx := risingCells_cons.mp h
    simp only [putCell]
    split
    · rename_i hkj
      split
      · exact h
      · rename_i hb
        refine risingCells_cons.mpr ⟨hb, ?_, h⟩
        intro c hc
        rcases List.mem_cons.mp hc with rfl | hc
        · exact hkj
        · exact Nat.lt_trans hkj (hx.2.1 c hc)
    · split
      · rename_i _ hkj
        split
        · exact hx.2.2
        · rename_i hb
          subst hkj
          exact risingCells_cons.mpr ⟨hb, hx.2.1, hx.2.2⟩
      · rename_i h1 h2
        refine risingCells_cons.mpr ⟨hx.1, ?_, ih hx.2.2⟩
        intro c hc
        rcases putCell_keys hc with rfl | hc
        · show j < k
          omega
        · exact hx.2.1 c hc

theorem lookCell_putCell_same (k : Nat) (b : Byte) {l : List Host.Cell} (h : risingCells l = true) :
    lookCell k (putCell k b l) = b := by
  induction l with
  | nil => by_cases hb : b = memDefault <;> simp [putCell, lookCell, hb]
  | cons x t ih =>
    obtain ⟨j, d⟩ := x
    have hx := risingCells_cons.mp h
    simp only [putCell]
    split
    · rename_i hkj
      split
      · rename_i hb
        simp [lookCell, Nat.ne_of_lt hkj, hkj, hb]
      · simp [lookCell]
    · split
      · rename_i _ hkj
        subst hkj
        split
        · rename_i hb
          rw [lookCell_lt hx.2.1, hb]
        · simp [lookCell]
      · rename_i h1 h2
        simp [lookCell, h1, h2, ih hx.2.2]

theorem lookCell_putCell_other {i k : Nat} (b : Byte) {l : List Host.Cell} (h : risingCells l = true) (hik : i ≠ k) :
    lookCell i (putCell k b l) = lookCell i l := by
  induction l with
  | nil => by_cases hb : b = memDefault <;> simp [putCell, lookCell, hb, hik]
  | cons x t ih =>
    obtain ⟨j, d⟩ := x
    have hx := risingCells_cons.mp h
    simp only [putCell]
    split
    · rename_i hkj
      split
      · rfl
      · by_cases hlt : i < k
        · have : i < j := by omega
          simp [lookCell, hik, hlt, this, Nat.ne_of_lt this]
        · rw [lookCell.eq_2]
          simp [hik, hlt]
    · split
      · rename_i _ hkj
        subst hkj
        split
        · rename_i hb
          by_cases hlt : i < k
          · rw [lookCell_lt (fun c hc => Nat.lt_trans hlt (hx.2.1 c hc))]
            simp [lookCell, hik, hlt]
          · simp [lookCell, hik, hlt]
        · simp [lookCell, hik]
      · simp [lookCell, ih hx.2.2]

/-- A byte reads back as it was written. -/
theorem Mem.read_write_same {m : Mem} (k : Nat) (b : Byte) (h : m.wf = true) : (m.write k b).read k = b := by
  simp only [Mem.wf, Bool.and_eq_true] at h
  exact lookCell_putCell_same k b h.1

/-- A write leaves every other byte alone. -/
theorem Mem.read_write_other {m : Mem} {i k : Nat} (b : Byte) (h : m.wf = true) (hik : i ≠ k) :
    (m.write k b).read i = m.read i := by
  simp only [Mem.wf, Bool.and_eq_true] at h
  exact lookCell_putCell_other b h.1 hik

theorem Mem.write_wf {m : Mem} (k : Nat) (b : Byte) (h : m.wf = true) : (m.write k b).wf = true := by
  simp only [Mem.wf, Bool.and_eq_true, Mem.write] at *
  exact ⟨putCell_rising h.1, h.2⟩

theorem Mem.writeBytes_wf {m : Mem} (k : Nat) (l : List Byte) (h : m.wf = true) : (m.writeBytes k l).wf = true := by
  induction l generalizing m k with
  | nil => exact h
  | cons b t ih => exact ih (k + 1) (m.write_wf k b h)

theorem Mem.writeBytes_poison (m : Mem) (k : Nat) (l : List Byte) : (m.writeBytes k l).poison = m.poison := by
  induction l generalizing m k with
  | nil => rfl
  | cons b t ih => simp [Mem.writeBytes, ih, Mem.write]

/-- A write of bytes leaves every byte outside them alone. -/
theorem Mem.read_writeBytes_other {m : Mem} {i k : Nat} (l : List Byte) (h : m.wf = true)
    (hi : i < k ∨ k + l.length ≤ i) : (m.writeBytes k l).read i = m.read i := by
  induction l generalizing m k with
  | nil => rfl
  | cons b t ih =>
    simp only [List.length_cons] at hi
    rw [Mem.writeBytes, ih (m.write_wf k b h) (by omega), Mem.read_write_other b h (by omega)]

/-- Written bytes read back. -/
theorem Mem.read_writeBytes {m : Mem} {k : Nat} (l : List Byte) (h : m.wf = true) {i : Nat} (hi : i < l.length) :
    (m.writeBytes k l).read (k + i) = l[i] := by
  induction l generalizing m k i with
  | nil => simp at hi
  | cons b t ih =>
    cases i with
    | zero =>
      rw [Mem.writeBytes, Nat.add_zero, Mem.read_writeBytes_other t (m.write_wf k b h) (by omega)]
      exact Mem.read_write_same k b h
    | succ i =>
      have := ih (m := m.write k b) (k := k + 1) (m.write_wf k b h) (i := i) (by simpa using hi)
      rw [Mem.writeBytes, show k + (i + 1) = k + 1 + i by omega, this]
      simp

theorem insNat_mem {k j : Nat} {l : List Nat} (h : j ∈ insNat k l) : j = k ∨ j ∈ l := by
  induction l with
  | nil => simpa [insNat] using h
  | cons x t ih =>
    simp only [insNat] at h
    split at h
    · simpa using h
    · split at h
      · exact .inr h
      · rcases List.mem_cons.mp h with h | h
        · simp [h]
        · rcases ih h with h | h <;> simp [h]

theorem insNat_rising {k : Nat} {l : List Nat} (h : risingNats l = true) : risingNats (insNat k l) = true := by
  induction l with
  | nil => rfl
  | cons x t ih =>
    have hx := risingNats_cons.mp h
    simp only [insNat]
    split
    · rename_i hk
      refine risingNats_cons.mpr ⟨?_, h⟩
      intro c hc
      rcases List.mem_cons.mp hc with rfl | hc
      · exact hk
      · exact Nat.lt_trans hk (hx.1 c hc)
    · split
      · exact h
      · rename_i h1 h2
        refine risingNats_cons.mpr ⟨?_, ih hx.2⟩
        intro c hc
        rcases insNat_mem hc with rfl | hc
        · omega
        · exact hx.1 c hc

theorem filter_rising {p : Nat → Bool} {l : List Nat} (h : risingNats l = true) : risingNats (l.filter p) = true := by
  induction l with
  | nil => rfl
  | cons x t ih =>
    have hx := risingNats_cons.mp h
    by_cases hp : p x
    · rw [List.filter_cons_of_pos hp]
      exact risingNats_cons.mpr ⟨fun c hc => hx.1 c (List.mem_filter.mp hc).1, ih hx.2⟩
    · rw [List.filter_cons_of_neg hp]
      exact ih hx.2

theorem filter_cells_rising {p : Host.Cell → Bool} {l : List Host.Cell} (h : risingCells l = true) :
    risingCells (l.filter p) = true := by
  induction l with
  | nil => rfl
  | cons x t ih =>
    obtain ⟨j, b⟩ := x
    have hx := risingCells_cons.mp h
    by_cases hp : p (j, b)
    · rw [List.filter_cons_of_pos hp]
      exact risingCells_cons.mpr ⟨hx.1, fun c hc => hx.2.1 c (List.mem_filter.mp hc).1, ih hx.2.2⟩
    · rw [List.filter_cons_of_neg hp]
      exact ih hx.2.2

theorem Mem.setPoison_wf {m : Mem} (l : Nat) (h : m.wf = true) : (m.setPoison l).wf = true := by
  simp only [Mem.wf, Bool.and_eq_true, Mem.setPoison] at *
  exact ⟨h.1, insNat_rising h.2.1, filter_rising h.2.2⟩

theorem Mem.clearPoison_wf {m : Mem} (l : Nat) (h : m.wf = true) : (m.clearPoison l).wf = true := by
  simp only [Mem.wf, Bool.and_eq_true, Mem.clearPoison] at *
  exact ⟨h.1, filter_rising h.2.1, filter_rising h.2.2⟩

theorem Mem.strike_wf {m : Mem} (l x d : Nat) (h : m.wf = true) : (m.strike l x d).wf = true := by
  simp only [Mem.wf, Bool.and_eq_true, Mem.strike] at *
  refine ⟨h.1, h.2.1, ?_⟩
  split
  · exact filter_rising h.2.2
  · exact insNat_rising (filter_rising h.2.2)

theorem Mem.zeroRange_wf {m : Mem} (k n : Nat) (h : m.wf = true) : (m.zeroRange k n).wf = true := by
  simp only [Mem.wf, Bool.and_eq_true, Mem.zeroRange] at *
  exact ⟨filter_cells_rising h.1, filter_rising h.2.1, filter_rising h.2.2⟩

theorem Mem.writeInLine_wf {m : Mem} (k : Nat) (d : List Byte) (h : m.wf = true) : (m.writeInLine k d).wf = true := by
  unfold Mem.writeInLine
  split
  · exact Mem.writeBytes_wf _ _ (m.clearPoison_wf _ h)
  · split
    · exact h
    · exact m.writeBytes_wf _ _ h

theorem Mem.copyLine_wf {m : Mem} (s d : Nat) (h : m.wf = true) : (m.copyLine s d).wf = true := by
  unfold Mem.copyLine
  split
  · exact m.setPoison_wf _ h
  · exact Mem.writeBytes_wf _ _ (m.clearPoison_wf _ h)

/-- Every change of memory keeps the canonical form. -/
theorem Mem.apply_wf {m : Mem} (o : MemOp) (h : m.wf = true) : (m.apply o).wf = true := by
  cases o with
  | raw k d => exact m.writeBytes_wf k d h
  | line k d => exact m.writeInLine_wf k d h
  | poison l => exact m.setPoison_wf l h
  | clear l => exact m.clearPoison_wf l h
  | zero k n => exact m.zeroRange_wf k n h
  | copy s d => exact m.copyLine_wf s d h
  | strike l x d => exact m.strike_wf l x d h

theorem Mem.run_wf {m : Mem} (ops : List MemOp) (h : m.wf = true) : (m.run ops).wf = true := by
  induction ops generalizing m with
  | nil => exact h
  | cons o t ih => exact ih (m.apply_wf o h)

/-- What a range set to zero reads as. -/
theorem lookCell_filter {p : Nat → Bool} {k : Nat} {l : List Host.Cell} (h : risingCells l = true) :
    lookCell k (l.filter fun c => p c.1) = if p k then lookCell k l else memDefault := by
  induction l with
  | nil => simp [lookCell]
  | cons x t ih =>
    obtain ⟨j, b⟩ := x
    have hx := risingCells_cons.mp h
    by_cases hp : p j
    · rw [List.filter_cons_of_pos (by simpa using hp)]
      simp only [lookCell]
      by_cases hkj : k = j
      · subst hkj; simp [hp]
      · by_cases hlt : k < j
        · simp [hkj, hlt]
        · simp [hkj, hlt, ih hx.2.2]
    · rw [List.filter_cons_of_neg (by simpa using hp), ih hx.2.2]
      by_cases hpk : p k
      · have hkj : k ≠ j := by rintro rfl; exact hp hpk
        simp only [hpk, if_true, lookCell, hkj, if_false]
        split
        · rename_i hlt
          exact lookCell_lt fun c hc => Nat.lt_trans hlt (hx.2.1 c hc)
        · rfl
      · simp [hpk]

theorem Mem.read_zeroRange {m : Mem} (k n i : Nat) (h : m.wf = true) :
    (m.zeroRange k n).read i = if k ≤ i ∧ i < k + n then memDefault else m.read i := by
  simp only [Mem.wf, Bool.and_eq_true] at h
  have := lookCell_filter (p := fun c => decide (c < k) || decide (k + n ≤ c)) (k := i) h.1
  simp only [Mem.read, Mem.zeroRange]
  rw [this]
  by_cases h1 : i < k
  · have : ¬ k ≤ i := by omega
    simp [h1, this]
  · by_cases h2 : k + n ≤ i
    · have : ¬ i < k + n := by omega
      simp [h2, this]
    · have h3 : k ≤ i := by omega
      have h4 : i < k + n := by omega
      simp [h1, h2, h3, h4]

end Sys2Proof.Machine
end

