-- ==== Sys2Proof/Laws/State.lean ====
section
/-! SUPPORT. The fields of the state after each update: one lemma per field and update. -/

namespace Sys2Proof.Machine

/-! `Ctl.setEntry` changes `ready`. -/

@[simp] theorem Ctl.setEntry_rc (i : Nat) (e : Entry) (c : Ctl) : (Ctl.setEntry i e c).rc = c.rc := rfl
@[simp] theorem Ctl.setEntry_power (i : Nat) (e : Entry) (c : Ctl) : (Ctl.setEntry i e c).power = c.power := rfl
@[simp] theorem Ctl.setEntry_alarms (i : Nat) (e : Entry) (c : Ctl) : (Ctl.setEntry i e c).alarms = c.alarms := rfl
@[simp] theorem Ctl.setEntry_fnA (i : Nat) (e : Entry) (c : Ctl) : (Ctl.setEntry i e c).fnA = c.fnA := rfl
@[simp] theorem Ctl.setEntry_fnB (i : Nat) (e : Entry) (c : Ctl) : (Ctl.setEntry i e c).fnB = c.fnB := rfl
@[simp] theorem Ctl.setEntry_pairs (i : Nat) (e : Entry) (c : Ctl) : (Ctl.setEntry i e c).pairs = c.pairs := rfl
@[simp] theorem Ctl.setEntry_eth (i : Nat) (e : Entry) (c : Ctl) : (Ctl.setEntry i e c).eth = c.eth := rfl
@[simp] theorem Ctl.setEntry_jobs (i : Nat) (e : Entry) (c : Ctl) : (Ctl.setEntry i e c).jobs = c.jobs := rfl
@[simp] theorem Ctl.setEntry_tiles (i : Nat) (e : Entry) (c : Ctl) : (Ctl.setEntry i e c).tiles = c.tiles := rfl
@[simp] theorem Ctl.setEntry_stacks (i : Nat) (e : Entry) (c : Ctl) : (Ctl.setEntry i e c).stackTab = c.stackTab := rfl
@[simp] theorem Ctl.setEntry_chans (i : Nat) (e : Entry) (c : Ctl) : (Ctl.setEntry i e c).chans = c.chans := rfl
@[simp] theorem Ctl.setEntry_cqs (i : Nat) (e : Entry) (c : Ctl) : (Ctl.setEntry i e c).cqs = c.cqs := rfl
@[simp] theorem Ctl.setEntry_links (i : Nat) (e : Entry) (c : Ctl) : (Ctl.setEntry i e c).links = c.links := rfl
@[simp] theorem Ctl.setEntry_guest (i : Nat) (e : Entry) (c : Ctl) : (Ctl.setEntry i e c).guest = c.guest := rfl
@[simp] theorem Ctl.setEntry_router (i : Nat) (e : Entry) (c : Ctl) : (Ctl.setEntry i e c).router = c.router := rfl
@[simp] theorem Ctl.setEntry_fabric (i : Nat) (e : Entry) (c : Ctl) : (Ctl.setEntry i e c).fabric = c.fabric := rfl
@[simp] theorem Ctl.setEntry_optics (i : Nat) (e : Entry) (c : Ctl) : (Ctl.setEntry i e c).optics = c.optics := rfl
@[simp] theorem Ctl.setEntry_colls (i : Nat) (e : Entry) (c : Ctl) : (Ctl.setEntry i e c).colls = c.colls := rfl
@[simp] theorem Ctl.setEntry_serve (i : Nat) (e : Entry) (c : Ctl) : (Ctl.setEntry i e c).serve = c.serve := rfl

/-! `Ctl.setTile` changes `tiles`. -/

@[simp] theorem Ctl.setTile_rc (n : Nat) (t : Tile) (c : Ctl) : (Ctl.setTile n t c).rc = c.rc := rfl
@[simp] theorem Ctl.setTile_power (n : Nat) (t : Tile) (c : Ctl) : (Ctl.setTile n t c).power = c.power := rfl
@[simp] theorem Ctl.setTile_alarms (n : Nat) (t : Tile) (c : Ctl) : (Ctl.setTile n t c).alarms = c.alarms := rfl
@[simp] theorem Ctl.setTile_ready (n : Nat) (t : Tile) (c : Ctl) : (Ctl.setTile n t c).ready = c.ready := rfl
@[simp] theorem Ctl.setTile_fnA (n : Nat) (t : Tile) (c : Ctl) : (Ctl.setTile n t c).fnA = c.fnA := rfl
@[simp] theorem Ctl.setTile_fnB (n : Nat) (t : Tile) (c : Ctl) : (Ctl.setTile n t c).fnB = c.fnB := rfl
@[simp] theorem Ctl.setTile_pairs (n : Nat) (t : Tile) (c : Ctl) : (Ctl.setTile n t c).pairs = c.pairs := rfl
@[simp] theorem Ctl.setTile_eth (n : Nat) (t : Tile) (c : Ctl) : (Ctl.setTile n t c).eth = c.eth := rfl
@[simp] theorem Ctl.setTile_jobs (n : Nat) (t : Tile) (c : Ctl) : (Ctl.setTile n t c).jobs = c.jobs := rfl
@[simp] theorem Ctl.setTile_stacks (n : Nat) (t : Tile) (c : Ctl) : (Ctl.setTile n t c).stackTab = c.stackTab := rfl
@[simp] theorem Ctl.setTile_chans (n : Nat) (t : Tile) (c : Ctl) : (Ctl.setTile n t c).chans = c.chans := rfl
@[simp] theorem Ctl.setTile_cqs (n : Nat) (t : Tile) (c : Ctl) : (Ctl.setTile n t c).cqs = c.cqs := rfl
@[simp] theorem Ctl.setTile_links (n : Nat) (t : Tile) (c : Ctl) : (Ctl.setTile n t c).links = c.links := rfl
@[simp] theorem Ctl.setTile_guest (n : Nat) (t : Tile) (c : Ctl) : (Ctl.setTile n t c).guest = c.guest := rfl
@[simp] theorem Ctl.setTile_router (n : Nat) (t : Tile) (c : Ctl) : (Ctl.setTile n t c).router = c.router := rfl
@[simp] theorem Ctl.setTile_fabric (n : Nat) (t : Tile) (c : Ctl) : (Ctl.setTile n t c).fabric = c.fabric := rfl
@[simp] theorem Ctl.setTile_optics (n : Nat) (t : Tile) (c : Ctl) : (Ctl.setTile n t c).optics = c.optics := rfl
@[simp] theorem Ctl.setTile_colls (n : Nat) (t : Tile) (c : Ctl) : (Ctl.setTile n t c).colls = c.colls := rfl
@[simp] theorem Ctl.setTile_serve (n : Nat) (t : Tile) (c : Ctl) : (Ctl.setTile n t c).serve = c.serve := rfl

/-! `Ctl.updTile` changes `tiles`. -/

@[simp] theorem Ctl.updTile_rc (n : Nat) (f : Tile → Tile) (c : Ctl) : (Ctl.updTile n f c).rc = c.rc := rfl
@[simp] theorem Ctl.updTile_power (n : Nat) (f : Tile → Tile) (c : Ctl) : (Ctl.updTile n f c).power = c.power := rfl
@[simp] theorem Ctl.updTile_alarms (n : Nat) (f : Tile → Tile) (c : Ctl) : (Ctl.updTile n f c).alarms = c.alarms := rfl
@[simp] theorem Ctl.updTile_ready (n : Nat) (f : Tile → Tile) (c : Ctl) : (Ctl.updTile n f c).ready = c.ready := rfl
@[simp] theorem Ctl.updTile_fnA (n : Nat) (f : Tile → Tile) (c : Ctl) : (Ctl.updTile n f c).fnA = c.fnA := rfl
@[simp] theorem Ctl.updTile_fnB (n : Nat) (f : Tile → Tile) (c : Ctl) : (Ctl.updTile n f c).fnB = c.fnB := rfl
@[simp] theorem Ctl.updTile_pairs (n : Nat) (f : Tile → Tile) (c : Ctl) : (Ctl.updTile n f c).pairs = c.pairs := rfl
@[simp] theorem Ctl.updTile_eth (n : Nat) (f : Tile → Tile) (c : Ctl) : (Ctl.updTile n f c).eth = c.eth := rfl
@[simp] theorem Ctl.updTile_jobs (n : Nat) (f : Tile → Tile) (c : Ctl) : (Ctl.updTile n f c).jobs = c.jobs := rfl
@[simp] theorem Ctl.updTile_stacks (n : Nat) (f : Tile → Tile) (c : Ctl) : (Ctl.updTile n f c).stackTab = c.stackTab := rfl
@[simp] theorem Ctl.updTile_chans (n : Nat) (f : Tile → Tile) (c : Ctl) : (Ctl.updTile n f c).chans = c.chans := rfl
@[simp] theorem Ctl.updTile_cqs (n : Nat) (f : Tile → Tile) (c : Ctl) : (Ctl.updTile n f c).cqs = c.cqs := rfl
@[simp] theorem Ctl.updTile_links (n : Nat) (f : Tile → Tile) (c : Ctl) : (Ctl.updTile n f c).links = c.links := rfl
@[simp] theorem Ctl.updTile_guest (n : Nat) (f : Tile → Tile) (c : Ctl) : (Ctl.updTile n f c).guest = c.guest := rfl
@[simp] theorem Ctl.updTile_router (n : Nat) (f : Tile → Tile) (c : Ctl) : (Ctl.updTile n f c).router = c.router := rfl
@[simp] theorem Ctl.updTile_fabric (n : Nat) (f : Tile → Tile) (c : Ctl) : (Ctl.updTile n f c).fabric = c.fabric := rfl
@[simp] theorem Ctl.updTile_optics (n : Nat) (f : Tile → Tile) (c : Ctl) : (Ctl.updTile n f c).optics = c.optics := rfl
@[simp] theorem Ctl.updTile_colls (n : Nat) (f : Tile → Tile) (c : Ctl) : (Ctl.updTile n f c).colls = c.colls := rfl
@[simp] theorem Ctl.updTile_serve (n : Nat) (f : Tile → Tile) (c : Ctl) : (Ctl.updTile n f c).serve = c.serve := rfl

/-! `Ctl.setStack` changes `stacks`. -/

@[simp] theorem Ctl.setStack_rc (n : Nat) (t : Stack) (c : Ctl) : (Ctl.setStack n t c).rc = c.rc := rfl
@[simp] theorem Ctl.setStack_power (n : Nat) (t : Stack) (c : Ctl) : (Ctl.setStack n t c).power = c.power := rfl
@[simp] theorem Ctl.setStack_alarms (n : Nat) (t : Stack) (c : Ctl) : (Ctl.setStack n t c).alarms = c.alarms := rfl
@[simp] theorem Ctl.setStack_ready (n : Nat) (t : Stack) (c : Ctl) : (Ctl.setStack n t c).ready = c.ready := rfl
@[simp] theorem Ctl.setStack_fnA (n : Nat) (t : Stack) (c : Ctl) : (Ctl.setStack n t c).fnA = c.fnA := rfl
@[simp] theorem Ctl.setStack_fnB (n : Nat) (t : Stack) (c : Ctl) : (Ctl.setStack n t c).fnB = c.fnB := rfl
@[simp] theorem Ctl.setStack_pairs (n : Nat) (t : Stack) (c : Ctl) : (Ctl.setStack n t c).pairs = c.pairs := rfl
@[simp] theorem Ctl.setStack_eth (n : Nat) (t : Stack) (c : Ctl) : (Ctl.setStack n t c).eth = c.eth := rfl
@[simp] theorem Ctl.setStack_jobs (n : Nat) (t : Stack) (c : Ctl) : (Ctl.setStack n t c).jobs = c.jobs := rfl
@[simp] theorem Ctl.setStack_tiles (n : Nat) (t : Stack) (c : Ctl) : (Ctl.setStack n t c).tiles = c.tiles := rfl
@[simp] theorem Ctl.setStack_chans (n : Nat) (t : Stack) (c : Ctl) : (Ctl.setStack n t c).chans = c.chans := rfl
@[simp] theorem Ctl.setStack_cqs (n : Nat) (t : Stack) (c : Ctl) : (Ctl.setStack n t c).cqs = c.cqs := rfl
@[simp] theorem Ctl.setStack_links (n : Nat) (t : Stack) (c : Ctl) : (Ctl.setStack n t c).links = c.links := rfl
@[simp] theorem Ctl.setStack_guest (n : Nat) (t : Stack) (c : Ctl) : (Ctl.setStack n t c).guest = c.guest := rfl
@[simp] theorem Ctl.setStack_router (n : Nat) (t : Stack) (c : Ctl) : (Ctl.setStack n t c).router = c.router := rfl
@[simp] theorem Ctl.setStack_fabric (n : Nat) (t : Stack) (c : Ctl) : (Ctl.setStack n t c).fabric = c.fabric := rfl
@[simp] theorem Ctl.setStack_optics (n : Nat) (t : Stack) (c : Ctl) : (Ctl.setStack n t c).optics = c.optics := rfl
@[simp] theorem Ctl.setStack_colls (n : Nat) (t : Stack) (c : Ctl) : (Ctl.setStack n t c).colls = c.colls := rfl
@[simp] theorem Ctl.setStack_serve (n : Nat) (t : Stack) (c : Ctl) : (Ctl.setStack n t c).serve = c.serve := rfl

/-! `Ctl.updStack` changes `stacks`. -/

@[simp] theorem Ctl.updStack_rc (n : Nat) (f : Stack → Stack) (c : Ctl) : (Ctl.updStack n f c).rc = c.rc := rfl
@[simp] theorem Ctl.updStack_power (n : Nat) (f : Stack → Stack) (c : Ctl) : (Ctl.updStack n f c).power = c.power := rfl
@[simp] theorem Ctl.updStack_alarms (n : Nat) (f : Stack → Stack) (c : Ctl) : (Ctl.updStack n f c).alarms = c.alarms := rfl
@[simp] theorem Ctl.updStack_ready (n : Nat) (f : Stack → Stack) (c : Ctl) : (Ctl.updStack n f c).ready = c.ready := rfl
@[simp] theorem Ctl.updStack_fnA (n : Nat) (f : Stack → Stack) (c : Ctl) : (Ctl.updStack n f c).fnA = c.fnA := rfl
@[simp] theorem Ctl.updStack_fnB (n : Nat) (f : Stack → Stack) (c : Ctl) : (Ctl.updStack n f c).fnB = c.fnB := rfl
@[simp] theorem Ctl.updStack_pairs (n : Nat) (f : Stack → Stack) (c : Ctl) : (Ctl.updStack n f c).pairs = c.pairs := rfl
@[simp] theorem Ctl.updStack_eth (n : Nat) (f : Stack → Stack) (c : Ctl) : (Ctl.updStack n f c).eth = c.eth := rfl
@[simp] theorem Ctl.updStack_jobs (n : Nat) (f : Stack → Stack) (c : Ctl) : (Ctl.updStack n f c).jobs = c.jobs := rfl
@[simp] theorem Ctl.updStack_tiles (n : Nat) (f : Stack → Stack) (c : Ctl) : (Ctl.updStack n f c).tiles = c.tiles := rfl
@[simp] theorem Ctl.updStack_chans (n : Nat) (f : Stack → Stack) (c : Ctl) : (Ctl.updStack n f c).chans = c.chans := rfl
@[simp] theorem Ctl.updStack_cqs (n : Nat) (f : Stack → Stack) (c : Ctl) : (Ctl.updStack n f c).cqs = c.cqs := rfl
@[simp] theorem Ctl.updStack_links (n : Nat) (f : Stack → Stack) (c : Ctl) : (Ctl.updStack n f c).links = c.links := rfl
@[simp] theorem Ctl.updStack_guest (n : Nat) (f : Stack → Stack) (c : Ctl) : (Ctl.updStack n f c).guest = c.guest := rfl
@[simp] theorem Ctl.updStack_router (n : Nat) (f : Stack → Stack) (c : Ctl) : (Ctl.updStack n f c).router = c.router := rfl
@[simp] theorem Ctl.updStack_fabric (n : Nat) (f : Stack → Stack) (c : Ctl) : (Ctl.updStack n f c).fabric = c.fabric := rfl
@[simp] theorem Ctl.updStack_optics (n : Nat) (f : Stack → Stack) (c : Ctl) : (Ctl.updStack n f c).optics = c.optics := rfl
@[simp] theorem Ctl.updStack_colls (n : Nat) (f : Stack → Stack) (c : Ctl) : (Ctl.updStack n f c).colls = c.colls := rfl
@[simp] theorem Ctl.updStack_serve (n : Nat) (f : Stack → Stack) (c : Ctl) : (Ctl.updStack n f c).serve = c.serve := rfl

/-! `Ctl.setPair` changes `pairs`. -/

@[simp] theorem Ctl.setPair_rc (n : Nat) (p : Pair) (c : Ctl) : (Ctl.setPair n p c).rc = c.rc := rfl
@[simp] theorem Ctl.setPair_power (n : Nat) (p : Pair) (c : Ctl) : (Ctl.setPair n p c).power = c.power := rfl
@[simp] theorem Ctl.setPair_alarms (n : Nat) (p : Pair) (c : Ctl) : (Ctl.setPair n p c).alarms = c.alarms := rfl
@[simp] theorem Ctl.setPair_ready (n : Nat) (p : Pair) (c : Ctl) : (Ctl.setPair n p c).ready = c.ready := rfl
@[simp] theorem Ctl.setPair_fnA (n : Nat) (p : Pair) (c : Ctl) : (Ctl.setPair n p c).fnA = c.fnA := rfl
@[simp] theorem Ctl.setPair_fnB (n : Nat) (p : Pair) (c : Ctl) : (Ctl.setPair n p c).fnB = c.fnB := rfl
@[simp] theorem Ctl.setPair_eth (n : Nat) (p : Pair) (c : Ctl) : (Ctl.setPair n p c).eth = c.eth := rfl
@[simp] theorem Ctl.setPair_jobs (n : Nat) (p : Pair) (c : Ctl) : (Ctl.setPair n p c).jobs = c.jobs := rfl
@[simp] theorem Ctl.setPair_tiles (n : Nat) (p : Pair) (c : Ctl) : (Ctl.setPair n p c).tiles = c.tiles := rfl
@[simp] theorem Ctl.setPair_stacks (n : Nat) (p : Pair) (c : Ctl) : (Ctl.setPair n p c).stackTab = c.stackTab := rfl
@[simp] theorem Ctl.setPair_chans (n : Nat) (p : Pair) (c : Ctl) : (Ctl.setPair n p c).chans = c.chans := rfl
@[simp] theorem Ctl.setPair_cqs (n : Nat) (p : Pair) (c : Ctl) : (Ctl.setPair n p c).cqs = c.cqs := rfl
@[simp] theorem Ctl.setPair_links (n : Nat) (p : Pair) (c : Ctl) : (Ctl.setPair n p c).links = c.links := rfl
@[simp] theorem Ctl.setPair_guest (n : Nat) (p : Pair) (c : Ctl) : (Ctl.setPair n p c).guest = c.guest := rfl
@[simp] theorem Ctl.setPair_router (n : Nat) (p : Pair) (c : Ctl) : (Ctl.setPair n p c).router = c.router := rfl
@[simp] theorem Ctl.setPair_fabric (n : Nat) (p : Pair) (c : Ctl) : (Ctl.setPair n p c).fabric = c.fabric := rfl
@[simp] theorem Ctl.setPair_optics (n : Nat) (p : Pair) (c : Ctl) : (Ctl.setPair n p c).optics = c.optics := rfl
@[simp] theorem Ctl.setPair_colls (n : Nat) (p : Pair) (c : Ctl) : (Ctl.setPair n p c).colls = c.colls := rfl
@[simp] theorem Ctl.setPair_serve (n : Nat) (p : Pair) (c : Ctl) : (Ctl.setPair n p c).serve = c.serve := rfl

/-! `Ctl.updPair` changes `pairs`. -/

@[simp] theorem Ctl.updPair_rc (n : Nat) (f : Pair → Pair) (c : Ctl) : (Ctl.updPair n f c).rc = c.rc := rfl
@[simp] theorem Ctl.updPair_power (n : Nat) (f : Pair → Pair) (c : Ctl) : (Ctl.updPair n f c).power = c.power := rfl
@[simp] theorem Ctl.updPair_alarms (n : Nat) (f : Pair → Pair) (c : Ctl) : (Ctl.updPair n f c).alarms = c.alarms := rfl
@[simp] theorem Ctl.updPair_ready (n : Nat) (f : Pair → Pair) (c : Ctl) : (Ctl.updPair n f c).ready = c.ready := rfl
@[simp] theorem Ctl.updPair_fnA (n : Nat) (f : Pair → Pair) (c : Ctl) : (Ctl.updPair n f c).fnA = c.fnA := rfl
@[simp] theorem Ctl.updPair_fnB (n : Nat) (f : Pair → Pair) (c : Ctl) : (Ctl.updPair n f c).fnB = c.fnB := rfl
@[simp] theorem Ctl.updPair_eth (n : Nat) (f : Pair → Pair) (c : Ctl) : (Ctl.updPair n f c).eth = c.eth := rfl
@[simp] theorem Ctl.updPair_jobs (n : Nat) (f : Pair → Pair) (c : Ctl) : (Ctl.updPair n f c).jobs = c.jobs := rfl
@[simp] theorem Ctl.updPair_tiles (n : Nat) (f : Pair → Pair) (c : Ctl) : (Ctl.updPair n f c).tiles = c.tiles := rfl
@[simp] theorem Ctl.updPair_stacks (n : Nat) (f : Pair → Pair) (c : Ctl) : (Ctl.updPair n f c).stackTab = c.stackTab := rfl
@[simp] theorem Ctl.updPair_chans (n : Nat) (f : Pair → Pair) (c : Ctl) : (Ctl.updPair n f c).chans = c.chans := rfl
@[simp] theorem Ctl.updPair_cqs (n : Nat) (f : Pair → Pair) (c : Ctl) : (Ctl.updPair n f c).cqs = c.cqs := rfl
@[simp] theorem Ctl.updPair_links (n : Nat) (f : Pair → Pair) (c : Ctl) : (Ctl.updPair n f c).links = c.links := rfl
@[simp] theorem Ctl.updPair_guest (n : Nat) (f : Pair → Pair) (c : Ctl) : (Ctl.updPair n f c).guest = c.guest := rfl
@[simp] theorem Ctl.updPair_router (n : Nat) (f : Pair → Pair) (c : Ctl) : (Ctl.updPair n f c).router = c.router := rfl
@[simp] theorem Ctl.updPair_fabric (n : Nat) (f : Pair → Pair) (c : Ctl) : (Ctl.updPair n f c).fabric = c.fabric := rfl
@[simp] theorem Ctl.updPair_optics (n : Nat) (f : Pair → Pair) (c : Ctl) : (Ctl.updPair n f c).optics = c.optics := rfl
@[simp] theorem Ctl.updPair_colls (n : Nat) (f : Pair → Pair) (c : Ctl) : (Ctl.updPair n f c).colls = c.colls := rfl
@[simp] theorem Ctl.updPair_serve (n : Nat) (f : Pair → Pair) (c : Ctl) : (Ctl.updPair n f c).serve = c.serve := rfl

/-! `Ctl.updPort` changes `router`. -/

@[simp] theorem Ctl.updPort_rc (n : Nat) (f : RPort → RPort) (c : Ctl) : (Ctl.updPort n f c).rc = c.rc := rfl
@[simp] theorem Ctl.updPort_power (n : Nat) (f : RPort → RPort) (c : Ctl) : (Ctl.updPort n f c).power = c.power := rfl
@[simp] theorem Ctl.updPort_alarms (n : Nat) (f : RPort → RPort) (c : Ctl) : (Ctl.updPort n f c).alarms = c.alarms := rfl
@[simp] theorem Ctl.updPort_ready (n : Nat) (f : RPort → RPort) (c : Ctl) : (Ctl.updPort n f c).ready = c.ready := rfl
@[simp] theorem Ctl.updPort_fnA (n : Nat) (f : RPort → RPort) (c : Ctl) : (Ctl.updPort n f c).fnA = c.fnA := rfl
@[simp] theorem Ctl.updPort_fnB (n : Nat) (f : RPort → RPort) (c : Ctl) : (Ctl.updPort n f c).fnB = c.fnB := rfl
@[simp] theorem Ctl.updPort_pairs (n : Nat) (f : RPort → RPort) (c : Ctl) : (Ctl.updPort n f c).pairs = c.pairs := rfl
@[simp] theorem Ctl.updPort_eth (n : Nat) (f : RPort → RPort) (c : Ctl) : (Ctl.updPort n f c).eth = c.eth := rfl
@[simp] theorem Ctl.updPort_jobs (n : Nat) (f : RPort → RPort) (c : Ctl) : (Ctl.updPort n f c).jobs = c.jobs := rfl
@[simp] theorem Ctl.updPort_tiles (n : Nat) (f : RPort → RPort) (c : Ctl) : (Ctl.updPort n f c).tiles = c.tiles := rfl
@[simp] theorem Ctl.updPort_stacks (n : Nat) (f : RPort → RPort) (c : Ctl) : (Ctl.updPort n f c).stackTab = c.stackTab := rfl
@[simp] theorem Ctl.updPort_chans (n : Nat) (f : RPort → RPort) (c : Ctl) : (Ctl.updPort n f c).chans = c.chans := rfl
@[simp] theorem Ctl.updPort_cqs (n : Nat) (f : RPort → RPort) (c : Ctl) : (Ctl.updPort n f c).cqs = c.cqs := rfl
@[simp] theorem Ctl.updPort_links (n : Nat) (f : RPort → RPort) (c : Ctl) : (Ctl.updPort n f c).links = c.links := rfl
@[simp] theorem Ctl.updPort_guest (n : Nat) (f : RPort → RPort) (c : Ctl) : (Ctl.updPort n f c).guest = c.guest := rfl
@[simp] theorem Ctl.updPort_fabric (n : Nat) (f : RPort → RPort) (c : Ctl) : (Ctl.updPort n f c).fabric = c.fabric := rfl
@[simp] theorem Ctl.updPort_optics (n : Nat) (f : RPort → RPort) (c : Ctl) : (Ctl.updPort n f c).optics = c.optics := rfl
@[simp] theorem Ctl.updPort_colls (n : Nat) (f : RPort → RPort) (c : Ctl) : (Ctl.updPort n f c).colls = c.colls := rfl
@[simp] theorem Ctl.updPort_serve (n : Nat) (f : RPort → RPort) (c : Ctl) : (Ctl.updPort n f c).serve = c.serve := rfl

/-! `Ctl.updOPort` changes `optics`. -/

@[simp] theorem Ctl.updOPort_rc (n : Nat) (f : OPort → OPort) (c : Ctl) : (Ctl.updOPort n f c).rc = c.rc := rfl
@[simp] theorem Ctl.updOPort_power (n : Nat) (f : OPort → OPort) (c : Ctl) : (Ctl.updOPort n f c).power = c.power := rfl
@[simp] theorem Ctl.updOPort_alarms (n : Nat) (f : OPort → OPort) (c : Ctl) : (Ctl.updOPort n f c).alarms = c.alarms := rfl
@[simp] theorem Ctl.updOPort_ready (n : Nat) (f : OPort → OPort) (c : Ctl) : (Ctl.updOPort n f c).ready = c.ready := rfl
@[simp] theorem Ctl.updOPort_fnA (n : Nat) (f : OPort → OPort) (c : Ctl) : (Ctl.updOPort n f c).fnA = c.fnA := rfl
@[simp] theorem Ctl.updOPort_fnB (n : Nat) (f : OPort → OPort) (c : Ctl) : (Ctl.updOPort n f c).fnB = c.fnB := rfl
@[simp] theorem Ctl.updOPort_pairs (n : Nat) (f : OPort → OPort) (c : Ctl) : (Ctl.updOPort n f c).pairs = c.pairs := rfl
@[simp] theorem Ctl.updOPort_eth (n : Nat) (f : OPort → OPort) (c : Ctl) : (Ctl.updOPort n f c).eth = c.eth := rfl
@[simp] theorem Ctl.updOPort_jobs (n : Nat) (f : OPort → OPort) (c : Ctl) : (Ctl.updOPort n f c).jobs = c.jobs := rfl
@[simp] theorem Ctl.updOPort_tiles (n : Nat) (f : OPort → OPort) (c : Ctl) : (Ctl.updOPort n f c).tiles = c.tiles := rfl
@[simp] theorem Ctl.updOPort_stacks (n : Nat) (f : OPort → OPort) (c : Ctl) : (Ctl.updOPort n f c).stackTab = c.stackTab := rfl
@[simp] theorem Ctl.updOPort_chans (n : Nat) (f : OPort → OPort) (c : Ctl) : (Ctl.updOPort n f c).chans = c.chans := rfl
@[simp] theorem Ctl.updOPort_cqs (n : Nat) (f : OPort → OPort) (c : Ctl) : (Ctl.updOPort n f c).cqs = c.cqs := rfl
@[simp] theorem Ctl.updOPort_links (n : Nat) (f : OPort → OPort) (c : Ctl) : (Ctl.updOPort n f c).links = c.links := rfl
@[simp] theorem Ctl.updOPort_guest (n : Nat) (f : OPort → OPort) (c : Ctl) : (Ctl.updOPort n f c).guest = c.guest := rfl
@[simp] theorem Ctl.updOPort_router (n : Nat) (f : OPort → OPort) (c : Ctl) : (Ctl.updOPort n f c).router = c.router := rfl
@[simp] theorem Ctl.updOPort_fabric (n : Nat) (f : OPort → OPort) (c : Ctl) : (Ctl.updOPort n f c).fabric = c.fabric := rfl
@[simp] theorem Ctl.updOPort_colls (n : Nat) (f : OPort → OPort) (c : Ctl) : (Ctl.updOPort n f c).colls = c.colls := rfl
@[simp] theorem Ctl.updOPort_serve (n : Nat) (f : OPort → OPort) (c : Ctl) : (Ctl.updOPort n f c).serve = c.serve := rfl

/-! `Ctl.updLink` changes `links`. -/

@[simp] theorem Ctl.updLink_rc (n : Nat) (f : D2dLink → D2dLink) (c : Ctl) : (Ctl.updLink n f c).rc = c.rc := rfl
@[simp] theorem Ctl.updLink_power (n : Nat) (f : D2dLink → D2dLink) (c : Ctl) : (Ctl.updLink n f c).power = c.power := rfl
@[simp] theorem Ctl.updLink_alarms (n : Nat) (f : D2dLink → D2dLink) (c : Ctl) : (Ctl.updLink n f c).alarms = c.alarms := rfl
@[simp] theorem Ctl.updLink_ready (n : Nat) (f : D2dLink → D2dLink) (c : Ctl) : (Ctl.updLink n f c).ready = c.ready := rfl
@[simp] theorem Ctl.updLink_fnA (n : Nat) (f : D2dLink → D2dLink) (c : Ctl) : (Ctl.updLink n f c).fnA = c.fnA := rfl
@[simp] theorem Ctl.updLink_fnB (n : Nat) (f : D2dLink → D2dLink) (c : Ctl) : (Ctl.updLink n f c).fnB = c.fnB := rfl
@[simp] theorem Ctl.updLink_pairs (n : Nat) (f : D2dLink → D2dLink) (c : Ctl) : (Ctl.updLink n f c).pairs = c.pairs := rfl
@[simp] theorem Ctl.updLink_eth (n : Nat) (f : D2dLink → D2dLink) (c : Ctl) : (Ctl.updLink n f c).eth = c.eth := rfl
@[simp] theorem Ctl.updLink_jobs (n : Nat) (f : D2dLink → D2dLink) (c : Ctl) : (Ctl.updLink n f c).jobs = c.jobs := rfl
@[simp] theorem Ctl.updLink_tiles (n : Nat) (f : D2dLink → D2dLink) (c : Ctl) : (Ctl.updLink n f c).tiles = c.tiles := rfl
@[simp] theorem Ctl.updLink_stacks (n : Nat) (f : D2dLink → D2dLink) (c : Ctl) : (Ctl.updLink n f c).stackTab = c.stackTab := rfl
@[simp] theorem Ctl.updLink_chans (n : Nat) (f : D2dLink → D2dLink) (c : Ctl) : (Ctl.updLink n f c).chans = c.chans := rfl
@[simp] theorem Ctl.updLink_cqs (n : Nat) (f : D2dLink → D2dLink) (c : Ctl) : (Ctl.updLink n f c).cqs = c.cqs := rfl
@[simp] theorem Ctl.updLink_guest (n : Nat) (f : D2dLink → D2dLink) (c : Ctl) : (Ctl.updLink n f c).guest = c.guest := rfl
@[simp] theorem Ctl.updLink_router (n : Nat) (f : D2dLink → D2dLink) (c : Ctl) : (Ctl.updLink n f c).router = c.router := rfl
@[simp] theorem Ctl.updLink_fabric (n : Nat) (f : D2dLink → D2dLink) (c : Ctl) : (Ctl.updLink n f c).fabric = c.fabric := rfl
@[simp] theorem Ctl.updLink_optics (n : Nat) (f : D2dLink → D2dLink) (c : Ctl) : (Ctl.updLink n f c).optics = c.optics := rfl
@[simp] theorem Ctl.updLink_colls (n : Nat) (f : D2dLink → D2dLink) (c : Ctl) : (Ctl.updLink n f c).colls = c.colls := rfl
@[simp] theorem Ctl.updLink_serve (n : Nat) (f : D2dLink → D2dLink) (c : Ctl) : (Ctl.updLink n f c).serve = c.serve := rfl

/-! `Ctl.updEth` changes `eth`. -/

@[simp] theorem Ctl.updEth_rc (n : Nat) (f : EthPort → EthPort) (c : Ctl) : (Ctl.updEth n f c).rc = c.rc := rfl
@[simp] theorem Ctl.updEth_power (n : Nat) (f : EthPort → EthPort) (c : Ctl) : (Ctl.updEth n f c).power = c.power := rfl
@[simp] theorem Ctl.updEth_alarms (n : Nat) (f : EthPort → EthPort) (c : Ctl) : (Ctl.updEth n f c).alarms = c.alarms := rfl
@[simp] theorem Ctl.updEth_ready (n : Nat) (f : EthPort → EthPort) (c : Ctl) : (Ctl.updEth n f c).ready = c.ready := rfl
@[simp] theorem Ctl.updEth_fnA (n : Nat) (f : EthPort → EthPort) (c : Ctl) : (Ctl.updEth n f c).fnA = c.fnA := rfl
@[simp] theorem Ctl.updEth_fnB (n : Nat) (f : EthPort → EthPort) (c : Ctl) : (Ctl.updEth n f c).fnB = c.fnB := rfl
@[simp] theorem Ctl.updEth_pairs (n : Nat) (f : EthPort → EthPort) (c : Ctl) : (Ctl.updEth n f c).pairs = c.pairs := rfl
@[simp] theorem Ctl.updEth_jobs (n : Nat) (f : EthPort → EthPort) (c : Ctl) : (Ctl.updEth n f c).jobs = c.jobs := rfl
@[simp] theorem Ctl.updEth_tiles (n : Nat) (f : EthPort → EthPort) (c : Ctl) : (Ctl.updEth n f c).tiles = c.tiles := rfl
@[simp] theorem Ctl.updEth_stacks (n : Nat) (f : EthPort → EthPort) (c : Ctl) : (Ctl.updEth n f c).stackTab = c.stackTab := rfl
@[simp] theorem Ctl.updEth_chans (n : Nat) (f : EthPort → EthPort) (c : Ctl) : (Ctl.updEth n f c).chans = c.chans := rfl
@[simp] theorem Ctl.updEth_cqs (n : Nat) (f : EthPort → EthPort) (c : Ctl) : (Ctl.updEth n f c).cqs = c.cqs := rfl
@[simp] theorem Ctl.updEth_links (n : Nat) (f : EthPort → EthPort) (c : Ctl) : (Ctl.updEth n f c).links = c.links := rfl
@[simp] theorem Ctl.updEth_guest (n : Nat) (f : EthPort → EthPort) (c : Ctl) : (Ctl.updEth n f c).guest = c.guest := rfl
@[simp] theorem Ctl.updEth_router (n : Nat) (f : EthPort → EthPort) (c : Ctl) : (Ctl.updEth n f c).router = c.router := rfl
@[simp] theorem Ctl.updEth_fabric (n : Nat) (f : EthPort → EthPort) (c : Ctl) : (Ctl.updEth n f c).fabric = c.fabric := rfl
@[simp] theorem Ctl.updEth_optics (n : Nat) (f : EthPort → EthPort) (c : Ctl) : (Ctl.updEth n f c).optics = c.optics := rfl
@[simp] theorem Ctl.updEth_colls (n : Nat) (f : EthPort → EthPort) (c : Ctl) : (Ctl.updEth n f c).colls = c.colls := rfl
@[simp] theorem Ctl.updEth_serve (n : Nat) (f : EthPort → EthPort) (c : Ctl) : (Ctl.updEth n f c).serve = c.serve := rfl

/-! `Ctl.updFn` changes `fnA`, `fnB`. -/

@[simp] theorem Ctl.updFn_rc (n : Nat) (g : Fn → Fn) (c : Ctl) : (Ctl.updFn n g c).rc = c.rc := by
  unfold Ctl.updFn
  split <;> rfl
@[simp] theorem Ctl.updFn_power (n : Nat) (g : Fn → Fn) (c : Ctl) : (Ctl.updFn n g c).power = c.power := by
  unfold Ctl.updFn
  split <;> rfl
@[simp] theorem Ctl.updFn_alarms (n : Nat) (g : Fn → Fn) (c : Ctl) : (Ctl.updFn n g c).alarms = c.alarms := by
  unfold Ctl.updFn
  split <;> rfl
@[simp] theorem Ctl.updFn_ready (n : Nat) (g : Fn → Fn) (c : Ctl) : (Ctl.updFn n g c).ready = c.ready := by
  unfold Ctl.updFn
  split <;> rfl
@[simp] theorem Ctl.updFn_pairs (n : Nat) (g : Fn → Fn) (c : Ctl) : (Ctl.updFn n g c).pairs = c.pairs := by
  unfold Ctl.updFn
  split <;> rfl
@[simp] theorem Ctl.updFn_eth (n : Nat) (g : Fn → Fn) (c : Ctl) : (Ctl.updFn n g c).eth = c.eth := by
  unfold Ctl.updFn
  split <;> rfl
@[simp] theorem Ctl.updFn_jobs (n : Nat) (g : Fn → Fn) (c : Ctl) : (Ctl.updFn n g c).jobs = c.jobs := by
  unfold Ctl.updFn
  split <;> rfl
@[simp] theorem Ctl.updFn_tiles (n : Nat) (g : Fn → Fn) (c : Ctl) : (Ctl.updFn n g c).tiles = c.tiles := by
  unfold Ctl.updFn
  split <;> rfl
@[simp] theorem Ctl.updFn_stacks (n : Nat) (g : Fn → Fn) (c : Ctl) : (Ctl.updFn n g c).stackTab = c.stackTab := by
  unfold Ctl.updFn
  split <;> rfl
@[simp] theorem Ctl.updFn_chans (n : Nat) (g : Fn → Fn) (c : Ctl) : (Ctl.updFn n g c).chans = c.chans := by
  unfold Ctl.updFn
  split <;> rfl
@[simp] theorem Ctl.updFn_cqs (n : Nat) (g : Fn → Fn) (c : Ctl) : (Ctl.updFn n g c).cqs = c.cqs := by
  unfold Ctl.updFn
  split <;> rfl
@[simp] theorem Ctl.updFn_links (n : Nat) (g : Fn → Fn) (c : Ctl) : (Ctl.updFn n g c).links = c.links := by
  unfold Ctl.updFn
  split <;> rfl
@[simp] theorem Ctl.updFn_guest (n : Nat) (g : Fn → Fn) (c : Ctl) : (Ctl.updFn n g c).guest = c.guest := by
  unfold Ctl.updFn
  split <;> rfl
@[simp] theorem Ctl.updFn_router (n : Nat) (g : Fn → Fn) (c : Ctl) : (Ctl.updFn n g c).router = c.router := by
  unfold Ctl.updFn
  split <;> rfl
@[simp] theorem Ctl.updFn_fabric (n : Nat) (g : Fn → Fn) (c : Ctl) : (Ctl.updFn n g c).fabric = c.fabric := by
  unfold Ctl.updFn
  split <;> rfl
@[simp] theorem Ctl.updFn_optics (n : Nat) (g : Fn → Fn) (c : Ctl) : (Ctl.updFn n g c).optics = c.optics := by
  unfold Ctl.updFn
  split <;> rfl
@[simp] theorem Ctl.updFn_colls (n : Nat) (g : Fn → Fn) (c : Ctl) : (Ctl.updFn n g c).colls = c.colls := by
  unfold Ctl.updFn
  split <;> rfl
@[simp] theorem Ctl.updFn_serve (n : Nat) (g : Fn → Fn) (c : Ctl) : (Ctl.updFn n g c).serve = c.serve := by
  unfold Ctl.updFn
  split <;> rfl

/-! `Ctl.onRc` changes `rc`. -/

@[simp] theorem Ctl.onRc_power (f : Rc → Rc) (c : Ctl) : (Ctl.onRc f c).power = c.power := rfl
@[simp] theorem Ctl.onRc_alarms (f : Rc → Rc) (c : Ctl) : (Ctl.onRc f c).alarms = c.alarms := rfl
@[simp] theorem Ctl.onRc_ready (f : Rc → Rc) (c : Ctl) : (Ctl.onRc f c).ready = c.ready := rfl
@[simp] theorem Ctl.onRc_fnA (f : Rc → Rc) (c : Ctl) : (Ctl.onRc f c).fnA = c.fnA := rfl
@[simp] theorem Ctl.onRc_fnB (f : Rc → Rc) (c : Ctl) : (Ctl.onRc f c).fnB = c.fnB := rfl
@[simp] theorem Ctl.onRc_pairs (f : Rc → Rc) (c : Ctl) : (Ctl.onRc f c).pairs = c.pairs := rfl
@[simp] theorem Ctl.onRc_eth (f : Rc → Rc) (c : Ctl) : (Ctl.onRc f c).eth = c.eth := rfl
@[simp] theorem Ctl.onRc_jobs (f : Rc → Rc) (c : Ctl) : (Ctl.onRc f c).jobs = c.jobs := rfl
@[simp] theorem Ctl.onRc_tiles (f : Rc → Rc) (c : Ctl) : (Ctl.onRc f c).tiles = c.tiles := rfl
@[simp] theorem Ctl.onRc_stacks (f : Rc → Rc) (c : Ctl) : (Ctl.onRc f c).stackTab = c.stackTab := rfl
@[simp] theorem Ctl.onRc_chans (f : Rc → Rc) (c : Ctl) : (Ctl.onRc f c).chans = c.chans := rfl
@[simp] theorem Ctl.onRc_cqs (f : Rc → Rc) (c : Ctl) : (Ctl.onRc f c).cqs = c.cqs := rfl
@[simp] theorem Ctl.onRc_links (f : Rc → Rc) (c : Ctl) : (Ctl.onRc f c).links = c.links := rfl
@[simp] theorem Ctl.onRc_guest (f : Rc → Rc) (c : Ctl) : (Ctl.onRc f c).guest = c.guest := rfl
@[simp] theorem Ctl.onRc_router (f : Rc → Rc) (c : Ctl) : (Ctl.onRc f c).router = c.router := rfl
@[simp] theorem Ctl.onRc_fabric (f : Rc → Rc) (c : Ctl) : (Ctl.onRc f c).fabric = c.fabric := rfl
@[simp] theorem Ctl.onRc_optics (f : Rc → Rc) (c : Ctl) : (Ctl.onRc f c).optics = c.optics := rfl
@[simp] theorem Ctl.onRc_colls (f : Rc → Rc) (c : Ctl) : (Ctl.onRc f c).colls = c.colls := rfl
@[simp] theorem Ctl.onRc_serve (f : Rc → Rc) (c : Ctl) : (Ctl.onRc f c).serve = c.serve := rfl

/-! `Ctl.onPower` changes `power`. -/

@[simp] theorem Ctl.onPower_rc (f : Power → Power) (c : Ctl) : (Ctl.onPower f c).rc = c.rc := rfl
@[simp] theorem Ctl.onPower_alarms (f : Power → Power) (c : Ctl) : (Ctl.onPower f c).alarms = c.alarms := rfl
@[simp] theorem Ctl.onPower_ready (f : Power → Power) (c : Ctl) : (Ctl.onPower f c).ready = c.ready := rfl
@[simp] theorem Ctl.onPower_fnA (f : Power → Power) (c : Ctl) : (Ctl.onPower f c).fnA = c.fnA := rfl
@[simp] theorem Ctl.onPower_fnB (f : Power → Power) (c : Ctl) : (Ctl.onPower f c).fnB = c.fnB := rfl
@[simp] theorem Ctl.onPower_pairs (f : Power → Power) (c : Ctl) : (Ctl.onPower f c).pairs = c.pairs := rfl
@[simp] theorem Ctl.onPower_eth (f : Power → Power) (c : Ctl) : (Ctl.onPower f c).eth = c.eth := rfl
@[simp] theorem Ctl.onPower_jobs (f : Power → Power) (c : Ctl) : (Ctl.onPower f c).jobs = c.jobs := rfl
@[simp] theorem Ctl.onPower_tiles (f : Power → Power) (c : Ctl) : (Ctl.onPower f c).tiles = c.tiles := rfl
@[simp] theorem Ctl.onPower_stacks (f : Power → Power) (c : Ctl) : (Ctl.onPower f c).stackTab = c.stackTab := rfl
@[simp] theorem Ctl.onPower_chans (f : Power → Power) (c : Ctl) : (Ctl.onPower f c).chans = c.chans := rfl
@[simp] theorem Ctl.onPower_cqs (f : Power → Power) (c : Ctl) : (Ctl.onPower f c).cqs = c.cqs := rfl
@[simp] theorem Ctl.onPower_links (f : Power → Power) (c : Ctl) : (Ctl.onPower f c).links = c.links := rfl
@[simp] theorem Ctl.onPower_guest (f : Power → Power) (c : Ctl) : (Ctl.onPower f c).guest = c.guest := rfl
@[simp] theorem Ctl.onPower_router (f : Power → Power) (c : Ctl) : (Ctl.onPower f c).router = c.router := rfl
@[simp] theorem Ctl.onPower_fabric (f : Power → Power) (c : Ctl) : (Ctl.onPower f c).fabric = c.fabric := rfl
@[simp] theorem Ctl.onPower_optics (f : Power → Power) (c : Ctl) : (Ctl.onPower f c).optics = c.optics := rfl
@[simp] theorem Ctl.onPower_colls (f : Power → Power) (c : Ctl) : (Ctl.onPower f c).colls = c.colls := rfl
@[simp] theorem Ctl.onPower_serve (f : Power → Power) (c : Ctl) : (Ctl.onPower f c).serve = c.serve := rfl

/-! `Ctl.onAlarms` changes `alarms`. -/

@[simp] theorem Ctl.onAlarms_rc (f : Alarms → Alarms) (c : Ctl) : (Ctl.onAlarms f c).rc = c.rc := rfl
@[simp] theorem Ctl.onAlarms_power (f : Alarms → Alarms) (c : Ctl) : (Ctl.onAlarms f c).power = c.power := rfl
@[simp] theorem Ctl.onAlarms_ready (f : Alarms → Alarms) (c : Ctl) : (Ctl.onAlarms f c).ready = c.ready := rfl
@[simp] theorem Ctl.onAlarms_fnA (f : Alarms → Alarms) (c : Ctl) : (Ctl.onAlarms f c).fnA = c.fnA := rfl
@[simp] theorem Ctl.onAlarms_fnB (f : Alarms → Alarms) (c : Ctl) : (Ctl.onAlarms f c).fnB = c.fnB := rfl
@[simp] theorem Ctl.onAlarms_pairs (f : Alarms → Alarms) (c : Ctl) : (Ctl.onAlarms f c).pairs = c.pairs := rfl
@[simp] theorem Ctl.onAlarms_eth (f : Alarms → Alarms) (c : Ctl) : (Ctl.onAlarms f c).eth = c.eth := rfl
@[simp] theorem Ctl.onAlarms_jobs (f : Alarms → Alarms) (c : Ctl) : (Ctl.onAlarms f c).jobs = c.jobs := rfl
@[simp] theorem Ctl.onAlarms_tiles (f : Alarms → Alarms) (c : Ctl) : (Ctl.onAlarms f c).tiles = c.tiles := rfl
@[simp] theorem Ctl.onAlarms_stacks (f : Alarms → Alarms) (c : Ctl) : (Ctl.onAlarms f c).stackTab = c.stackTab := rfl
@[simp] theorem Ctl.onAlarms_chans (f : Alarms → Alarms) (c : Ctl) : (Ctl.onAlarms f c).chans = c.chans := rfl
@[simp] theorem Ctl.onAlarms_cqs (f : Alarms → Alarms) (c : Ctl) : (Ctl.onAlarms f c).cqs = c.cqs := rfl
@[simp] theorem Ctl.onAlarms_links (f : Alarms → Alarms) (c : Ctl) : (Ctl.onAlarms f c).links = c.links := rfl
@[simp] theorem Ctl.onAlarms_guest (f : Alarms → Alarms) (c : Ctl) : (Ctl.onAlarms f c).guest = c.guest := rfl
@[simp] theorem Ctl.onAlarms_router (f : Alarms → Alarms) (c : Ctl) : (Ctl.onAlarms f c).router = c.router := rfl
@[simp] theorem Ctl.onAlarms_fabric (f : Alarms → Alarms) (c : Ctl) : (Ctl.onAlarms f c).fabric = c.fabric := rfl
@[simp] theorem Ctl.onAlarms_optics (f : Alarms → Alarms) (c : Ctl) : (Ctl.onAlarms f c).optics = c.optics := rfl
@[simp] theorem Ctl.onAlarms_colls (f : Alarms → Alarms) (c : Ctl) : (Ctl.onAlarms f c).colls = c.colls := rfl
@[simp] theorem Ctl.onAlarms_serve (f : Alarms → Alarms) (c : Ctl) : (Ctl.onAlarms f c).serve = c.serve := rfl

/-! `Ctl.onFabric` changes `fabric`. -/

@[simp] theorem Ctl.onFabric_rc (f : Fabric → Fabric) (c : Ctl) : (Ctl.onFabric f c).rc = c.rc := rfl
@[simp] theorem Ctl.onFabric_power (f : Fabric → Fabric) (c : Ctl) : (Ctl.onFabric f c).power = c.power := rfl
@[simp] theorem Ctl.onFabric_alarms (f : Fabric → Fabric) (c : Ctl) : (Ctl.onFabric f c).alarms = c.alarms := rfl
@[simp] theorem Ctl.onFabric_ready (f : Fabric → Fabric) (c : Ctl) : (Ctl.onFabric f c).ready = c.ready := rfl
@[simp] theorem Ctl.onFabric_fnA (f : Fabric → Fabric) (c : Ctl) : (Ctl.onFabric f c).fnA = c.fnA := rfl
@[simp] theorem Ctl.onFabric_fnB (f : Fabric → Fabric) (c : Ctl) : (Ctl.onFabric f c).fnB = c.fnB := rfl
@[simp] theorem Ctl.onFabric_pairs (f : Fabric → Fabric) (c : Ctl) : (Ctl.onFabric f c).pairs = c.pairs := rfl
@[simp] theorem Ctl.onFabric_eth (f : Fabric → Fabric) (c : Ctl) : (Ctl.onFabric f c).eth = c.eth := rfl
@[simp] theorem Ctl.onFabric_jobs (f : Fabric → Fabric) (c : Ctl) : (Ctl.onFabric f c).jobs = c.jobs := rfl
@[simp] theorem Ctl.onFabric_tiles (f : Fabric → Fabric) (c : Ctl) : (Ctl.onFabric f c).tiles = c.tiles := rfl
@[simp] theorem Ctl.onFabric_stacks (f : Fabric → Fabric) (c : Ctl) : (Ctl.onFabric f c).stackTab = c.stackTab := rfl
@[simp] theorem Ctl.onFabric_chans (f : Fabric → Fabric) (c : Ctl) : (Ctl.onFabric f c).chans = c.chans := rfl
@[simp] theorem Ctl.onFabric_cqs (f : Fabric → Fabric) (c : Ctl) : (Ctl.onFabric f c).cqs = c.cqs := rfl
@[simp] theorem Ctl.onFabric_links (f : Fabric → Fabric) (c : Ctl) : (Ctl.onFabric f c).links = c.links := rfl
@[simp] theorem Ctl.onFabric_guest (f : Fabric → Fabric) (c : Ctl) : (Ctl.onFabric f c).guest = c.guest := rfl
@[simp] theorem Ctl.onFabric_router (f : Fabric → Fabric) (c : Ctl) : (Ctl.onFabric f c).router = c.router := rfl
@[simp] theorem Ctl.onFabric_optics (f : Fabric → Fabric) (c : Ctl) : (Ctl.onFabric f c).optics = c.optics := rfl
@[simp] theorem Ctl.onFabric_colls (f : Fabric → Fabric) (c : Ctl) : (Ctl.onFabric f c).colls = c.colls := rfl
@[simp] theorem Ctl.onFabric_serve (f : Fabric → Fabric) (c : Ctl) : (Ctl.onFabric f c).serve = c.serve := rfl

/-! `Ctl.onRouter` changes `router`. -/

@[simp] theorem Ctl.onRouter_rc (f : Router → Router) (c : Ctl) : (Ctl.onRouter f c).rc = c.rc := rfl
@[simp] theorem Ctl.onRouter_power (f : Router → Router) (c : Ctl) : (Ctl.onRouter f c).power = c.power := rfl
@[simp] theorem Ctl.onRouter_alarms (f : Router → Router) (c : Ctl) : (Ctl.onRouter f c).alarms = c.alarms := rfl
@[simp] theorem Ctl.onRouter_ready (f : Router → Router) (c : Ctl) : (Ctl.onRouter f c).ready = c.ready := rfl
@[simp] theorem Ctl.onRouter_fnA (f : Router → Router) (c : Ctl) : (Ctl.onRouter f c).fnA = c.fnA := rfl
@[simp] theorem Ctl.onRouter_fnB (f : Router → Router) (c : Ctl) : (Ctl.onRouter f c).fnB = c.fnB := rfl
@[simp] theorem Ctl.onRouter_pairs (f : Router → Router) (c : Ctl) : (Ctl.onRouter f c).pairs = c.pairs := rfl
@[simp] theorem Ctl.onRouter_eth (f : Router → Router) (c : Ctl) : (Ctl.onRouter f c).eth = c.eth := rfl
@[simp] theorem Ctl.onRouter_jobs (f : Router → Router) (c : Ctl) : (Ctl.onRouter f c).jobs = c.jobs := rfl
@[simp] theorem Ctl.onRouter_tiles (f : Router → Router) (c : Ctl) : (Ctl.onRouter f c).tiles = c.tiles := rfl
@[simp] theorem Ctl.onRouter_stacks (f : Router → Router) (c : Ctl) : (Ctl.onRouter f c).stackTab = c.stackTab := rfl
@[simp] theorem Ctl.onRouter_chans (f : Router → Router) (c : Ctl) : (Ctl.onRouter f c).chans = c.chans := rfl
@[simp] theorem Ctl.onRouter_cqs (f : Router → Router) (c : Ctl) : (Ctl.onRouter f c).cqs = c.cqs := rfl
@[simp] theorem Ctl.onRouter_links (f : Router → Router) (c : Ctl) : (Ctl.onRouter f c).links = c.links := rfl
@[simp] theorem Ctl.onRouter_guest (f : Router → Router) (c : Ctl) : (Ctl.onRouter f c).guest = c.guest := rfl
@[simp] theorem Ctl.onRouter_fabric (f : Router → Router) (c : Ctl) : (Ctl.onRouter f c).fabric = c.fabric := rfl
@[simp] theorem Ctl.onRouter_optics (f : Router → Router) (c : Ctl) : (Ctl.onRouter f c).optics = c.optics := rfl
@[simp] theorem Ctl.onRouter_colls (f : Router → Router) (c : Ctl) : (Ctl.onRouter f c).colls = c.colls := rfl
@[simp] theorem Ctl.onRouter_serve (f : Router → Router) (c : Ctl) : (Ctl.onRouter f c).serve = c.serve := rfl

/-! `Ctl.onColls` changes `colls`. -/

@[simp] theorem Ctl.onColls_rc (f : Colls → Colls) (c : Ctl) : (Ctl.onColls f c).rc = c.rc := rfl
@[simp] theorem Ctl.onColls_power (f : Colls → Colls) (c : Ctl) : (Ctl.onColls f c).power = c.power := rfl
@[simp] theorem Ctl.onColls_alarms (f : Colls → Colls) (c : Ctl) : (Ctl.onColls f c).alarms = c.alarms := rfl
@[simp] theorem Ctl.onColls_ready (f : Colls → Colls) (c : Ctl) : (Ctl.onColls f c).ready = c.ready := rfl
@[simp] theorem Ctl.onColls_fnA (f : Colls → Colls) (c : Ctl) : (Ctl.onColls f c).fnA = c.fnA := rfl
@[simp] theorem Ctl.onColls_fnB (f : Colls → Colls) (c : Ctl) : (Ctl.onColls f c).fnB = c.fnB := rfl
@[simp] theorem Ctl.onColls_pairs (f : Colls → Colls) (c : Ctl) : (Ctl.onColls f c).pairs = c.pairs := rfl
@[simp] theorem Ctl.onColls_eth (f : Colls → Colls) (c : Ctl) : (Ctl.onColls f c).eth = c.eth := rfl
@[simp] theorem Ctl.onColls_jobs (f : Colls → Colls) (c : Ctl) : (Ctl.onColls f c).jobs = c.jobs := rfl
@[simp] theorem Ctl.onColls_tiles (f : Colls → Colls) (c : Ctl) : (Ctl.onColls f c).tiles = c.tiles := rfl
@[simp] theorem Ctl.onColls_stacks (f : Colls → Colls) (c : Ctl) : (Ctl.onColls f c).stackTab = c.stackTab := rfl
@[simp] theorem Ctl.onColls_chans (f : Colls → Colls) (c : Ctl) : (Ctl.onColls f c).chans = c.chans := rfl
@[simp] theorem Ctl.onColls_cqs (f : Colls → Colls) (c : Ctl) : (Ctl.onColls f c).cqs = c.cqs := rfl
@[simp] theorem Ctl.onColls_links (f : Colls → Colls) (c : Ctl) : (Ctl.onColls f c).links = c.links := rfl
@[simp] theorem Ctl.onColls_guest (f : Colls → Colls) (c : Ctl) : (Ctl.onColls f c).guest = c.guest := rfl
@[simp] theorem Ctl.onColls_router (f : Colls → Colls) (c : Ctl) : (Ctl.onColls f c).router = c.router := rfl
@[simp] theorem Ctl.onColls_fabric (f : Colls → Colls) (c : Ctl) : (Ctl.onColls f c).fabric = c.fabric := rfl
@[simp] theorem Ctl.onColls_optics (f : Colls → Colls) (c : Ctl) : (Ctl.onColls f c).optics = c.optics := rfl
@[simp] theorem Ctl.onColls_serve (f : Colls → Colls) (c : Ctl) : (Ctl.onColls f c).serve = c.serve := rfl

/-! `Ctl.onServe` changes `serve`. -/

@[simp] theorem Ctl.onServe_rc (f : Serve → Serve) (c : Ctl) : (Ctl.onServe f c).rc = c.rc := rfl
@[simp] theorem Ctl.onServe_power (f : Serve → Serve) (c : Ctl) : (Ctl.onServe f c).power = c.power := rfl
@[simp] theorem Ctl.onServe_alarms (f : Serve → Serve) (c : Ctl) : (Ctl.onServe f c).alarms = c.alarms := rfl
@[simp] theorem Ctl.onServe_ready (f : Serve → Serve) (c : Ctl) : (Ctl.onServe f c).ready = c.ready := rfl
@[simp] theorem Ctl.onServe_fnA (f : Serve → Serve) (c : Ctl) : (Ctl.onServe f c).fnA = c.fnA := rfl
@[simp] theorem Ctl.onServe_fnB (f : Serve → Serve) (c : Ctl) : (Ctl.onServe f c).fnB = c.fnB := rfl
@[simp] theorem Ctl.onServe_pairs (f : Serve → Serve) (c : Ctl) : (Ctl.onServe f c).pairs = c.pairs := rfl
@[simp] theorem Ctl.onServe_eth (f : Serve → Serve) (c : Ctl) : (Ctl.onServe f c).eth = c.eth := rfl
@[simp] theorem Ctl.onServe_jobs (f : Serve → Serve) (c : Ctl) : (Ctl.onServe f c).jobs = c.jobs := rfl
@[simp] theorem Ctl.onServe_tiles (f : Serve → Serve) (c : Ctl) : (Ctl.onServe f c).tiles = c.tiles := rfl
@[simp] theorem Ctl.onServe_stacks (f : Serve → Serve) (c : Ctl) : (Ctl.onServe f c).stackTab = c.stackTab := rfl
@[simp] theorem Ctl.onServe_chans (f : Serve → Serve) (c : Ctl) : (Ctl.onServe f c).chans = c.chans := rfl
@[simp] theorem Ctl.onServe_cqs (f : Serve → Serve) (c : Ctl) : (Ctl.onServe f c).cqs = c.cqs := rfl
@[simp] theorem Ctl.onServe_links (f : Serve → Serve) (c : Ctl) : (Ctl.onServe f c).links = c.links := rfl
@[simp] theorem Ctl.onServe_guest (f : Serve → Serve) (c : Ctl) : (Ctl.onServe f c).guest = c.guest := rfl
@[simp] theorem Ctl.onServe_router (f : Serve → Serve) (c : Ctl) : (Ctl.onServe f c).router = c.router := rfl
@[simp] theorem Ctl.onServe_fabric (f : Serve → Serve) (c : Ctl) : (Ctl.onServe f c).fabric = c.fabric := rfl
@[simp] theorem Ctl.onServe_optics (f : Serve → Serve) (c : Ctl) : (Ctl.onServe f c).optics = c.optics := rfl
@[simp] theorem Ctl.onServe_colls (f : Serve → Serve) (c : Ctl) : (Ctl.onServe f c).colls = c.colls := rfl

/-! `Ctl.intBoth` changes `fnA`, `fnB`. -/

@[simp] theorem Ctl.intBoth_rc (b : Nat) (c : Ctl) : (Ctl.intBoth b c).rc = c.rc := rfl
@[simp] theorem Ctl.intBoth_power (b : Nat) (c : Ctl) : (Ctl.intBoth b c).power = c.power := rfl
@[simp] theorem Ctl.intBoth_alarms (b : Nat) (c : Ctl) : (Ctl.intBoth b c).alarms = c.alarms := rfl
@[simp] theorem Ctl.intBoth_ready (b : Nat) (c : Ctl) : (Ctl.intBoth b c).ready = c.ready := rfl
@[simp] theorem Ctl.intBoth_pairs (b : Nat) (c : Ctl) : (Ctl.intBoth b c).pairs = c.pairs := rfl
@[simp] theorem Ctl.intBoth_eth (b : Nat) (c : Ctl) : (Ctl.intBoth b c).eth = c.eth := rfl
@[simp] theorem Ctl.intBoth_jobs (b : Nat) (c : Ctl) : (Ctl.intBoth b c).jobs = c.jobs := rfl
@[simp] theorem Ctl.intBoth_tiles (b : Nat) (c : Ctl) : (Ctl.intBoth b c).tiles = c.tiles := rfl
@[simp] theorem Ctl.intBoth_stacks (b : Nat) (c : Ctl) : (Ctl.intBoth b c).stackTab = c.stackTab := rfl
@[simp] theorem Ctl.intBoth_chans (b : Nat) (c : Ctl) : (Ctl.intBoth b c).chans = c.chans := rfl
@[simp] theorem Ctl.intBoth_cqs (b : Nat) (c : Ctl) : (Ctl.intBoth b c).cqs = c.cqs := rfl
@[simp] theorem Ctl.intBoth_links (b : Nat) (c : Ctl) : (Ctl.intBoth b c).links = c.links := rfl
@[simp] theorem Ctl.intBoth_guest (b : Nat) (c : Ctl) : (Ctl.intBoth b c).guest = c.guest := rfl
@[simp] theorem Ctl.intBoth_router (b : Nat) (c : Ctl) : (Ctl.intBoth b c).router = c.router := rfl
@[simp] theorem Ctl.intBoth_fabric (b : Nat) (c : Ctl) : (Ctl.intBoth b c).fabric = c.fabric := rfl
@[simp] theorem Ctl.intBoth_optics (b : Nat) (c : Ctl) : (Ctl.intBoth b c).optics = c.optics := rfl
@[simp] theorem Ctl.intBoth_colls (b : Nat) (c : Ctl) : (Ctl.intBoth b c).colls = c.colls := rfl
@[simp] theorem Ctl.intBoth_serve (b : Nat) (c : Ctl) : (Ctl.intBoth b c).serve = c.serve := rfl

/-! What the update of a whole part leaves in it. -/

@[simp] theorem Ctl.onRc_same (f : Rc → Rc) (c : Ctl) : (Ctl.onRc f c).rc = f c.rc := rfl
@[simp] theorem Ctl.onPower_same (f : Power → Power) (c : Ctl) : (Ctl.onPower f c).power = f c.power := rfl
@[simp] theorem Ctl.onAlarms_same (f : Alarms → Alarms) (c : Ctl) : (Ctl.onAlarms f c).alarms = f c.alarms := rfl
@[simp] theorem Ctl.onFabric_same (f : Fabric → Fabric) (c : Ctl) : (Ctl.onFabric f c).fabric = f c.fabric := rfl
@[simp] theorem Ctl.onRouter_same (f : Router → Router) (c : Ctl) : (Ctl.onRouter f c).router = f c.router := rfl
@[simp] theorem Ctl.onColls_same (f : Colls → Colls) (c : Ctl) : (Ctl.onColls f c).colls = f c.colls := rfl
@[simp] theorem Ctl.onServe_same (f : Serve → Serve) (c : Ctl) : (Ctl.onServe f c).serve = f c.serve := rfl
@[simp] theorem Ctl.updFn_fnA (g : Fn → Fn) (c : Ctl) : (Ctl.updFn 0 g c).fnA = g c.fnA := rfl
@[simp] theorem Ctl.updFn_fnB (g : Fn → Fn) (c : Ctl) : (Ctl.updFn 1 g c).fnB = g c.fnB := rfl

/-! The module's state under a command. -/

@[simp] theorem State.act_tally (s : State) (f : W → W) : (s.act f).tally = s.tally := rfl
@[simp] theorem State.act_pending (s : State) (f : W → W) : (s.act f).pending = s.pending := rfl
@[simp] theorem W.on_c (f : Ctl → Ctl) (w : W) : (w.on f).c = f w.c := rfl
@[simp] theorem W.on_b (f : Ctl → Ctl) (w : W) : (w.on f).b = w.b := rfl
@[simp] theorem W.on_ty (f : Ctl → Ctl) (w : W) : (w.on f).ty = w.ty := rfl

end Sys2Proof.Machine
end

