-- ==== Sys2Proof/Laws/Tab.lean ====
section
/-! SUPPORT. Keyed tables: a read after an update. -/

namespace Sys2Proof.Tab

variable {α : Type}

@[simp] theorem get?_set_same (k : Nat) (v : α) (t : Tab α) : get? k (set k v t) = some v := by
  induction t with
  | nil => simp [set, get?]
  | cons p t ih =>
    obtain ⟨j, a⟩ := p
    unfold set
    split
    · simp [get?]
    · split
      · simp [get?]
      · rename_i h; simp [get?, h, ih]

theorem get?_set_other {j k : Nat} (v : α) (t : Tab α) (h : j ≠ k) : get? j (set k v t) = get? j t := by
  induction t with
  | nil => simp [set, get?, h]
  | cons p t ih =>
    obtain ⟨i, a⟩ := p
    unfold set
    split
    · simp [get?, h]
    · split
      · rename_i h1 h2; subst h2; simp [get?, h]
      · simp [get?, ih]

theorem get?_del_same (k : Nat) (t : Tab α) : get? k (del k t) = none := by
  induction t with
  | nil => rfl
  | cons p t ih =>
    obtain ⟨j, a⟩ := p
    unfold del at *
    by_cases h : j = k
    · simp [h, ih]
    · simp [h, get?, Ne.symm h, ih]

theorem get?_del_other {j k : Nat} (t : Tab α) (h : j ≠ k) : get? j (del k t) = get? j t := by
  induction t with
  | nil => rfl
  | cons p t ih =>
    obtain ⟨i, a⟩ := p
    unfold del at *
    by_cases hi : i = k
    · subst hi; simp [get?, h, ih]
    · simp [hi, get?, ih]

@[simp] theorem getD_set_same (k : Nat) (v d : α) (t : Tab α) : getD (set k v t) k d = v := by simp [getD]

theorem getD_set_other {j k : Nat} (v d : α) (t : Tab α) (h : j ≠ k) : getD (set k v t) j d = getD t j d := by
  simp [getD, get?_set_other v t h]

@[simp] theorem has_set_same (k : Nat) (v : α) (t : Tab α) : has (set k v t) k = true := by simp [has]

@[simp] theorem get?_upd_same (k : Nat) (d : α) (f : α → α) (t : Tab α) : get? k (upd k d f t) = some (f (getD t k d)) := by
  simp [upd]

theorem get?_upd_other {j k : Nat} (d : α) (f : α → α) (t : Tab α) (h : j ≠ k) : get? j (upd k d f t) = get? j t := by
  simp [upd, get?_set_other _ t h]

@[simp] theorem getD_upd_same (k : Nat) (d e : α) (f : α → α) (t : Tab α) : getD (upd k d f t) k e = f (getD t k d) := by
  simp [upd]

theorem getD_upd_other {j k : Nat} (d e : α) (f : α → α) (t : Tab α) (h : j ≠ k) :
    getD (upd k d f t) j e = getD t j e := by
  simp [upd, getD_set_other _ e t h]

end Sys2Proof.Tab
end

