-- ==== Sys2Proof/Laws/Ops.lean ====
section
/-! SUPPORT. What the shared operations leave unchanged, what a message on a ring is, and when nothing follows from a
change. -/

namespace Sys2Proof.Machine

/-- A fold whose every step keeps a part of its value keeps it. -/
theorem foldl_keeps {α β γ : Type} (g : α → γ) {f : α → β → α} (hf : ∀ a b, g (f a b) = g a) (l : List β) (a : α) :
    g (l.foldl f a) = g a := by
  induction l generalizing a with
  | nil => rfl
  | cons b t ih => rw [List.foldl_cons, ih, hf]

/-! `Ctl.ethSend` changes at most `eth`. -/

@[simp] theorem Ctl.ethSend_rc (p a u : Nat) (b : List Byte) (c : Ctl) : (Ctl.ethSend p a u b c).rc = c.rc := by
  unfold Ctl.ethSend
  try dsimp only
  (repeat' split) <;> simp
@[simp] theorem Ctl.ethSend_power (p a u : Nat) (b : List Byte) (c : Ctl) : (Ctl.ethSend p a u b c).power = c.power := by
  unfold Ctl.ethSend
  try dsimp only
  (repeat' split) <;> simp
@[simp] theorem Ctl.ethSend_alarms (p a u : Nat) (b : List Byte) (c : Ctl) : (Ctl.ethSend p a u b c).alarms = c.alarms := by
  unfold Ctl.ethSend
  try dsimp only
  (repeat' split) <;> simp
@[simp] theorem Ctl.ethSend_ready (p a u : Nat) (b : List Byte) (c : Ctl) : (Ctl.ethSend p a u b c).ready = c.ready := by
  unfold Ctl.ethSend
  try dsimp only
  (repeat' split) <;> simp
@[simp] theorem Ctl.ethSend_fnA (p a u : Nat) (b : List Byte) (c : Ctl) : (Ctl.ethSend p a u b c).fnA = c.fnA := by
  unfold Ctl.ethSend
  try dsimp only
  (repeat' split) <;> simp
@[simp] theorem Ctl.ethSend_fnB (p a u : Nat) (b : List Byte) (c : Ctl) : (Ctl.ethSend p a u b c).fnB = c.fnB := by
  unfold Ctl.ethSend
  try dsimp only
  (repeat' split) <;> simp
@[simp] theorem Ctl.ethSend_pairs (p a u : Nat) (b : List Byte) (c : Ctl) : (Ctl.ethSend p a u b c).pairs = c.pairs := by
  unfold Ctl.ethSend
  try dsimp only
  (repeat' split) <;> simp
@[simp] theorem Ctl.ethSend_jobs (p a u : Nat) (b : List Byte) (c : Ctl) : (Ctl.ethSend p a u b c).jobs = c.jobs := by
  unfold Ctl.ethSend
  try dsimp only
  (repeat' split) <;> simp
@[simp] theorem Ctl.ethSend_tiles (p a u : Nat) (b : List Byte) (c : Ctl) : (Ctl.ethSend p a u b c).tiles = c.tiles := by
  unfold Ctl.ethSend
  try dsimp only
  (repeat' split) <;> simp
@[simp] theorem Ctl.ethSend_stacks (p a u : Nat) (b : List Byte) (c : Ctl) : (Ctl.ethSend p a u b c).stackTab = c.stackTab := by
  unfold Ctl.ethSend
  try dsimp only
  (repeat' split) <;> simp
@[simp] theorem Ctl.ethSend_chans (p a u : Nat) (b : List Byte) (c : Ctl) : (Ctl.ethSend p a u b c).chans = c.chans := by
  unfold Ctl.ethSend
  try dsimp only
  (repeat' split) <;> simp
@[simp] theorem Ctl.ethSend_cqs (p a u : Nat) (b : List Byte) (c : Ctl) : (Ctl.ethSend p a u b c).cqs = c.cqs := by
  unfold Ctl.ethSend
  try dsimp only
  (repeat' split) <;> simp
@[simp] theorem Ctl.ethSend_links (p a u : Nat) (b : List Byte) (c : Ctl) : (Ctl.ethSend p a u b c).links = c.links := by
  unfold Ctl.ethSend
  try dsimp only
  (repeat' split) <;> simp
@[simp] theorem Ctl.ethSend_guest (p a u : Nat) (b : List Byte) (c : Ctl) : (Ctl.ethSend p a u b c).guest = c.guest := by
  unfold Ctl.ethSend
  try dsimp only
  (repeat' split) <;> simp
@[simp] theorem Ctl.ethSend_router (p a u : Nat) (b : List Byte) (c : Ctl) : (Ctl.ethSend p a u b c).router = c.router := by
  unfold Ctl.ethSend
  try dsimp only
  (repeat' split) <;> simp
@[simp] theorem Ctl.ethSend_fabric (p a u : Nat) (b : List Byte) (c : Ctl) : (Ctl.ethSend p a u b c).fabric = c.fabric := by
  unfold Ctl.ethSend
  try dsimp only
  (repeat' split) <;> simp
@[simp] theorem Ctl.ethSend_optics (p a u : Nat) (b : List Byte) (c : Ctl) : (Ctl.ethSend p a u b c).optics = c.optics := by
  unfold Ctl.ethSend
  try dsimp only
  (repeat' split) <;> simp
@[simp] theorem Ctl.ethSend_colls (p a u : Nat) (b : List Byte) (c : Ctl) : (Ctl.ethSend p a u b c).colls = c.colls := by
  unfold Ctl.ethSend
  try dsimp only
  (repeat' split) <;> simp
@[simp] theorem Ctl.ethSend_serve (p a u : Nat) (b : List Byte) (c : Ctl) : (Ctl.ethSend p a u b c).serve = c.serve := by
  unfold Ctl.ethSend
  try dsimp only
  (repeat' split) <;> simp

/-! `Ctl.remoteSend` changes at most `pairs`, `eth`. -/

@[simp] theorem Ctl.remoteSend_rc (n t a : Nat) (u : List Byte) (c : Ctl) : (Ctl.remoteSend n t a u c).rc = c.rc := by
  unfold Ctl.remoteSend
  try dsimp only
  (repeat' split) <;> simp
@[simp] theorem Ctl.remoteSend_power (n t a : Nat) (u : List Byte) (c : Ctl) : (Ctl.remoteSend n t a u c).power = c.power := by
  unfold Ctl.remoteSend
  try dsimp only
  (repeat' split) <;> simp
@[simp] theorem Ctl.remoteSend_alarms (n t a : Nat) (u : List Byte) (c : Ctl) : (Ctl.remoteSend n t a u c).alarms = c.alarms := by
  unfold Ctl.remoteSend
  try dsimp only
  (repeat' split) <;> simp
@[simp] theorem Ctl.remoteSend_ready (n t a : Nat) (u : List Byte) (c : Ctl) : (Ctl.remoteSend n t a u c).ready = c.ready := by
  unfold Ctl.remoteSend
  try dsimp only
  (repeat' split) <;> simp
@[simp] theorem Ctl.remoteSend_fnA (n t a : Nat) (u : List Byte) (c : Ctl) : (Ctl.remoteSend n t a u c).fnA = c.fnA := by
  unfold Ctl.remoteSend
  try dsimp only
  (repeat' split) <;> simp
@[simp] theorem Ctl.remoteSend_fnB (n t a : Nat) (u : List Byte) (c : Ctl) : (Ctl.remoteSend n t a u c).fnB = c.fnB := by
  unfold Ctl.remoteSend
  try dsimp only
  (repeat' split) <;> simp
@[simp] theorem Ctl.remoteSend_jobs (n t a : Nat) (u : List Byte) (c : Ctl) : (Ctl.remoteSend n t a u c).jobs = c.jobs := by
  unfold Ctl.remoteSend
  try dsimp only
  (repeat' split) <;> simp
@[simp] theorem Ctl.remoteSend_tiles (n t a : Nat) (u : List Byte) (c : Ctl) : (Ctl.remoteSend n t a u c).tiles = c.tiles := by
  unfold Ctl.remoteSend
  try dsimp only
  (repeat' split) <;> simp
@[simp] theorem Ctl.remoteSend_stacks (n t a : Nat) (u : List Byte) (c : Ctl) : (Ctl.remoteSend n t a u c).stackTab = c.stackTab := by
  unfold Ctl.remoteSend
  try dsimp only
  (repeat' split) <;> simp
@[simp] theorem Ctl.remoteSend_chans (n t a : Nat) (u : List Byte) (c : Ctl) : (Ctl.remoteSend n t a u c).chans = c.chans := by
  unfold Ctl.remoteSend
  try dsimp only
  (repeat' split) <;> simp
@[simp] theorem Ctl.remoteSend_cqs (n t a : Nat) (u : List Byte) (c : Ctl) : (Ctl.remoteSend n t a u c).cqs = c.cqs := by
  unfold Ctl.remoteSend
  try dsimp only
  (repeat' split) <;> simp
@[simp] theorem Ctl.remoteSend_links (n t a : Nat) (u : List Byte) (c : Ctl) : (Ctl.remoteSend n t a u c).links = c.links := by
  unfold Ctl.remoteSend
  try dsimp only
  (repeat' split) <;> simp
@[simp] theorem Ctl.remoteSend_guest (n t a : Nat) (u : List Byte) (c : Ctl) : (Ctl.remoteSend n t a u c).guest = c.guest := by
  unfold Ctl.remoteSend
  try dsimp only
  (repeat' split) <;> simp
@[simp] theorem Ctl.remoteSend_router (n t a : Nat) (u : List Byte) (c : Ctl) : (Ctl.remoteSend n t a u c).router = c.router := by
  unfold Ctl.remoteSend
  try dsimp only
  (repeat' split) <;> simp
@[simp] theorem Ctl.remoteSend_fabric (n t a : Nat) (u : List Byte) (c : Ctl) : (Ctl.remoteSend n t a u c).fabric = c.fabric := by
  unfold Ctl.remoteSend
  try dsimp only
  (repeat' split) <;> simp
@[simp] theorem Ctl.remoteSend_optics (n t a : Nat) (u : List Byte) (c : Ctl) : (Ctl.remoteSend n t a u c).optics = c.optics := by
  unfold Ctl.remoteSend
  try dsimp only
  (repeat' split) <;> simp
@[simp] theorem Ctl.remoteSend_colls (n t a : Nat) (u : List Byte) (c : Ctl) : (Ctl.remoteSend n t a u c).colls = c.colls := by
  unfold Ctl.remoteSend
  try dsimp only
  (repeat' split) <;> simp
@[simp] theorem Ctl.remoteSend_serve (n t a : Nat) (u : List Byte) (c : Ctl) : (Ctl.remoteSend n t a u c).serve = c.serve := by
  unfold Ctl.remoteSend
  try dsimp only
  (repeat' split) <;> simp

/-! `Ctl.evtToRing` changes at most `pairs`, `fnA`, `fnB`. -/

@[simp] theorem Ctl.evtToRing_rc (n : Nat) (m : Msg) (c : Ctl) : (Ctl.evtToRing n m c).rc = c.rc := by
  unfold Ctl.evtToRing
  try dsimp only
  (repeat' split) <;> simp
@[simp] theorem Ctl.evtToRing_power (n : Nat) (m : Msg) (c : Ctl) : (Ctl.evtToRing n m c).power = c.power := by
  unfold Ctl.evtToRing
  try dsimp only
  (repeat' split) <;> simp
@[simp] theorem Ctl.evtToRing_alarms (n : Nat) (m : Msg) (c : Ctl) : (Ctl.evtToRing n m c).alarms = c.alarms := by
  unfold Ctl.evtToRing
  try dsimp only
  (repeat' split) <;> simp
@[simp] theorem Ctl.evtToRing_ready (n : Nat) (m : Msg) (c : Ctl) : (Ctl.evtToRing n m c).ready = c.ready := by
  unfold Ctl.evtToRing
  try dsimp only
  (repeat' split) <;> simp
@[simp] theorem Ctl.evtToRing_eth (n : Nat) (m : Msg) (c : Ctl) : (Ctl.evtToRing n m c).eth = c.eth := by
  unfold Ctl.evtToRing
  try dsimp only
  (repeat' split) <;> simp
@[simp] theorem Ctl.evtToRing_jobs (n : Nat) (m : Msg) (c : Ctl) : (Ctl.evtToRing n m c).jobs = c.jobs := by
  unfold Ctl.evtToRing
  try dsimp only
  (repeat' split) <;> simp
@[simp] theorem Ctl.evtToRing_tiles (n : Nat) (m : Msg) (c : Ctl) : (Ctl.evtToRing n m c).tiles = c.tiles := by
  unfold Ctl.evtToRing
  try dsimp only
  (repeat' split) <;> simp
@[simp] theorem Ctl.evtToRing_stacks (n : Nat) (m : Msg) (c : Ctl) : (Ctl.evtToRing n m c).stackTab = c.stackTab := by
  unfold Ctl.evtToRing
  try dsimp only
  (repeat' split) <;> simp
@[simp] theorem Ctl.evtToRing_chans (n : Nat) (m : Msg) (c : Ctl) : (Ctl.evtToRing n m c).chans = c.chans := by
  unfold Ctl.evtToRing
  try dsimp only
  (repeat' split) <;> simp
@[simp] theorem Ctl.evtToRing_cqs (n : Nat) (m : Msg) (c : Ctl) : (Ctl.evtToRing n m c).cqs = c.cqs := by
  unfold Ctl.evtToRing
  try dsimp only
  (repeat' split) <;> simp
@[simp] theorem Ctl.evtToRing_links (n : Nat) (m : Msg) (c : Ctl) : (Ctl.evtToRing n m c).links = c.links := by
  unfold Ctl.evtToRing
  try dsimp only
  (repeat' split) <;> simp
@[simp] theorem Ctl.evtToRing_guest (n : Nat) (m : Msg) (c : Ctl) : (Ctl.evtToRing n m c).guest = c.guest := by
  unfold Ctl.evtToRing
  try dsimp only
  (repeat' split) <;> simp
@[simp] theorem Ctl.evtToRing_router (n : Nat) (m : Msg) (c : Ctl) : (Ctl.evtToRing n m c).router = c.router := by
  unfold Ctl.evtToRing
  try dsimp only
  (repeat' split) <;> simp
@[simp] theorem Ctl.evtToRing_fabric (n : Nat) (m : Msg) (c : Ctl) : (Ctl.evtToRing n m c).fabric = c.fabric := by
  unfold Ctl.evtToRing
  try dsimp only
  (repeat' split) <;> simp
@[simp] theorem Ctl.evtToRing_optics (n : Nat) (m : Msg) (c : Ctl) : (Ctl.evtToRing n m c).optics = c.optics := by
  unfold Ctl.evtToRing
  try dsimp only
  (repeat' split) <;> simp
@[simp] theorem Ctl.evtToRing_colls (n : Nat) (m : Msg) (c : Ctl) : (Ctl.evtToRing n m c).colls = c.colls := by
  unfold Ctl.evtToRing
  try dsimp only
  (repeat' split) <;> simp
@[simp] theorem Ctl.evtToRing_serve (n : Nat) (m : Msg) (c : Ctl) : (Ctl.evtToRing n m c).serve = c.serve := by
  unfold Ctl.evtToRing
  try dsimp only
  (repeat' split) <;> simp

/-! `Ctl.evtToRemote` changes at most `pairs`, `eth`. -/

@[simp] theorem Ctl.evtToRemote_rc (n : Nat) (m : Msg) (c : Ctl) : (Ctl.evtToRemote n m c).rc = c.rc := by
  unfold Ctl.evtToRemote
  try dsimp only
  (repeat' split) <;> simp
@[simp] theorem Ctl.evtToRemote_power (n : Nat) (m : Msg) (c : Ctl) : (Ctl.evtToRemote n m c).power = c.power := by
  unfold Ctl.evtToRemote
  try dsimp only
  (repeat' split) <;> simp
@[simp] theorem Ctl.evtToRemote_alarms (n : Nat) (m : Msg) (c : Ctl) : (Ctl.evtToRemote n m c).alarms = c.alarms := by
  unfold Ctl.evtToRemote
  try dsimp only
  (repeat' split) <;> simp
@[simp] theorem Ctl.evtToRemote_ready (n : Nat) (m : Msg) (c : Ctl) : (Ctl.evtToRemote n m c).ready = c.ready := by
  unfold Ctl.evtToRemote
  try dsimp only
  (repeat' split) <;> simp
@[simp] theorem Ctl.evtToRemote_fnA (n : Nat) (m : Msg) (c : Ctl) : (Ctl.evtToRemote n m c).fnA = c.fnA := by
  unfold Ctl.evtToRemote
  try dsimp only
  (repeat' split) <;> simp
@[simp] theorem Ctl.evtToRemote_fnB (n : Nat) (m : Msg) (c : Ctl) : (Ctl.evtToRemote n m c).fnB = c.fnB := by
  unfold Ctl.evtToRemote
  try dsimp only
  (repeat' split) <;> simp
@[simp] theorem Ctl.evtToRemote_jobs (n : Nat) (m : Msg) (c : Ctl) : (Ctl.evtToRemote n m c).jobs = c.jobs := by
  unfold Ctl.evtToRemote
  try dsimp only
  (repeat' split) <;> simp
@[simp] theorem Ctl.evtToRemote_tiles (n : Nat) (m : Msg) (c : Ctl) : (Ctl.evtToRemote n m c).tiles = c.tiles := by
  unfold Ctl.evtToRemote
  try dsimp only
  (repeat' split) <;> simp
@[simp] theorem Ctl.evtToRemote_stacks (n : Nat) (m : Msg) (c : Ctl) : (Ctl.evtToRemote n m c).stackTab = c.stackTab := by
  unfold Ctl.evtToRemote
  try dsimp only
  (repeat' split) <;> simp
@[simp] theorem Ctl.evtToRemote_chans (n : Nat) (m : Msg) (c : Ctl) : (Ctl.evtToRemote n m c).chans = c.chans := by
  unfold Ctl.evtToRemote
  try dsimp only
  (repeat' split) <;> simp
@[simp] theorem Ctl.evtToRemote_cqs (n : Nat) (m : Msg) (c : Ctl) : (Ctl.evtToRemote n m c).cqs = c.cqs := by
  unfold Ctl.evtToRemote
  try dsimp only
  (repeat' split) <;> simp
@[simp] theorem Ctl.evtToRemote_links (n : Nat) (m : Msg) (c : Ctl) : (Ctl.evtToRemote n m c).links = c.links := by
  unfold Ctl.evtToRemote
  try dsimp only
  (repeat' split) <;> simp
@[simp] theorem Ctl.evtToRemote_guest (n : Nat) (m : Msg) (c : Ctl) : (Ctl.evtToRemote n m c).guest = c.guest := by
  unfold Ctl.evtToRemote
  try dsimp only
  (repeat' split) <;> simp
@[simp] theorem Ctl.evtToRemote_router (n : Nat) (m : Msg) (c : Ctl) : (Ctl.evtToRemote n m c).router = c.router := by
  unfold Ctl.evtToRemote
  try dsimp only
  (repeat' split) <;> simp
@[simp] theorem Ctl.evtToRemote_fabric (n : Nat) (m : Msg) (c : Ctl) : (Ctl.evtToRemote n m c).fabric = c.fabric := by
  unfold Ctl.evtToRemote
  try dsimp only
  (repeat' split) <;> simp
@[simp] theorem Ctl.evtToRemote_optics (n : Nat) (m : Msg) (c : Ctl) : (Ctl.evtToRemote n m c).optics = c.optics := by
  unfold Ctl.evtToRemote
  try dsimp only
  (repeat' split) <;> simp
@[simp] theorem Ctl.evtToRemote_colls (n : Nat) (m : Msg) (c : Ctl) : (Ctl.evtToRemote n m c).colls = c.colls := by
  unfold Ctl.evtToRemote
  try dsimp only
  (repeat' split) <;> simp
@[simp] theorem Ctl.evtToRemote_serve (n : Nat) (m : Msg) (c : Ctl) : (Ctl.evtToRemote n m c).serve = c.serve := by
  unfold Ctl.evtToRemote
  try dsimp only
  (repeat' split) <;> simp

/-! `Ctl.evtWrite` changes at most `pairs`, `fnA`, `fnB`, `eth`. -/

@[simp] theorem Ctl.evtWrite_rc (n k : Nat) (b : List Byte) (c : Ctl) : (Ctl.evtWrite n k b c).rc = c.rc := by
  unfold Ctl.evtWrite
  try dsimp only
  (repeat' split) <;> simp
@[simp] theorem Ctl.evtWrite_power (n k : Nat) (b : List Byte) (c : Ctl) : (Ctl.evtWrite n k b c).power = c.power := by
  unfold Ctl.evtWrite
  try dsimp only
  (repeat' split) <;> simp
@[simp] theorem Ctl.evtWrite_alarms (n k : Nat) (b : List Byte) (c : Ctl) : (Ctl.evtWrite n k b c).alarms = c.alarms := by
  unfold Ctl.evtWrite
  try dsimp only
  (repeat' split) <;> simp
@[simp] theorem Ctl.evtWrite_ready (n k : Nat) (b : List Byte) (c : Ctl) : (Ctl.evtWrite n k b c).ready = c.ready := by
  unfold Ctl.evtWrite
  try dsimp only
  (repeat' split) <;> simp
@[simp] theorem Ctl.evtWrite_jobs (n k : Nat) (b : List Byte) (c : Ctl) : (Ctl.evtWrite n k b c).jobs = c.jobs := by
  unfold Ctl.evtWrite
  try dsimp only
  (repeat' split) <;> simp
@[simp] theorem Ctl.evtWrite_tiles (n k : Nat) (b : List Byte) (c : Ctl) : (Ctl.evtWrite n k b c).tiles = c.tiles := by
  unfold Ctl.evtWrite
  try dsimp only
  (repeat' split) <;> simp
@[simp] theorem Ctl.evtWrite_stacks (n k : Nat) (b : List Byte) (c : Ctl) : (Ctl.evtWrite n k b c).stackTab = c.stackTab := by
  unfold Ctl.evtWrite
  try dsimp only
  (repeat' split) <;> simp
@[simp] theorem Ctl.evtWrite_chans (n k : Nat) (b : List Byte) (c : Ctl) : (Ctl.evtWrite n k b c).chans = c.chans := by
  unfold Ctl.evtWrite
  try dsimp only
  (repeat' split) <;> simp
@[simp] theorem Ctl.evtWrite_cqs (n k : Nat) (b : List Byte) (c : Ctl) : (Ctl.evtWrite n k b c).cqs = c.cqs := by
  unfold Ctl.evtWrite
  try dsimp only
  (repeat' split) <;> simp
@[simp] theorem Ctl.evtWrite_links (n k : Nat) (b : List Byte) (c : Ctl) : (Ctl.evtWrite n k b c).links = c.links := by
  unfold Ctl.evtWrite
  try dsimp only
  (repeat' split) <;> simp
@[simp] theorem Ctl.evtWrite_guest (n k : Nat) (b : List Byte) (c : Ctl) : (Ctl.evtWrite n k b c).guest = c.guest := by
  unfold Ctl.evtWrite
  try dsimp only
  (repeat' split) <;> simp
@[simp] theorem Ctl.evtWrite_router (n k : Nat) (b : List Byte) (c : Ctl) : (Ctl.evtWrite n k b c).router = c.router := by
  unfold Ctl.evtWrite
  try dsimp only
  (repeat' split) <;> simp
@[simp] theorem Ctl.evtWrite_fabric (n k : Nat) (b : List Byte) (c : Ctl) : (Ctl.evtWrite n k b c).fabric = c.fabric := by
  unfold Ctl.evtWrite
  try dsimp only
  (repeat' split) <;> simp
@[simp] theorem Ctl.evtWrite_optics (n k : Nat) (b : List Byte) (c : Ctl) : (Ctl.evtWrite n k b c).optics = c.optics := by
  unfold Ctl.evtWrite
  try dsimp only
  (repeat' split) <;> simp
@[simp] theorem Ctl.evtWrite_colls (n k : Nat) (b : List Byte) (c : Ctl) : (Ctl.evtWrite n k b c).colls = c.colls := by
  unfold Ctl.evtWrite
  try dsimp only
  (repeat' split) <;> simp
@[simp] theorem Ctl.evtWrite_serve (n k : Nat) (b : List Byte) (c : Ctl) : (Ctl.evtWrite n k b c).serve = c.serve := by
  unfold Ctl.evtWrite
  try dsimp only
  (repeat' split) <;> simp

/-! `Ctl.evtsLost` changes at most `pairs`, `fnA`, `fnB`, `eth`. -/

@[simp] theorem Ctl.evtsLost_rc (n : Nat) (c : Ctl) : (Ctl.evtsLost n c).rc = c.rc := by
  unfold Ctl.evtsLost
  dsimp only
  (repeat' split) <;> simp
@[simp] theorem Ctl.evtsLost_power (n : Nat) (c : Ctl) : (Ctl.evtsLost n c).power = c.power := by
  unfold Ctl.evtsLost
  dsimp only
  (repeat' split) <;> simp
@[simp] theorem Ctl.evtsLost_alarms (n : Nat) (c : Ctl) : (Ctl.evtsLost n c).alarms = c.alarms := by
  unfold Ctl.evtsLost
  dsimp only
  (repeat' split) <;> simp
@[simp] theorem Ctl.evtsLost_ready (n : Nat) (c : Ctl) : (Ctl.evtsLost n c).ready = c.ready := by
  unfold Ctl.evtsLost
  dsimp only
  (repeat' split) <;> simp
@[simp] theorem Ctl.evtsLost_jobs (n : Nat) (c : Ctl) : (Ctl.evtsLost n c).jobs = c.jobs := by
  unfold Ctl.evtsLost
  dsimp only
  (repeat' split) <;> simp
@[simp] theorem Ctl.evtsLost_tiles (n : Nat) (c : Ctl) : (Ctl.evtsLost n c).tiles = c.tiles := by
  unfold Ctl.evtsLost
  dsimp only
  (repeat' split) <;> simp
@[simp] theorem Ctl.evtsLost_stacks (n : Nat) (c : Ctl) : (Ctl.evtsLost n c).stackTab = c.stackTab := by
  unfold Ctl.evtsLost
  dsimp only
  (repeat' split) <;> simp
@[simp] theorem Ctl.evtsLost_chans (n : Nat) (c : Ctl) : (Ctl.evtsLost n c).chans = c.chans := by
  unfold Ctl.evtsLost
  dsimp only
  (repeat' split) <;> simp
@[simp] theorem Ctl.evtsLost_cqs (n : Nat) (c : Ctl) : (Ctl.evtsLost n c).cqs = c.cqs := by
  unfold Ctl.evtsLost
  dsimp only
  (repeat' split) <;> simp
@[simp] theorem Ctl.evtsLost_links (n : Nat) (c : Ctl) : (Ctl.evtsLost n c).links = c.links := by
  unfold Ctl.evtsLost
  dsimp only
  (repeat' split) <;> simp
@[simp] theorem Ctl.evtsLost_guest (n : Nat) (c : Ctl) : (Ctl.evtsLost n c).guest = c.guest := by
  unfold Ctl.evtsLost
  dsimp only
  (repeat' split) <;> simp
@[simp] theorem Ctl.evtsLost_router (n : Nat) (c : Ctl) : (Ctl.evtsLost n c).router = c.router := by
  unfold Ctl.evtsLost
  dsimp only
  (repeat' split) <;> simp
@[simp] theorem Ctl.evtsLost_fabric (n : Nat) (c : Ctl) : (Ctl.evtsLost n c).fabric = c.fabric := by
  unfold Ctl.evtsLost
  dsimp only
  (repeat' split) <;> simp
@[simp] theorem Ctl.evtsLost_optics (n : Nat) (c : Ctl) : (Ctl.evtsLost n c).optics = c.optics := by
  unfold Ctl.evtsLost
  dsimp only
  (repeat' split) <;> simp
@[simp] theorem Ctl.evtsLost_colls (n : Nat) (c : Ctl) : (Ctl.evtsLost n c).colls = c.colls := by
  unfold Ctl.evtsLost
  dsimp only
  (repeat' split) <;> simp
@[simp] theorem Ctl.evtsLost_serve (n : Nat) (c : Ctl) : (Ctl.evtsLost n c).serve = c.serve := by
  unfold Ctl.evtsLost
  dsimp only
  (repeat' split) <;> simp

/-! `Ctl.rspToRing` changes at most `pairs`, `fnA`, `fnB`. -/

@[simp] theorem Ctl.rspToRing_rc (n : Nat) (m : Msg) (c : Ctl) : (Ctl.rspToRing n m c).rc = c.rc := by
  unfold Ctl.rspToRing
  try dsimp only
  (repeat' split) <;> simp
@[simp] theorem Ctl.rspToRing_power (n : Nat) (m : Msg) (c : Ctl) : (Ctl.rspToRing n m c).power = c.power := by
  unfold Ctl.rspToRing
  try dsimp only
  (repeat' split) <;> simp
@[simp] theorem Ctl.rspToRing_alarms (n : Nat) (m : Msg) (c : Ctl) : (Ctl.rspToRing n m c).alarms = c.alarms := by
  unfold Ctl.rspToRing
  try dsimp only
  (repeat' split) <;> simp
@[simp] theorem Ctl.rspToRing_ready (n : Nat) (m : Msg) (c : Ctl) : (Ctl.rspToRing n m c).ready = c.ready := by
  unfold Ctl.rspToRing
  try dsimp only
  (repeat' split) <;> simp
@[simp] theorem Ctl.rspToRing_eth (n : Nat) (m : Msg) (c : Ctl) : (Ctl.rspToRing n m c).eth = c.eth := by
  unfold Ctl.rspToRing
  try dsimp only
  (repeat' split) <;> simp
@[simp] theorem Ctl.rspToRing_jobs (n : Nat) (m : Msg) (c : Ctl) : (Ctl.rspToRing n m c).jobs = c.jobs := by
  unfold Ctl.rspToRing
  try dsimp only
  (repeat' split) <;> simp
@[simp] theorem Ctl.rspToRing_tiles (n : Nat) (m : Msg) (c : Ctl) : (Ctl.rspToRing n m c).tiles = c.tiles := by
  unfold Ctl.rspToRing
  try dsimp only
  (repeat' split) <;> simp
@[simp] theorem Ctl.rspToRing_stacks (n : Nat) (m : Msg) (c : Ctl) : (Ctl.rspToRing n m c).stackTab = c.stackTab := by
  unfold Ctl.rspToRing
  try dsimp only
  (repeat' split) <;> simp
@[simp] theorem Ctl.rspToRing_chans (n : Nat) (m : Msg) (c : Ctl) : (Ctl.rspToRing n m c).chans = c.chans := by
  unfold Ctl.rspToRing
  try dsimp only
  (repeat' split) <;> simp
@[simp] theorem Ctl.rspToRing_cqs (n : Nat) (m : Msg) (c : Ctl) : (Ctl.rspToRing n m c).cqs = c.cqs := by
  unfold Ctl.rspToRing
  try dsimp only
  (repeat' split) <;> simp
@[simp] theorem Ctl.rspToRing_links (n : Nat) (m : Msg) (c : Ctl) : (Ctl.rspToRing n m c).links = c.links := by
  unfold Ctl.rspToRing
  try dsimp only
  (repeat' split) <;> simp
@[simp] theorem Ctl.rspToRing_guest (n : Nat) (m : Msg) (c : Ctl) : (Ctl.rspToRing n m c).guest = c.guest := by
  unfold Ctl.rspToRing
  try dsimp only
  (repeat' split) <;> simp
@[simp] theorem Ctl.rspToRing_router (n : Nat) (m : Msg) (c : Ctl) : (Ctl.rspToRing n m c).router = c.router := by
  unfold Ctl.rspToRing
  try dsimp only
  (repeat' split) <;> simp
@[simp] theorem Ctl.rspToRing_fabric (n : Nat) (m : Msg) (c : Ctl) : (Ctl.rspToRing n m c).fabric = c.fabric := by
  unfold Ctl.rspToRing
  try dsimp only
  (repeat' split) <;> simp
@[simp] theorem Ctl.rspToRing_optics (n : Nat) (m : Msg) (c : Ctl) : (Ctl.rspToRing n m c).optics = c.optics := by
  unfold Ctl.rspToRing
  try dsimp only
  (repeat' split) <;> simp
@[simp] theorem Ctl.rspToRing_colls (n : Nat) (m : Msg) (c : Ctl) : (Ctl.rspToRing n m c).colls = c.colls := by
  unfold Ctl.rspToRing
  try dsimp only
  (repeat' split) <;> simp
@[simp] theorem Ctl.rspToRing_serve (n : Nat) (m : Msg) (c : Ctl) : (Ctl.rspToRing n m c).serve = c.serve := by
  unfold Ctl.rspToRing
  try dsimp only
  (repeat' split) <;> simp

/-! `Ctl.rspToRemote` changes at most `pairs`, `eth`. -/

@[simp] theorem Ctl.rspToRemote_rc (n : Nat) (m : Msg) (c : Ctl) : (Ctl.rspToRemote n m c).rc = c.rc := by
  unfold Ctl.rspToRemote
  try dsimp only
  (repeat' split) <;> simp
@[simp] theorem Ctl.rspToRemote_power (n : Nat) (m : Msg) (c : Ctl) : (Ctl.rspToRemote n m c).power = c.power := by
  unfold Ctl.rspToRemote
  try dsimp only
  (repeat' split) <;> simp
@[simp] theorem Ctl.rspToRemote_alarms (n : Nat) (m : Msg) (c : Ctl) : (Ctl.rspToRemote n m c).alarms = c.alarms := by
  unfold Ctl.rspToRemote
  try dsimp only
  (repeat' split) <;> simp
@[simp] theorem Ctl.rspToRemote_ready (n : Nat) (m : Msg) (c : Ctl) : (Ctl.rspToRemote n m c).ready = c.ready := by
  unfold Ctl.rspToRemote
  try dsimp only
  (repeat' split) <;> simp
@[simp] theorem Ctl.rspToRemote_fnA (n : Nat) (m : Msg) (c : Ctl) : (Ctl.rspToRemote n m c).fnA = c.fnA := by
  unfold Ctl.rspToRemote
  try dsimp only
  (repeat' split) <;> simp
@[simp] theorem Ctl.rspToRemote_fnB (n : Nat) (m : Msg) (c : Ctl) : (Ctl.rspToRemote n m c).fnB = c.fnB := by
  unfold Ctl.rspToRemote
  try dsimp only
  (repeat' split) <;> simp
@[simp] theorem Ctl.rspToRemote_jobs (n : Nat) (m : Msg) (c : Ctl) : (Ctl.rspToRemote n m c).jobs = c.jobs := by
  unfold Ctl.rspToRemote
  try dsimp only
  (repeat' split) <;> simp
@[simp] theorem Ctl.rspToRemote_tiles (n : Nat) (m : Msg) (c : Ctl) : (Ctl.rspToRemote n m c).tiles = c.tiles := by
  unfold Ctl.rspToRemote
  try dsimp only
  (repeat' split) <;> simp
@[simp] theorem Ctl.rspToRemote_stacks (n : Nat) (m : Msg) (c : Ctl) : (Ctl.rspToRemote n m c).stackTab = c.stackTab := by
  unfold Ctl.rspToRemote
  try dsimp only
  (repeat' split) <;> simp
@[simp] theorem Ctl.rspToRemote_chans (n : Nat) (m : Msg) (c : Ctl) : (Ctl.rspToRemote n m c).chans = c.chans := by
  unfold Ctl.rspToRemote
  try dsimp only
  (repeat' split) <;> simp
@[simp] theorem Ctl.rspToRemote_cqs (n : Nat) (m : Msg) (c : Ctl) : (Ctl.rspToRemote n m c).cqs = c.cqs := by
  unfold Ctl.rspToRemote
  try dsimp only
  (repeat' split) <;> simp
@[simp] theorem Ctl.rspToRemote_links (n : Nat) (m : Msg) (c : Ctl) : (Ctl.rspToRemote n m c).links = c.links := by
  unfold Ctl.rspToRemote
  try dsimp only
  (repeat' split) <;> simp
@[simp] theorem Ctl.rspToRemote_guest (n : Nat) (m : Msg) (c : Ctl) : (Ctl.rspToRemote n m c).guest = c.guest := by
  unfold Ctl.rspToRemote
  try dsimp only
  (repeat' split) <;> simp
@[simp] theorem Ctl.rspToRemote_router (n : Nat) (m : Msg) (c : Ctl) : (Ctl.rspToRemote n m c).router = c.router := by
  unfold Ctl.rspToRemote
  try dsimp only
  (repeat' split) <;> simp
@[simp] theorem Ctl.rspToRemote_fabric (n : Nat) (m : Msg) (c : Ctl) : (Ctl.rspToRemote n m c).fabric = c.fabric := by
  unfold Ctl.rspToRemote
  try dsimp only
  (repeat' split) <;> simp
@[simp] theorem Ctl.rspToRemote_optics (n : Nat) (m : Msg) (c : Ctl) : (Ctl.rspToRemote n m c).optics = c.optics := by
  unfold Ctl.rspToRemote
  try dsimp only
  (repeat' split) <;> simp
@[simp] theorem Ctl.rspToRemote_colls (n : Nat) (m : Msg) (c : Ctl) : (Ctl.rspToRemote n m c).colls = c.colls := by
  unfold Ctl.rspToRemote
  try dsimp only
  (repeat' split) <;> simp
@[simp] theorem Ctl.rspToRemote_serve (n : Nat) (m : Msg) (c : Ctl) : (Ctl.rspToRemote n m c).serve = c.serve := by
  unfold Ctl.rspToRemote
  try dsimp only
  (repeat' split) <;> simp

/-! `Ctl.respond` changes at most `pairs`, `fnA`, `fnB`, `eth`. -/

@[simp] theorem Ctl.respond_rc (n o q r s d : Nat) (b : List Byte) (c : Ctl) : (Ctl.respond n o q r s d b c).rc = c.rc := by
  unfold Ctl.respond
  try dsimp only
  (repeat' split) <;> simp
@[simp] theorem Ctl.respond_power (n o q r s d : Nat) (b : List Byte) (c : Ctl) : (Ctl.respond n o q r s d b c).power = c.power := by
  unfold Ctl.respond
  try dsimp only
  (repeat' split) <;> simp
@[simp] theorem Ctl.respond_alarms (n o q r s d : Nat) (b : List Byte) (c : Ctl) : (Ctl.respond n o q r s d b c).alarms = c.alarms := by
  unfold Ctl.respond
  try dsimp only
  (repeat' split) <;> simp
@[simp] theorem Ctl.respond_ready (n o q r s d : Nat) (b : List Byte) (c : Ctl) : (Ctl.respond n o q r s d b c).ready = c.ready := by
  unfold Ctl.respond
  try dsimp only
  (repeat' split) <;> simp
@[simp] theorem Ctl.respond_jobs (n o q r s d : Nat) (b : List Byte) (c : Ctl) : (Ctl.respond n o q r s d b c).jobs = c.jobs := by
  unfold Ctl.respond
  try dsimp only
  (repeat' split) <;> simp
@[simp] theorem Ctl.respond_tiles (n o q r s d : Nat) (b : List Byte) (c : Ctl) : (Ctl.respond n o q r s d b c).tiles = c.tiles := by
  unfold Ctl.respond
  try dsimp only
  (repeat' split) <;> simp
@[simp] theorem Ctl.respond_stacks (n o q r s d : Nat) (b : List Byte) (c : Ctl) : (Ctl.respond n o q r s d b c).stackTab = c.stackTab := by
  unfold Ctl.respond
  try dsimp only
  (repeat' split) <;> simp
@[simp] theorem Ctl.respond_chans (n o q r s d : Nat) (b : List Byte) (c : Ctl) : (Ctl.respond n o q r s d b c).chans = c.chans := by
  unfold Ctl.respond
  try dsimp only
  (repeat' split) <;> simp
@[simp] theorem Ctl.respond_cqs (n o q r s d : Nat) (b : List Byte) (c : Ctl) : (Ctl.respond n o q r s d b c).cqs = c.cqs := by
  unfold Ctl.respond
  try dsimp only
  (repeat' split) <;> simp
@[simp] theorem Ctl.respond_links (n o q r s d : Nat) (b : List Byte) (c : Ctl) : (Ctl.respond n o q r s d b c).links = c.links := by
  unfold Ctl.respond
  try dsimp only
  (repeat' split) <;> simp
@[simp] theorem Ctl.respond_guest (n o q r s d : Nat) (b : List Byte) (c : Ctl) : (Ctl.respond n o q r s d b c).guest = c.guest := by
  unfold Ctl.respond
  try dsimp only
  (repeat' split) <;> simp
@[simp] theorem Ctl.respond_router (n o q r s d : Nat) (b : List Byte) (c : Ctl) : (Ctl.respond n o q r s d b c).router = c.router := by
  unfold Ctl.respond
  try dsimp only
  (repeat' split) <;> simp
@[simp] theorem Ctl.respond_fabric (n o q r s d : Nat) (b : List Byte) (c : Ctl) : (Ctl.respond n o q r s d b c).fabric = c.fabric := by
  unfold Ctl.respond
  try dsimp only
  (repeat' split) <;> simp
@[simp] theorem Ctl.respond_optics (n o q r s d : Nat) (b : List Byte) (c : Ctl) : (Ctl.respond n o q r s d b c).optics = c.optics := by
  unfold Ctl.respond
  try dsimp only
  (repeat' split) <;> simp
@[simp] theorem Ctl.respond_colls (n o q r s d : Nat) (b : List Byte) (c : Ctl) : (Ctl.respond n o q r s d b c).colls = c.colls := by
  unfold Ctl.respond
  try dsimp only
  (repeat' split) <;> simp
@[simp] theorem Ctl.respond_serve (n o q r s d : Nat) (b : List Byte) (c : Ctl) : (Ctl.respond n o q r s d b c).serve = c.serve := by
  unfold Ctl.respond
  try dsimp only
  (repeat' split) <;> simp

/-! `Ctl.answer` changes at most `pairs`, `fnA`, `fnB`, `eth`. -/

@[simp] theorem Ctl.answer_rc (k : Cmd) (h : Hdr) (s d : Nat) (b : List Byte) (c : Ctl) : (Ctl.answer k h s d b c).rc = c.rc := by
  simp [Ctl.answer]
@[simp] theorem Ctl.answer_power (k : Cmd) (h : Hdr) (s d : Nat) (b : List Byte) (c : Ctl) : (Ctl.answer k h s d b c).power = c.power := by
  simp [Ctl.answer]
@[simp] theorem Ctl.answer_alarms (k : Cmd) (h : Hdr) (s d : Nat) (b : List Byte) (c : Ctl) : (Ctl.answer k h s d b c).alarms = c.alarms := by
  simp [Ctl.answer]
@[simp] theorem Ctl.answer_ready (k : Cmd) (h : Hdr) (s d : Nat) (b : List Byte) (c : Ctl) : (Ctl.answer k h s d b c).ready = c.ready := by
  simp [Ctl.answer]
@[simp] theorem Ctl.answer_jobs (k : Cmd) (h : Hdr) (s d : Nat) (b : List Byte) (c : Ctl) : (Ctl.answer k h s d b c).jobs = c.jobs := by
  simp [Ctl.answer]
@[simp] theorem Ctl.answer_tiles (k : Cmd) (h : Hdr) (s d : Nat) (b : List Byte) (c : Ctl) : (Ctl.answer k h s d b c).tiles = c.tiles := by
  simp [Ctl.answer]
@[simp] theorem Ctl.answer_stacks (k : Cmd) (h : Hdr) (s d : Nat) (b : List Byte) (c : Ctl) : (Ctl.answer k h s d b c).stackTab = c.stackTab := by
  simp [Ctl.answer]
@[simp] theorem Ctl.answer_chans (k : Cmd) (h : Hdr) (s d : Nat) (b : List Byte) (c : Ctl) : (Ctl.answer k h s d b c).chans = c.chans := by
  simp [Ctl.answer]
@[simp] theorem Ctl.answer_cqs (k : Cmd) (h : Hdr) (s d : Nat) (b : List Byte) (c : Ctl) : (Ctl.answer k h s d b c).cqs = c.cqs := by
  simp [Ctl.answer]
@[simp] theorem Ctl.answer_links (k : Cmd) (h : Hdr) (s d : Nat) (b : List Byte) (c : Ctl) : (Ctl.answer k h s d b c).links = c.links := by
  simp [Ctl.answer]
@[simp] theorem Ctl.answer_guest (k : Cmd) (h : Hdr) (s d : Nat) (b : List Byte) (c : Ctl) : (Ctl.answer k h s d b c).guest = c.guest := by
  simp [Ctl.answer]
@[simp] theorem Ctl.answer_router (k : Cmd) (h : Hdr) (s d : Nat) (b : List Byte) (c : Ctl) : (Ctl.answer k h s d b c).router = c.router := by
  simp [Ctl.answer]
@[simp] theorem Ctl.answer_fabric (k : Cmd) (h : Hdr) (s d : Nat) (b : List Byte) (c : Ctl) : (Ctl.answer k h s d b c).fabric = c.fabric := by
  simp [Ctl.answer]
@[simp] theorem Ctl.answer_optics (k : Cmd) (h : Hdr) (s d : Nat) (b : List Byte) (c : Ctl) : (Ctl.answer k h s d b c).optics = c.optics := by
  simp [Ctl.answer]
@[simp] theorem Ctl.answer_colls (k : Cmd) (h : Hdr) (s d : Nat) (b : List Byte) (c : Ctl) : (Ctl.answer k h s d b c).colls = c.colls := by
  simp [Ctl.answer]
@[simp] theorem Ctl.answer_serve (k : Cmd) (h : Hdr) (s d : Nat) (b : List Byte) (c : Ctl) : (Ctl.answer k h s d b c).serve = c.serve := by
  simp [Ctl.answer]

/-! `Ctl.consume` changes at most `pairs`. -/

@[simp] theorem Ctl.consume_rc (k : Cmd) (h : Hdr) (c : Ctl) : (Ctl.consume k h c).rc = c.rc := by
  simp [Ctl.consume]
@[simp] theorem Ctl.consume_power (k : Cmd) (h : Hdr) (c : Ctl) : (Ctl.consume k h c).power = c.power := by
  simp [Ctl.consume]
@[simp] theorem Ctl.consume_alarms (k : Cmd) (h : Hdr) (c : Ctl) : (Ctl.consume k h c).alarms = c.alarms := by
  simp [Ctl.consume]
@[simp] theorem Ctl.consume_ready (k : Cmd) (h : Hdr) (c : Ctl) : (Ctl.consume k h c).ready = c.ready := by
  simp [Ctl.consume]
@[simp] theorem Ctl.consume_fnA (k : Cmd) (h : Hdr) (c : Ctl) : (Ctl.consume k h c).fnA = c.fnA := by
  simp [Ctl.consume]
@[simp] theorem Ctl.consume_fnB (k : Cmd) (h : Hdr) (c : Ctl) : (Ctl.consume k h c).fnB = c.fnB := by
  simp [Ctl.consume]
@[simp] theorem Ctl.consume_eth (k : Cmd) (h : Hdr) (c : Ctl) : (Ctl.consume k h c).eth = c.eth := by
  simp [Ctl.consume]
@[simp] theorem Ctl.consume_jobs (k : Cmd) (h : Hdr) (c : Ctl) : (Ctl.consume k h c).jobs = c.jobs := by
  simp [Ctl.consume]
@[simp] theorem Ctl.consume_tiles (k : Cmd) (h : Hdr) (c : Ctl) : (Ctl.consume k h c).tiles = c.tiles := by
  simp [Ctl.consume]
@[simp] theorem Ctl.consume_stacks (k : Cmd) (h : Hdr) (c : Ctl) : (Ctl.consume k h c).stackTab = c.stackTab := by
  simp [Ctl.consume]
@[simp] theorem Ctl.consume_chans (k : Cmd) (h : Hdr) (c : Ctl) : (Ctl.consume k h c).chans = c.chans := by
  simp [Ctl.consume]
@[simp] theorem Ctl.consume_cqs (k : Cmd) (h : Hdr) (c : Ctl) : (Ctl.consume k h c).cqs = c.cqs := by
  simp [Ctl.consume]
@[simp] theorem Ctl.consume_links (k : Cmd) (h : Hdr) (c : Ctl) : (Ctl.consume k h c).links = c.links := by
  simp [Ctl.consume]
@[simp] theorem Ctl.consume_guest (k : Cmd) (h : Hdr) (c : Ctl) : (Ctl.consume k h c).guest = c.guest := by
  simp [Ctl.consume]
@[simp] theorem Ctl.consume_router (k : Cmd) (h : Hdr) (c : Ctl) : (Ctl.consume k h c).router = c.router := by
  simp [Ctl.consume]
@[simp] theorem Ctl.consume_fabric (k : Cmd) (h : Hdr) (c : Ctl) : (Ctl.consume k h c).fabric = c.fabric := by
  simp [Ctl.consume]
@[simp] theorem Ctl.consume_optics (k : Cmd) (h : Hdr) (c : Ctl) : (Ctl.consume k h c).optics = c.optics := by
  simp [Ctl.consume]
@[simp] theorem Ctl.consume_colls (k : Cmd) (h : Hdr) (c : Ctl) : (Ctl.consume k h c).colls = c.colls := by
  simp [Ctl.consume]
@[simp] theorem Ctl.consume_serve (k : Cmd) (h : Hdr) (c : Ctl) : (Ctl.consume k h c).serve = c.serve := by
  simp [Ctl.consume]

/-! `Ctl.event` changes at most `pairs`, `fnA`, `fnB`, `eth`, `rc`. -/

@[simp] theorem Ctl.event_power (k : Nat) (b : List Byte) (t : To) (c : Ctl) : (Ctl.event k b t c).power = c.power := by
  unfold Ctl.event
  refine (foldl_keeps (fun (d : Ctl) => d.power) ?_ _ _).trans ?_
  · intro d x
    (repeat' split) <;> simp
  · simp
@[simp] theorem Ctl.event_alarms (k : Nat) (b : List Byte) (t : To) (c : Ctl) : (Ctl.event k b t c).alarms = c.alarms := by
  unfold Ctl.event
  refine (foldl_keeps (fun (d : Ctl) => d.alarms) ?_ _ _).trans ?_
  · intro d x
    (repeat' split) <;> simp
  · simp
@[simp] theorem Ctl.event_ready (k : Nat) (b : List Byte) (t : To) (c : Ctl) : (Ctl.event k b t c).ready = c.ready := by
  unfold Ctl.event
  refine (foldl_keeps (fun (d : Ctl) => d.ready) ?_ _ _).trans ?_
  · intro d x
    (repeat' split) <;> simp
  · simp
@[simp] theorem Ctl.event_jobs (k : Nat) (b : List Byte) (t : To) (c : Ctl) : (Ctl.event k b t c).jobs = c.jobs := by
  unfold Ctl.event
  refine (foldl_keeps (fun (d : Ctl) => d.jobs) ?_ _ _).trans ?_
  · intro d x
    (repeat' split) <;> simp
  · simp
@[simp] theorem Ctl.event_tiles (k : Nat) (b : List Byte) (t : To) (c : Ctl) : (Ctl.event k b t c).tiles = c.tiles := by
  unfold Ctl.event
  refine (foldl_keeps (fun (d : Ctl) => d.tiles) ?_ _ _).trans ?_
  · intro d x
    (repeat' split) <;> simp
  · simp
@[simp] theorem Ctl.event_stacks (k : Nat) (b : List Byte) (t : To) (c : Ctl) : (Ctl.event k b t c).stackTab = c.stackTab := by
  unfold Ctl.event
  refine (foldl_keeps (fun (d : Ctl) => d.stackTab) ?_ _ _).trans ?_
  · intro d x
    (repeat' split) <;> simp
  · simp
@[simp] theorem Ctl.event_chans (k : Nat) (b : List Byte) (t : To) (c : Ctl) : (Ctl.event k b t c).chans = c.chans := by
  unfold Ctl.event
  refine (foldl_keeps (fun (d : Ctl) => d.chans) ?_ _ _).trans ?_
  · intro d x
    (repeat' split) <;> simp
  · simp
@[simp] theorem Ctl.event_cqs (k : Nat) (b : List Byte) (t : To) (c : Ctl) : (Ctl.event k b t c).cqs = c.cqs := by
  unfold Ctl.event
  refine (foldl_keeps (fun (d : Ctl) => d.cqs) ?_ _ _).trans ?_
  · intro d x
    (repeat' split) <;> simp
  · simp
@[simp] theorem Ctl.event_links (k : Nat) (b : List Byte) (t : To) (c : Ctl) : (Ctl.event k b t c).links = c.links := by
  unfold Ctl.event
  refine (foldl_keeps (fun (d : Ctl) => d.links) ?_ _ _).trans ?_
  · intro d x
    (repeat' split) <;> simp
  · simp
@[simp] theorem Ctl.event_guest (k : Nat) (b : List Byte) (t : To) (c : Ctl) : (Ctl.event k b t c).guest = c.guest := by
  unfold Ctl.event
  refine (foldl_keeps (fun (d : Ctl) => d.guest) ?_ _ _).trans ?_
  · intro d x
    (repeat' split) <;> simp
  · simp
@[simp] theorem Ctl.event_router (k : Nat) (b : List Byte) (t : To) (c : Ctl) : (Ctl.event k b t c).router = c.router := by
  unfold Ctl.event
  refine (foldl_keeps (fun (d : Ctl) => d.router) ?_ _ _).trans ?_
  · intro d x
    (repeat' split) <;> simp
  · simp
@[simp] theorem Ctl.event_fabric (k : Nat) (b : List Byte) (t : To) (c : Ctl) : (Ctl.event k b t c).fabric = c.fabric := by
  unfold Ctl.event
  refine (foldl_keeps (fun (d : Ctl) => d.fabric) ?_ _ _).trans ?_
  · intro d x
    (repeat' split) <;> simp
  · simp
@[simp] theorem Ctl.event_optics (k : Nat) (b : List Byte) (t : To) (c : Ctl) : (Ctl.event k b t c).optics = c.optics := by
  unfold Ctl.event
  refine (foldl_keeps (fun (d : Ctl) => d.optics) ?_ _ _).trans ?_
  · intro d x
    (repeat' split) <;> simp
  · simp
@[simp] theorem Ctl.event_colls (k : Nat) (b : List Byte) (t : To) (c : Ctl) : (Ctl.event k b t c).colls = c.colls := by
  unfold Ctl.event
  refine (foldl_keeps (fun (d : Ctl) => d.colls) ?_ _ _).trans ?_
  · intro d x
    (repeat' split) <;> simp
  · simp
@[simp] theorem Ctl.event_serve (k : Nat) (b : List Byte) (t : To) (c : Ctl) : (Ctl.event k b t c).serve = c.serve := by
  unfold Ctl.event
  refine (foldl_keeps (fun (d : Ctl) => d.serve) ?_ _ _).trans ?_
  · intro d x
    (repeat' split) <;> simp
  · simp

/-! `Ctl.endSession` changes at most `pairs`. -/

@[simp] theorem Ctl.endSession_rc (n : Nat) (c : Ctl) : (Ctl.endSession n c).rc = c.rc := by
  simp [Ctl.endSession]
@[simp] theorem Ctl.endSession_power (n : Nat) (c : Ctl) : (Ctl.endSession n c).power = c.power := by
  simp [Ctl.endSession]
@[simp] theorem Ctl.endSession_alarms (n : Nat) (c : Ctl) : (Ctl.endSession n c).alarms = c.alarms := by
  simp [Ctl.endSession]
@[simp] theorem Ctl.endSession_ready (n : Nat) (c : Ctl) : (Ctl.endSession n c).ready = c.ready := by
  simp [Ctl.endSession]
@[simp] theorem Ctl.endSession_fnA (n : Nat) (c : Ctl) : (Ctl.endSession n c).fnA = c.fnA := by
  simp [Ctl.endSession]
@[simp] theorem Ctl.endSession_fnB (n : Nat) (c : Ctl) : (Ctl.endSession n c).fnB = c.fnB := by
  simp [Ctl.endSession]
@[simp] theorem Ctl.endSession_eth (n : Nat) (c : Ctl) : (Ctl.endSession n c).eth = c.eth := by
  simp [Ctl.endSession]
@[simp] theorem Ctl.endSession_jobs (n : Nat) (c : Ctl) : (Ctl.endSession n c).jobs = c.jobs := by
  simp [Ctl.endSession]
@[simp] theorem Ctl.endSession_tiles (n : Nat) (c : Ctl) : (Ctl.endSession n c).tiles = c.tiles := by
  simp [Ctl.endSession]
@[simp] theorem Ctl.endSession_stacks (n : Nat) (c : Ctl) : (Ctl.endSession n c).stackTab = c.stackTab := by
  simp [Ctl.endSession]
@[simp] theorem Ctl.endSession_chans (n : Nat) (c : Ctl) : (Ctl.endSession n c).chans = c.chans := by
  simp [Ctl.endSession]
@[simp] theorem Ctl.endSession_cqs (n : Nat) (c : Ctl) : (Ctl.endSession n c).cqs = c.cqs := by
  simp [Ctl.endSession]
@[simp] theorem Ctl.endSession_links (n : Nat) (c : Ctl) : (Ctl.endSession n c).links = c.links := by
  simp [Ctl.endSession]
@[simp] theorem Ctl.endSession_guest (n : Nat) (c : Ctl) : (Ctl.endSession n c).guest = c.guest := by
  simp [Ctl.endSession]
@[simp] theorem Ctl.endSession_router (n : Nat) (c : Ctl) : (Ctl.endSession n c).router = c.router := by
  simp [Ctl.endSession]
@[simp] theorem Ctl.endSession_fabric (n : Nat) (c : Ctl) : (Ctl.endSession n c).fabric = c.fabric := by
  simp [Ctl.endSession]
@[simp] theorem Ctl.endSession_optics (n : Nat) (c : Ctl) : (Ctl.endSession n c).optics = c.optics := by
  simp [Ctl.endSession]
@[simp] theorem Ctl.endSession_colls (n : Nat) (c : Ctl) : (Ctl.endSession n c).colls = c.colls := by
  simp [Ctl.endSession]
@[simp] theorem Ctl.endSession_serve (n : Nat) (c : Ctl) : (Ctl.endSession n c).serve = c.serve := by
  simp [Ctl.endSession]

/-! `Ctl.finish` changes at most `pairs`, `fnA`, `fnB`, `eth`, `rc`. -/

@[simp] theorem Ctl.finish_power (f : WaitFor → Option (Nat × List Byte)) (c : Ctl) : (Ctl.finish f c).power = c.power := by
  unfold Ctl.finish
  refine (foldl_keeps (fun (d : Ctl) => d.power) ?_ _ _).trans ?_
  · intro d x
    (repeat' split) <;> simp
  · simp
@[simp] theorem Ctl.finish_alarms (f : WaitFor → Option (Nat × List Byte)) (c : Ctl) : (Ctl.finish f c).alarms = c.alarms := by
  unfold Ctl.finish
  refine (foldl_keeps (fun (d : Ctl) => d.alarms) ?_ _ _).trans ?_
  · intro d x
    (repeat' split) <;> simp
  · simp
@[simp] theorem Ctl.finish_ready (f : WaitFor → Option (Nat × List Byte)) (c : Ctl) : (Ctl.finish f c).ready = c.ready := by
  unfold Ctl.finish
  refine (foldl_keeps (fun (d : Ctl) => d.ready) ?_ _ _).trans ?_
  · intro d x
    (repeat' split) <;> simp
  · simp
@[simp] theorem Ctl.finish_jobs (f : WaitFor → Option (Nat × List Byte)) (c : Ctl) : (Ctl.finish f c).jobs = c.jobs := by
  unfold Ctl.finish
  refine (foldl_keeps (fun (d : Ctl) => d.jobs) ?_ _ _).trans ?_
  · intro d x
    (repeat' split) <;> simp
  · simp
@[simp] theorem Ctl.finish_tiles (f : WaitFor → Option (Nat × List Byte)) (c : Ctl) : (Ctl.finish f c).tiles = c.tiles := by
  unfold Ctl.finish
  refine (foldl_keeps (fun (d : Ctl) => d.tiles) ?_ _ _).trans ?_
  · intro d x
    (repeat' split) <;> simp
  · simp
@[simp] theorem Ctl.finish_stacks (f : WaitFor → Option (Nat × List Byte)) (c : Ctl) : (Ctl.finish f c).stackTab = c.stackTab := by
  unfold Ctl.finish
  refine (foldl_keeps (fun (d : Ctl) => d.stackTab) ?_ _ _).trans ?_
  · intro d x
    (repeat' split) <;> simp
  · simp
@[simp] theorem Ctl.finish_chans (f : WaitFor → Option (Nat × List Byte)) (c : Ctl) : (Ctl.finish f c).chans = c.chans := by
  unfold Ctl.finish
  refine (foldl_keeps (fun (d : Ctl) => d.chans) ?_ _ _).trans ?_
  · intro d x
    (repeat' split) <;> simp
  · simp
@[simp] theorem Ctl.finish_cqs (f : WaitFor → Option (Nat × List Byte)) (c : Ctl) : (Ctl.finish f c).cqs = c.cqs := by
  unfold Ctl.finish
  refine (foldl_keeps (fun (d : Ctl) => d.cqs) ?_ _ _).trans ?_
  · intro d x
    (repeat' split) <;> simp
  · simp
@[simp] theorem Ctl.finish_links (f : WaitFor → Option (Nat × List Byte)) (c : Ctl) : (Ctl.finish f c).links = c.links := by
  unfold Ctl.finish
  refine (foldl_keeps (fun (d : Ctl) => d.links) ?_ _ _).trans ?_
  · intro d x
    (repeat' split) <;> simp
  · simp
@[simp] theorem Ctl.finish_guest (f : WaitFor → Option (Nat × List Byte)) (c : Ctl) : (Ctl.finish f c).guest = c.guest := by
  unfold Ctl.finish
  refine (foldl_keeps (fun (d : Ctl) => d.guest) ?_ _ _).trans ?_
  · intro d x
    (repeat' split) <;> simp
  · simp
@[simp] theorem Ctl.finish_router (f : WaitFor → Option (Nat × List Byte)) (c : Ctl) : (Ctl.finish f c).router = c.router := by
  unfold Ctl.finish
  refine (foldl_keeps (fun (d : Ctl) => d.router) ?_ _ _).trans ?_
  · intro d x
    (repeat' split) <;> simp
  · simp
@[simp] theorem Ctl.finish_fabric (f : WaitFor → Option (Nat × List Byte)) (c : Ctl) : (Ctl.finish f c).fabric = c.fabric := by
  unfold Ctl.finish
  refine (foldl_keeps (fun (d : Ctl) => d.fabric) ?_ _ _).trans ?_
  · intro d x
    (repeat' split) <;> simp
  · simp
@[simp] theorem Ctl.finish_optics (f : WaitFor → Option (Nat × List Byte)) (c : Ctl) : (Ctl.finish f c).optics = c.optics := by
  unfold Ctl.finish
  refine (foldl_keeps (fun (d : Ctl) => d.optics) ?_ _ _).trans ?_
  · intro d x
    (repeat' split) <;> simp
  · simp
@[simp] theorem Ctl.finish_colls (f : WaitFor → Option (Nat × List Byte)) (c : Ctl) : (Ctl.finish f c).colls = c.colls := by
  unfold Ctl.finish
  refine (foldl_keeps (fun (d : Ctl) => d.colls) ?_ _ _).trans ?_
  · intro d x
    (repeat' split) <;> simp
  · simp
@[simp] theorem Ctl.finish_serve (f : WaitFor → Option (Nat × List Byte)) (c : Ctl) : (Ctl.finish f c).serve = c.serve := by
  unfold Ctl.finish
  refine (foldl_keeps (fun (d : Ctl) => d.serve) ?_ _ _).trans ?_
  · intro d x
    (repeat' split) <;> simp
  · simp

/-! `Ctl.finishOne` changes at most `pairs`, `fnA`, `fnB`, `eth`, `rc`. -/

@[simp] theorem Ctl.finishOne_power (x : WaitFor) (n : Nat) (b : List Byte) (c : Ctl) : (Ctl.finishOne x n b c).power = c.power := by
  simp [Ctl.finishOne]
@[simp] theorem Ctl.finishOne_alarms (x : WaitFor) (n : Nat) (b : List Byte) (c : Ctl) : (Ctl.finishOne x n b c).alarms = c.alarms := by
  simp [Ctl.finishOne]
@[simp] theorem Ctl.finishOne_ready (x : WaitFor) (n : Nat) (b : List Byte) (c : Ctl) : (Ctl.finishOne x n b c).ready = c.ready := by
  simp [Ctl.finishOne]
@[simp] theorem Ctl.finishOne_jobs (x : WaitFor) (n : Nat) (b : List Byte) (c : Ctl) : (Ctl.finishOne x n b c).jobs = c.jobs := by
  simp [Ctl.finishOne]
@[simp] theorem Ctl.finishOne_tiles (x : WaitFor) (n : Nat) (b : List Byte) (c : Ctl) : (Ctl.finishOne x n b c).tiles = c.tiles := by
  simp [Ctl.finishOne]
@[simp] theorem Ctl.finishOne_stacks (x : WaitFor) (n : Nat) (b : List Byte) (c : Ctl) : (Ctl.finishOne x n b c).stackTab = c.stackTab := by
  simp [Ctl.finishOne]
@[simp] theorem Ctl.finishOne_chans (x : WaitFor) (n : Nat) (b : List Byte) (c : Ctl) : (Ctl.finishOne x n b c).chans = c.chans := by
  simp [Ctl.finishOne]
@[simp] theorem Ctl.finishOne_cqs (x : WaitFor) (n : Nat) (b : List Byte) (c : Ctl) : (Ctl.finishOne x n b c).cqs = c.cqs := by
  simp [Ctl.finishOne]
@[simp] theorem Ctl.finishOne_links (x : WaitFor) (n : Nat) (b : List Byte) (c : Ctl) : (Ctl.finishOne x n b c).links = c.links := by
  simp [Ctl.finishOne]
@[simp] theorem Ctl.finishOne_guest (x : WaitFor) (n : Nat) (b : List Byte) (c : Ctl) : (Ctl.finishOne x n b c).guest = c.guest := by
  simp [Ctl.finishOne]
@[simp] theorem Ctl.finishOne_router (x : WaitFor) (n : Nat) (b : List Byte) (c : Ctl) : (Ctl.finishOne x n b c).router = c.router := by
  simp [Ctl.finishOne]
@[simp] theorem Ctl.finishOne_fabric (x : WaitFor) (n : Nat) (b : List Byte) (c : Ctl) : (Ctl.finishOne x n b c).fabric = c.fabric := by
  simp [Ctl.finishOne]
@[simp] theorem Ctl.finishOne_optics (x : WaitFor) (n : Nat) (b : List Byte) (c : Ctl) : (Ctl.finishOne x n b c).optics = c.optics := by
  simp [Ctl.finishOne]
@[simp] theorem Ctl.finishOne_colls (x : WaitFor) (n : Nat) (b : List Byte) (c : Ctl) : (Ctl.finishOne x n b c).colls = c.colls := by
  simp [Ctl.finishOne]
@[simp] theorem Ctl.finishOne_serve (x : WaitFor) (n : Nat) (b : List Byte) (c : Ctl) : (Ctl.finishOne x n b c).serve = c.serve := by
  simp [Ctl.finishOne]

/-! `Ctl.changed` changes at most `pairs`, `fnA`, `fnB`, `eth`, `rc`, `ready`. -/

@[simp] theorem Ctl.changed_power (i : Nat) (o n : Nat × Nat) (c : Ctl) : (Ctl.changed i o n c).power = c.power := by
  unfold Ctl.changed
  (repeat' split) <;> simp
@[simp] theorem Ctl.changed_alarms (i : Nat) (o n : Nat × Nat) (c : Ctl) : (Ctl.changed i o n c).alarms = c.alarms := by
  unfold Ctl.changed
  (repeat' split) <;> simp
@[simp] theorem Ctl.changed_jobs (i : Nat) (o n : Nat × Nat) (c : Ctl) : (Ctl.changed i o n c).jobs = c.jobs := by
  unfold Ctl.changed
  (repeat' split) <;> simp
@[simp] theorem Ctl.changed_tiles (i : Nat) (o n : Nat × Nat) (c : Ctl) : (Ctl.changed i o n c).tiles = c.tiles := by
  unfold Ctl.changed
  (repeat' split) <;> simp
@[simp] theorem Ctl.changed_stacks (i : Nat) (o n : Nat × Nat) (c : Ctl) : (Ctl.changed i o n c).stackTab = c.stackTab := by
  unfold Ctl.changed
  (repeat' split) <;> simp
@[simp] theorem Ctl.changed_chans (i : Nat) (o n : Nat × Nat) (c : Ctl) : (Ctl.changed i o n c).chans = c.chans := by
  unfold Ctl.changed
  (repeat' split) <;> simp
@[simp] theorem Ctl.changed_cqs (i : Nat) (o n : Nat × Nat) (c : Ctl) : (Ctl.changed i o n c).cqs = c.cqs := by
  unfold Ctl.changed
  (repeat' split) <;> simp
@[simp] theorem Ctl.changed_links (i : Nat) (o n : Nat × Nat) (c : Ctl) : (Ctl.changed i o n c).links = c.links := by
  unfold Ctl.changed
  (repeat' split) <;> simp
@[simp] theorem Ctl.changed_guest (i : Nat) (o n : Nat × Nat) (c : Ctl) : (Ctl.changed i o n c).guest = c.guest := by
  unfold Ctl.changed
  (repeat' split) <;> simp
@[simp] theorem Ctl.changed_router (i : Nat) (o n : Nat × Nat) (c : Ctl) : (Ctl.changed i o n c).router = c.router := by
  unfold Ctl.changed
  (repeat' split) <;> simp
@[simp] theorem Ctl.changed_fabric (i : Nat) (o n : Nat × Nat) (c : Ctl) : (Ctl.changed i o n c).fabric = c.fabric := by
  unfold Ctl.changed
  (repeat' split) <;> simp
@[simp] theorem Ctl.changed_optics (i : Nat) (o n : Nat × Nat) (c : Ctl) : (Ctl.changed i o n c).optics = c.optics := by
  unfold Ctl.changed
  (repeat' split) <;> simp
@[simp] theorem Ctl.changed_colls (i : Nat) (o n : Nat × Nat) (c : Ctl) : (Ctl.changed i o n c).colls = c.colls := by
  unfold Ctl.changed
  (repeat' split) <;> simp
@[simp] theorem Ctl.changed_serve (i : Nat) (o n : Nat × Nat) (c : Ctl) : (Ctl.changed i o n c).serve = c.serve := by
  unfold Ctl.changed
  (repeat' split) <;> simp

/-! `Ctl.postNow` changes at most `pairs`, `fnA`, `fnB`, `eth`, `rc`, `ready`. -/

@[simp] theorem Ctl.postNow_power (i s r : Nat) (c : Ctl) : (Ctl.postNow i s r c).power = c.power := by
  simp [Ctl.postNow]
@[simp] theorem Ctl.postNow_alarms (i s r : Nat) (c : Ctl) : (Ctl.postNow i s r c).alarms = c.alarms := by
  simp [Ctl.postNow]
@[simp] theorem Ctl.postNow_jobs (i s r : Nat) (c : Ctl) : (Ctl.postNow i s r c).jobs = c.jobs := by
  simp [Ctl.postNow]
@[simp] theorem Ctl.postNow_tiles (i s r : Nat) (c : Ctl) : (Ctl.postNow i s r c).tiles = c.tiles := by
  simp [Ctl.postNow]
@[simp] theorem Ctl.postNow_stacks (i s r : Nat) (c : Ctl) : (Ctl.postNow i s r c).stackTab = c.stackTab := by
  simp [Ctl.postNow]
@[simp] theorem Ctl.postNow_chans (i s r : Nat) (c : Ctl) : (Ctl.postNow i s r c).chans = c.chans := by
  simp [Ctl.postNow]
@[simp] theorem Ctl.postNow_cqs (i s r : Nat) (c : Ctl) : (Ctl.postNow i s r c).cqs = c.cqs := by
  simp [Ctl.postNow]
@[simp] theorem Ctl.postNow_links (i s r : Nat) (c : Ctl) : (Ctl.postNow i s r c).links = c.links := by
  simp [Ctl.postNow]
@[simp] theorem Ctl.postNow_guest (i s r : Nat) (c : Ctl) : (Ctl.postNow i s r c).guest = c.guest := by
  simp [Ctl.postNow]
@[simp] theorem Ctl.postNow_router (i s r : Nat) (c : Ctl) : (Ctl.postNow i s r c).router = c.router := by
  simp [Ctl.postNow]
@[simp] theorem Ctl.postNow_fabric (i s r : Nat) (c : Ctl) : (Ctl.postNow i s r c).fabric = c.fabric := by
  simp [Ctl.postNow]
@[simp] theorem Ctl.postNow_optics (i s r : Nat) (c : Ctl) : (Ctl.postNow i s r c).optics = c.optics := by
  simp [Ctl.postNow]
@[simp] theorem Ctl.postNow_colls (i s r : Nat) (c : Ctl) : (Ctl.postNow i s r c).colls = c.colls := by
  simp [Ctl.postNow]
@[simp] theorem Ctl.postNow_serve (i s r : Nat) (c : Ctl) : (Ctl.postNow i s r c).serve = c.serve := by
  simp [Ctl.postNow]

/-! `Ctl.post` changes at most `pairs`, `fnA`, `fnB`, `eth`, `rc`, `ready`. -/

@[simp] theorem Ctl.post_power (i s r : Nat) (c : Ctl) : (Ctl.post i s r c).power = c.power := by
  unfold Ctl.post
  try dsimp only
  (repeat' split) <;> simp
@[simp] theorem Ctl.post_alarms (i s r : Nat) (c : Ctl) : (Ctl.post i s r c).alarms = c.alarms := by
  unfold Ctl.post
  try dsimp only
  (repeat' split) <;> simp
@[simp] theorem Ctl.post_jobs (i s r : Nat) (c : Ctl) : (Ctl.post i s r c).jobs = c.jobs := by
  unfold Ctl.post
  try dsimp only
  (repeat' split) <;> simp
@[simp] theorem Ctl.post_tiles (i s r : Nat) (c : Ctl) : (Ctl.post i s r c).tiles = c.tiles := by
  unfold Ctl.post
  try dsimp only
  (repeat' split) <;> simp
@[simp] theorem Ctl.post_stacks (i s r : Nat) (c : Ctl) : (Ctl.post i s r c).stackTab = c.stackTab := by
  unfold Ctl.post
  try dsimp only
  (repeat' split) <;> simp
@[simp] theorem Ctl.post_chans (i s r : Nat) (c : Ctl) : (Ctl.post i s r c).chans = c.chans := by
  unfold Ctl.post
  try dsimp only
  (repeat' split) <;> simp
@[simp] theorem Ctl.post_cqs (i s r : Nat) (c : Ctl) : (Ctl.post i s r c).cqs = c.cqs := by
  unfold Ctl.post
  try dsimp only
  (repeat' split) <;> simp
@[simp] theorem Ctl.post_links (i s r : Nat) (c : Ctl) : (Ctl.post i s r c).links = c.links := by
  unfold Ctl.post
  try dsimp only
  (repeat' split) <;> simp
@[simp] theorem Ctl.post_guest (i s r : Nat) (c : Ctl) : (Ctl.post i s r c).guest = c.guest := by
  unfold Ctl.post
  try dsimp only
  (repeat' split) <;> simp
@[simp] theorem Ctl.post_router (i s r : Nat) (c : Ctl) : (Ctl.post i s r c).router = c.router := by
  unfold Ctl.post
  try dsimp only
  (repeat' split) <;> simp
@[simp] theorem Ctl.post_fabric (i s r : Nat) (c : Ctl) : (Ctl.post i s r c).fabric = c.fabric := by
  unfold Ctl.post
  try dsimp only
  (repeat' split) <;> simp
@[simp] theorem Ctl.post_optics (i s r : Nat) (c : Ctl) : (Ctl.post i s r c).optics = c.optics := by
  unfold Ctl.post
  try dsimp only
  (repeat' split) <;> simp
@[simp] theorem Ctl.post_colls (i s r : Nat) (c : Ctl) : (Ctl.post i s r c).colls = c.colls := by
  unfold Ctl.post
  try dsimp only
  (repeat' split) <;> simp
@[simp] theorem Ctl.post_serve (i s r : Nat) (c : Ctl) : (Ctl.post i s r c).serve = c.serve := by
  unfold Ctl.post
  try dsimp only
  (repeat' split) <;> simp

/-! `Ctl.sealUp` changes at most `pairs`, `fnA`, `fnB`, `eth`, `rc`, `ready`. -/

@[simp] theorem Ctl.sealUp_power (i r : Nat) (c : Ctl) : (Ctl.sealUp i r c).power = c.power := by
  simp [Ctl.sealUp]
@[simp] theorem Ctl.sealUp_alarms (i r : Nat) (c : Ctl) : (Ctl.sealUp i r c).alarms = c.alarms := by
  simp [Ctl.sealUp]
@[simp] theorem Ctl.sealUp_jobs (i r : Nat) (c : Ctl) : (Ctl.sealUp i r c).jobs = c.jobs := by
  simp [Ctl.sealUp]
@[simp] theorem Ctl.sealUp_tiles (i r : Nat) (c : Ctl) : (Ctl.sealUp i r c).tiles = c.tiles := by
  simp [Ctl.sealUp]
@[simp] theorem Ctl.sealUp_stacks (i r : Nat) (c : Ctl) : (Ctl.sealUp i r c).stackTab = c.stackTab := by
  simp [Ctl.sealUp]
@[simp] theorem Ctl.sealUp_chans (i r : Nat) (c : Ctl) : (Ctl.sealUp i r c).chans = c.chans := by
  simp [Ctl.sealUp]
@[simp] theorem Ctl.sealUp_cqs (i r : Nat) (c : Ctl) : (Ctl.sealUp i r c).cqs = c.cqs := by
  simp [Ctl.sealUp]
@[simp] theorem Ctl.sealUp_links (i r : Nat) (c : Ctl) : (Ctl.sealUp i r c).links = c.links := by
  simp [Ctl.sealUp]
@[simp] theorem Ctl.sealUp_guest (i r : Nat) (c : Ctl) : (Ctl.sealUp i r c).guest = c.guest := by
  simp [Ctl.sealUp]
@[simp] theorem Ctl.sealUp_router (i r : Nat) (c : Ctl) : (Ctl.sealUp i r c).router = c.router := by
  simp [Ctl.sealUp]
@[simp] theorem Ctl.sealUp_fabric (i r : Nat) (c : Ctl) : (Ctl.sealUp i r c).fabric = c.fabric := by
  simp [Ctl.sealUp]
@[simp] theorem Ctl.sealUp_optics (i r : Nat) (c : Ctl) : (Ctl.sealUp i r c).optics = c.optics := by
  simp [Ctl.sealUp]
@[simp] theorem Ctl.sealUp_colls (i r : Nat) (c : Ctl) : (Ctl.sealUp i r c).colls = c.colls := by
  simp [Ctl.sealUp]
@[simp] theorem Ctl.sealUp_serve (i r : Nat) (c : Ctl) : (Ctl.sealUp i r c).serve = c.serve := by
  simp [Ctl.sealUp]

/-! `Ctl.release` changes at most `pairs`, `fnA`, `fnB`, `eth`, `rc`, `ready`. -/

@[simp] theorem Ctl.release_power (i : Nat) (c : Ctl) : (Ctl.release i c).power = c.power := by
  simp [Ctl.release]
@[simp] theorem Ctl.release_alarms (i : Nat) (c : Ctl) : (Ctl.release i c).alarms = c.alarms := by
  simp [Ctl.release]
@[simp] theorem Ctl.release_jobs (i : Nat) (c : Ctl) : (Ctl.release i c).jobs = c.jobs := by
  simp [Ctl.release]
@[simp] theorem Ctl.release_tiles (i : Nat) (c : Ctl) : (Ctl.release i c).tiles = c.tiles := by
  simp [Ctl.release]
@[simp] theorem Ctl.release_stacks (i : Nat) (c : Ctl) : (Ctl.release i c).stackTab = c.stackTab := by
  simp [Ctl.release]
@[simp] theorem Ctl.release_chans (i : Nat) (c : Ctl) : (Ctl.release i c).chans = c.chans := by
  simp [Ctl.release]
@[simp] theorem Ctl.release_cqs (i : Nat) (c : Ctl) : (Ctl.release i c).cqs = c.cqs := by
  simp [Ctl.release]
@[simp] theorem Ctl.release_links (i : Nat) (c : Ctl) : (Ctl.release i c).links = c.links := by
  simp [Ctl.release]
@[simp] theorem Ctl.release_guest (i : Nat) (c : Ctl) : (Ctl.release i c).guest = c.guest := by
  simp [Ctl.release]
@[simp] theorem Ctl.release_router (i : Nat) (c : Ctl) : (Ctl.release i c).router = c.router := by
  simp [Ctl.release]
@[simp] theorem Ctl.release_fabric (i : Nat) (c : Ctl) : (Ctl.release i c).fabric = c.fabric := by
  simp [Ctl.release]
@[simp] theorem Ctl.release_optics (i : Nat) (c : Ctl) : (Ctl.release i c).optics = c.optics := by
  simp [Ctl.release]
@[simp] theorem Ctl.release_colls (i : Nat) (c : Ctl) : (Ctl.release i c).colls = c.colls := by
  simp [Ctl.release]
@[simp] theorem Ctl.release_serve (i : Nat) (c : Ctl) : (Ctl.release i c).serve = c.serve := by
  simp [Ctl.release]

/-! `Ctl.drainHeld` changes at most `pairs`, `fnA`, `fnB`. -/

@[simp] theorem Ctl.drainHeld_rc (f n : Nat) (c : Ctl) : (Ctl.drainHeld f n c).rc = c.rc := by
  induction f generalizing c with
  | zero => rfl
  | succ f ih =>
    unfold Ctl.drainHeld
    dsimp only
    (repeat' split) <;> simp [ih]
@[simp] theorem Ctl.drainHeld_power (f n : Nat) (c : Ctl) : (Ctl.drainHeld f n c).power = c.power := by
  induction f generalizing c with
  | zero => rfl
  | succ f ih =>
    unfold Ctl.drainHeld
    dsimp only
    (repeat' split) <;> simp [ih]
@[simp] theorem Ctl.drainHeld_alarms (f n : Nat) (c : Ctl) : (Ctl.drainHeld f n c).alarms = c.alarms := by
  induction f generalizing c with
  | zero => rfl
  | succ f ih =>
    unfold Ctl.drainHeld
    dsimp only
    (repeat' split) <;> simp [ih]
@[simp] theorem Ctl.drainHeld_ready (f n : Nat) (c : Ctl) : (Ctl.drainHeld f n c).ready = c.ready := by
  induction f generalizing c with
  | zero => rfl
  | succ f ih =>
    unfold Ctl.drainHeld
    dsimp only
    (repeat' split) <;> simp [ih]
@[simp] theorem Ctl.drainHeld_eth (f n : Nat) (c : Ctl) : (Ctl.drainHeld f n c).eth = c.eth := by
  induction f generalizing c with
  | zero => rfl
  | succ f ih =>
    unfold Ctl.drainHeld
    dsimp only
    (repeat' split) <;> simp [ih]
@[simp] theorem Ctl.drainHeld_jobs (f n : Nat) (c : Ctl) : (Ctl.drainHeld f n c).jobs = c.jobs := by
  induction f generalizing c with
  | zero => rfl
  | succ f ih =>
    unfold Ctl.drainHeld
    dsimp only
    (repeat' split) <;> simp [ih]
@[simp] theorem Ctl.drainHeld_tiles (f n : Nat) (c : Ctl) : (Ctl.drainHeld f n c).tiles = c.tiles := by
  induction f generalizing c with
  | zero => rfl
  | succ f ih =>
    unfold Ctl.drainHeld
    dsimp only
    (repeat' split) <;> simp [ih]
@[simp] theorem Ctl.drainHeld_stacks (f n : Nat) (c : Ctl) : (Ctl.drainHeld f n c).stackTab = c.stackTab := by
  induction f generalizing c with
  | zero => rfl
  | succ f ih =>
    unfold Ctl.drainHeld
    dsimp only
    (repeat' split) <;> simp [ih]
@[simp] theorem Ctl.drainHeld_chans (f n : Nat) (c : Ctl) : (Ctl.drainHeld f n c).chans = c.chans := by
  induction f generalizing c with
  | zero => rfl
  | succ f ih =>
    unfold Ctl.drainHeld
    dsimp only
    (repeat' split) <;> simp [ih]
@[simp] theorem Ctl.drainHeld_cqs (f n : Nat) (c : Ctl) : (Ctl.drainHeld f n c).cqs = c.cqs := by
  induction f generalizing c with
  | zero => rfl
  | succ f ih =>
    unfold Ctl.drainHeld
    dsimp only
    (repeat' split) <;> simp [ih]
@[simp] theorem Ctl.drainHeld_links (f n : Nat) (c : Ctl) : (Ctl.drainHeld f n c).links = c.links := by
  induction f generalizing c with
  | zero => rfl
  | succ f ih =>
    unfold Ctl.drainHeld
    dsimp only
    (repeat' split) <;> simp [ih]
@[simp] theorem Ctl.drainHeld_guest (f n : Nat) (c : Ctl) : (Ctl.drainHeld f n c).guest = c.guest := by
  induction f generalizing c with
  | zero => rfl
  | succ f ih =>
    unfold Ctl.drainHeld
    dsimp only
    (repeat' split) <;> simp [ih]
@[simp] theorem Ctl.drainHeld_router (f n : Nat) (c : Ctl) : (Ctl.drainHeld f n c).router = c.router := by
  induction f generalizing c with
  | zero => rfl
  | succ f ih =>
    unfold Ctl.drainHeld
    dsimp only
    (repeat' split) <;> simp [ih]
@[simp] theorem Ctl.drainHeld_fabric (f n : Nat) (c : Ctl) : (Ctl.drainHeld f n c).fabric = c.fabric := by
  induction f generalizing c with
  | zero => rfl
  | succ f ih =>
    unfold Ctl.drainHeld
    dsimp only
    (repeat' split) <;> simp [ih]
@[simp] theorem Ctl.drainHeld_optics (f n : Nat) (c : Ctl) : (Ctl.drainHeld f n c).optics = c.optics := by
  induction f generalizing c with
  | zero => rfl
  | succ f ih =>
    unfold Ctl.drainHeld
    dsimp only
    (repeat' split) <;> simp [ih]
@[simp] theorem Ctl.drainHeld_colls (f n : Nat) (c : Ctl) : (Ctl.drainHeld f n c).colls = c.colls := by
  induction f generalizing c with
  | zero => rfl
  | succ f ih =>
    unfold Ctl.drainHeld
    dsimp only
    (repeat' split) <;> simp [ih]
@[simp] theorem Ctl.drainHeld_serve (f n : Nat) (c : Ctl) : (Ctl.drainHeld f n c).serve = c.serve := by
  induction f generalizing c with
  | zero => rfl
  | succ f ih =>
    unfold Ctl.drainHeld
    dsimp only
    (repeat' split) <;> simp [ih]

/-! `Ctl.unbind` changes at most `pairs`, `rc`. -/

@[simp] theorem Ctl.unbind_power (n : Nat) (c : Ctl) : (Ctl.unbind n c).power = c.power := by
  rfl
@[simp] theorem Ctl.unbind_alarms (n : Nat) (c : Ctl) : (Ctl.unbind n c).alarms = c.alarms := by
  rfl
@[simp] theorem Ctl.unbind_ready (n : Nat) (c : Ctl) : (Ctl.unbind n c).ready = c.ready := by
  rfl
@[simp] theorem Ctl.unbind_fnA (n : Nat) (c : Ctl) : (Ctl.unbind n c).fnA = c.fnA := by
  rfl
@[simp] theorem Ctl.unbind_fnB (n : Nat) (c : Ctl) : (Ctl.unbind n c).fnB = c.fnB := by
  rfl
@[simp] theorem Ctl.unbind_eth (n : Nat) (c : Ctl) : (Ctl.unbind n c).eth = c.eth := by
  rfl
@[simp] theorem Ctl.unbind_jobs (n : Nat) (c : Ctl) : (Ctl.unbind n c).jobs = c.jobs := by
  rfl
@[simp] theorem Ctl.unbind_tiles (n : Nat) (c : Ctl) : (Ctl.unbind n c).tiles = c.tiles := by
  rfl
@[simp] theorem Ctl.unbind_stacks (n : Nat) (c : Ctl) : (Ctl.unbind n c).stackTab = c.stackTab := by
  rfl
@[simp] theorem Ctl.unbind_chans (n : Nat) (c : Ctl) : (Ctl.unbind n c).chans = c.chans := by
  rfl
@[simp] theorem Ctl.unbind_cqs (n : Nat) (c : Ctl) : (Ctl.unbind n c).cqs = c.cqs := by
  rfl
@[simp] theorem Ctl.unbind_links (n : Nat) (c : Ctl) : (Ctl.unbind n c).links = c.links := by
  rfl
@[simp] theorem Ctl.unbind_guest (n : Nat) (c : Ctl) : (Ctl.unbind n c).guest = c.guest := by
  rfl
@[simp] theorem Ctl.unbind_router (n : Nat) (c : Ctl) : (Ctl.unbind n c).router = c.router := by
  rfl
@[simp] theorem Ctl.unbind_fabric (n : Nat) (c : Ctl) : (Ctl.unbind n c).fabric = c.fabric := by
  rfl
@[simp] theorem Ctl.unbind_optics (n : Nat) (c : Ctl) : (Ctl.unbind n c).optics = c.optics := by
  rfl
@[simp] theorem Ctl.unbind_colls (n : Nat) (c : Ctl) : (Ctl.unbind n c).colls = c.colls := by
  rfl
@[simp] theorem Ctl.unbind_serve (n : Nat) (c : Ctl) : (Ctl.unbind n c).serve = c.serve := by
  rfl

/-! `Ctl.openSession` changes at most `pairs`, `rc`. -/

@[simp] theorem Ctl.openSession_power (n k r : Nat) (j : List Nat) (c : Ctl) : ((Ctl.openSession n k r j c).2).power = c.power := by
  rfl
@[simp] theorem Ctl.openSession_alarms (n k r : Nat) (j : List Nat) (c : Ctl) : ((Ctl.openSession n k r j c).2).alarms = c.alarms := by
  rfl
@[simp] theorem Ctl.openSession_ready (n k r : Nat) (j : List Nat) (c : Ctl) : ((Ctl.openSession n k r j c).2).ready = c.ready := by
  rfl
@[simp] theorem Ctl.openSession_fnA (n k r : Nat) (j : List Nat) (c : Ctl) : ((Ctl.openSession n k r j c).2).fnA = c.fnA := by
  rfl
@[simp] theorem Ctl.openSession_fnB (n k r : Nat) (j : List Nat) (c : Ctl) : ((Ctl.openSession n k r j c).2).fnB = c.fnB := by
  rfl
@[simp] theorem Ctl.openSession_eth (n k r : Nat) (j : List Nat) (c : Ctl) : ((Ctl.openSession n k r j c).2).eth = c.eth := by
  rfl
@[simp] theorem Ctl.openSession_jobs (n k r : Nat) (j : List Nat) (c : Ctl) : ((Ctl.openSession n k r j c).2).jobs = c.jobs := by
  rfl
@[simp] theorem Ctl.openSession_tiles (n k r : Nat) (j : List Nat) (c : Ctl) : ((Ctl.openSession n k r j c).2).tiles = c.tiles := by
  rfl
@[simp] theorem Ctl.openSession_stacks (n k r : Nat) (j : List Nat) (c : Ctl) : ((Ctl.openSession n k r j c).2).stackTab = c.stackTab := by
  rfl
@[simp] theorem Ctl.openSession_chans (n k r : Nat) (j : List Nat) (c : Ctl) : ((Ctl.openSession n k r j c).2).chans = c.chans := by
  rfl
@[simp] theorem Ctl.openSession_cqs (n k r : Nat) (j : List Nat) (c : Ctl) : ((Ctl.openSession n k r j c).2).cqs = c.cqs := by
  rfl
@[simp] theorem Ctl.openSession_links (n k r : Nat) (j : List Nat) (c : Ctl) : ((Ctl.openSession n k r j c).2).links = c.links := by
  rfl
@[simp] theorem Ctl.openSession_guest (n k r : Nat) (j : List Nat) (c : Ctl) : ((Ctl.openSession n k r j c).2).guest = c.guest := by
  rfl
@[simp] theorem Ctl.openSession_router (n k r : Nat) (j : List Nat) (c : Ctl) : ((Ctl.openSession n k r j c).2).router = c.router := by
  rfl
@[simp] theorem Ctl.openSession_fabric (n k r : Nat) (j : List Nat) (c : Ctl) : ((Ctl.openSession n k r j c).2).fabric = c.fabric := by
  rfl
@[simp] theorem Ctl.openSession_optics (n k r : Nat) (j : List Nat) (c : Ctl) : ((Ctl.openSession n k r j c).2).optics = c.optics := by
  rfl
@[simp] theorem Ctl.openSession_colls (n k r : Nat) (j : List Nat) (c : Ctl) : ((Ctl.openSession n k r j c).2).colls = c.colls := by
  rfl
@[simp] theorem Ctl.openSession_serve (n k r : Nat) (j : List Nat) (c : Ctl) : ((Ctl.openSession n k r j c).2).serve = c.serve := by
  rfl

/-! `Ctl.draw` changes at most `rc`. -/

@[simp] theorem Ctl.draw_power (c : Ctl) : ((Ctl.draw c).2).power = c.power := by
  rfl
@[simp] theorem Ctl.draw_alarms (c : Ctl) : ((Ctl.draw c).2).alarms = c.alarms := by
  rfl
@[simp] theorem Ctl.draw_ready (c : Ctl) : ((Ctl.draw c).2).ready = c.ready := by
  rfl
@[simp] theorem Ctl.draw_fnA (c : Ctl) : ((Ctl.draw c).2).fnA = c.fnA := by
  rfl
@[simp] theorem Ctl.draw_fnB (c : Ctl) : ((Ctl.draw c).2).fnB = c.fnB := by
  rfl
@[simp] theorem Ctl.draw_pairs (c : Ctl) : ((Ctl.draw c).2).pairs = c.pairs := by
  rfl
@[simp] theorem Ctl.draw_eth (c : Ctl) : ((Ctl.draw c).2).eth = c.eth := by
  rfl
@[simp] theorem Ctl.draw_jobs (c : Ctl) : ((Ctl.draw c).2).jobs = c.jobs := by
  rfl
@[simp] theorem Ctl.draw_tiles (c : Ctl) : ((Ctl.draw c).2).tiles = c.tiles := by
  rfl
@[simp] theorem Ctl.draw_stacks (c : Ctl) : ((Ctl.draw c).2).stackTab = c.stackTab := by
  rfl
@[simp] theorem Ctl.draw_chans (c : Ctl) : ((Ctl.draw c).2).chans = c.chans := by
  rfl
@[simp] theorem Ctl.draw_cqs (c : Ctl) : ((Ctl.draw c).2).cqs = c.cqs := by
  rfl
@[simp] theorem Ctl.draw_links (c : Ctl) : ((Ctl.draw c).2).links = c.links := by
  rfl
@[simp] theorem Ctl.draw_guest (c : Ctl) : ((Ctl.draw c).2).guest = c.guest := by
  rfl
@[simp] theorem Ctl.draw_router (c : Ctl) : ((Ctl.draw c).2).router = c.router := by
  rfl
@[simp] theorem Ctl.draw_fabric (c : Ctl) : ((Ctl.draw c).2).fabric = c.fabric := by
  rfl
@[simp] theorem Ctl.draw_optics (c : Ctl) : ((Ctl.draw c).2).optics = c.optics := by
  rfl
@[simp] theorem Ctl.draw_colls (c : Ctl) : ((Ctl.draw c).2).colls = c.colls := by
  rfl
@[simp] theorem Ctl.draw_serve (c : Ctl) : ((Ctl.draw c).2).serve = c.serve := by
  rfl

/-! `Ctl.fresh` changes at most `rc`. -/

@[simp] theorem Ctl.fresh_power (c : Ctl) : ((Ctl.fresh c).2).power = c.power := by
  rfl
@[simp] theorem Ctl.fresh_alarms (c : Ctl) : ((Ctl.fresh c).2).alarms = c.alarms := by
  rfl
@[simp] theorem Ctl.fresh_ready (c : Ctl) : ((Ctl.fresh c).2).ready = c.ready := by
  rfl
@[simp] theorem Ctl.fresh_fnA (c : Ctl) : ((Ctl.fresh c).2).fnA = c.fnA := by
  rfl
@[simp] theorem Ctl.fresh_fnB (c : Ctl) : ((Ctl.fresh c).2).fnB = c.fnB := by
  rfl
@[simp] theorem Ctl.fresh_pairs (c : Ctl) : ((Ctl.fresh c).2).pairs = c.pairs := by
  rfl
@[simp] theorem Ctl.fresh_eth (c : Ctl) : ((Ctl.fresh c).2).eth = c.eth := by
  rfl
@[simp] theorem Ctl.fresh_jobs (c : Ctl) : ((Ctl.fresh c).2).jobs = c.jobs := by
  rfl
@[simp] theorem Ctl.fresh_tiles (c : Ctl) : ((Ctl.fresh c).2).tiles = c.tiles := by
  rfl
@[simp] theorem Ctl.fresh_stacks (c : Ctl) : ((Ctl.fresh c).2).stackTab = c.stackTab := by
  rfl
@[simp] theorem Ctl.fresh_chans (c : Ctl) : ((Ctl.fresh c).2).chans = c.chans := by
  rfl
@[simp] theorem Ctl.fresh_cqs (c : Ctl) : ((Ctl.fresh c).2).cqs = c.cqs := by
  rfl
@[simp] theorem Ctl.fresh_links (c : Ctl) : ((Ctl.fresh c).2).links = c.links := by
  rfl
@[simp] theorem Ctl.fresh_guest (c : Ctl) : ((Ctl.fresh c).2).guest = c.guest := by
  rfl
@[simp] theorem Ctl.fresh_router (c : Ctl) : ((Ctl.fresh c).2).router = c.router := by
  rfl
@[simp] theorem Ctl.fresh_fabric (c : Ctl) : ((Ctl.fresh c).2).fabric = c.fabric := by
  rfl
@[simp] theorem Ctl.fresh_optics (c : Ctl) : ((Ctl.fresh c).2).optics = c.optics := by
  rfl
@[simp] theorem Ctl.fresh_colls (c : Ctl) : ((Ctl.fresh c).2).colls = c.colls := by
  rfl
@[simp] theorem Ctl.fresh_serve (c : Ctl) : ((Ctl.fresh c).2).serve = c.serve := by
  rfl

/-! `Ctl.startWait` changes at most `pairs`, `rc`. -/

@[simp] theorem Ctl.startWait_power (k : Cmd) (h : Hdr) (x : WaitFor) (c : Ctl) : (Ctl.startWait k h x c).power = c.power := by
  rfl
@[simp] theorem Ctl.startWait_alarms (k : Cmd) (h : Hdr) (x : WaitFor) (c : Ctl) : (Ctl.startWait k h x c).alarms = c.alarms := by
  rfl
@[simp] theorem Ctl.startWait_ready (k : Cmd) (h : Hdr) (x : WaitFor) (c : Ctl) : (Ctl.startWait k h x c).ready = c.ready := by
  rfl
@[simp] theorem Ctl.startWait_fnA (k : Cmd) (h : Hdr) (x : WaitFor) (c : Ctl) : (Ctl.startWait k h x c).fnA = c.fnA := by
  rfl
@[simp] theorem Ctl.startWait_fnB (k : Cmd) (h : Hdr) (x : WaitFor) (c : Ctl) : (Ctl.startWait k h x c).fnB = c.fnB := by
  rfl
@[simp] theorem Ctl.startWait_eth (k : Cmd) (h : Hdr) (x : WaitFor) (c : Ctl) : (Ctl.startWait k h x c).eth = c.eth := by
  rfl
@[simp] theorem Ctl.startWait_jobs (k : Cmd) (h : Hdr) (x : WaitFor) (c : Ctl) : (Ctl.startWait k h x c).jobs = c.jobs := by
  rfl
@[simp] theorem Ctl.startWait_tiles (k : Cmd) (h : Hdr) (x : WaitFor) (c : Ctl) : (Ctl.startWait k h x c).tiles = c.tiles := by
  rfl
@[simp] theorem Ctl.startWait_stacks (k : Cmd) (h : Hdr) (x : WaitFor) (c : Ctl) : (Ctl.startWait k h x c).stackTab = c.stackTab := by
  rfl
@[simp] theorem Ctl.startWait_chans (k : Cmd) (h : Hdr) (x : WaitFor) (c : Ctl) : (Ctl.startWait k h x c).chans = c.chans := by
  rfl
@[simp] theorem Ctl.startWait_cqs (k : Cmd) (h : Hdr) (x : WaitFor) (c : Ctl) : (Ctl.startWait k h x c).cqs = c.cqs := by
  rfl
@[simp] theorem Ctl.startWait_links (k : Cmd) (h : Hdr) (x : WaitFor) (c : Ctl) : (Ctl.startWait k h x c).links = c.links := by
  rfl
@[simp] theorem Ctl.startWait_guest (k : Cmd) (h : Hdr) (x : WaitFor) (c : Ctl) : (Ctl.startWait k h x c).guest = c.guest := by
  rfl
@[simp] theorem Ctl.startWait_router (k : Cmd) (h : Hdr) (x : WaitFor) (c : Ctl) : (Ctl.startWait k h x c).router = c.router := by
  rfl
@[simp] theorem Ctl.startWait_fabric (k : Cmd) (h : Hdr) (x : WaitFor) (c : Ctl) : (Ctl.startWait k h x c).fabric = c.fabric := by
  rfl
@[simp] theorem Ctl.startWait_optics (k : Cmd) (h : Hdr) (x : WaitFor) (c : Ctl) : (Ctl.startWait k h x c).optics = c.optics := by
  rfl
@[simp] theorem Ctl.startWait_colls (k : Cmd) (h : Hdr) (x : WaitFor) (c : Ctl) : (Ctl.startWait k h x c).colls = c.colls := by
  rfl
@[simp] theorem Ctl.startWait_serve (k : Cmd) (h : Hdr) (x : WaitFor) (c : Ctl) : (Ctl.startWait k h x c).serve = c.serve := by
  rfl

/-! `Ctl.endRestart` changes at most `pairs`, `fnA`, `fnB`, `eth`, `rc`, `ready`. -/

@[simp] theorem Ctl.endRestart_power (i s r : Nat) (c : Ctl) : (Ctl.endRestart i s r c).power = c.power := by
  unfold Ctl.endRestart
  dsimp only
  split <;> simp
@[simp] theorem Ctl.endRestart_alarms (i s r : Nat) (c : Ctl) : (Ctl.endRestart i s r c).alarms = c.alarms := by
  unfold Ctl.endRestart
  dsimp only
  split <;> simp
@[simp] theorem Ctl.endRestart_jobs (i s r : Nat) (c : Ctl) : (Ctl.endRestart i s r c).jobs = c.jobs := by
  unfold Ctl.endRestart
  dsimp only
  split <;> simp
@[simp] theorem Ctl.endRestart_tiles (i s r : Nat) (c : Ctl) : (Ctl.endRestart i s r c).tiles = c.tiles := by
  unfold Ctl.endRestart
  dsimp only
  split <;> simp
@[simp] theorem Ctl.endRestart_stacks (i s r : Nat) (c : Ctl) : (Ctl.endRestart i s r c).stackTab = c.stackTab := by
  unfold Ctl.endRestart
  dsimp only
  split <;> simp
@[simp] theorem Ctl.endRestart_chans (i s r : Nat) (c : Ctl) : (Ctl.endRestart i s r c).chans = c.chans := by
  unfold Ctl.endRestart
  dsimp only
  split <;> simp
@[simp] theorem Ctl.endRestart_cqs (i s r : Nat) (c : Ctl) : (Ctl.endRestart i s r c).cqs = c.cqs := by
  unfold Ctl.endRestart
  dsimp only
  split <;> simp
@[simp] theorem Ctl.endRestart_links (i s r : Nat) (c : Ctl) : (Ctl.endRestart i s r c).links = c.links := by
  unfold Ctl.endRestart
  dsimp only
  split <;> simp
@[simp] theorem Ctl.endRestart_guest (i s r : Nat) (c : Ctl) : (Ctl.endRestart i s r c).guest = c.guest := by
  unfold Ctl.endRestart
  dsimp only
  split <;> simp
@[simp] theorem Ctl.endRestart_router (i s r : Nat) (c : Ctl) : (Ctl.endRestart i s r c).router = c.router := by
  unfold Ctl.endRestart
  dsimp only
  split <;> simp
@[simp] theorem Ctl.endRestart_fabric (i s r : Nat) (c : Ctl) : (Ctl.endRestart i s r c).fabric = c.fabric := by
  unfold Ctl.endRestart
  dsimp only
  split <;> simp
@[simp] theorem Ctl.endRestart_optics (i s r : Nat) (c : Ctl) : (Ctl.endRestart i s r c).optics = c.optics := by
  unfold Ctl.endRestart
  dsimp only
  split <;> simp
@[simp] theorem Ctl.endRestart_colls (i s r : Nat) (c : Ctl) : (Ctl.endRestart i s r c).colls = c.colls := by
  unfold Ctl.endRestart
  dsimp only
  split <;> simp
@[simp] theorem Ctl.endRestart_serve (i s r : Nat) (c : Ctl) : (Ctl.endRestart i s r c).serve = c.serve := by
  unfold Ctl.endRestart
  dsimp only
  split <;> simp

/-! Reactions. -/

/-- Nothing that a reaction depends on has changed. -/
theorem Ctl.calm_of_eq {old c : Ctl} (h1 : c.ready = old.ready) (h2 : c.router = old.router) (h3 : c.colls = old.colls)
    (h4 : c.serve = old.serve) (h5 : c.power = old.power) (h6 : c.tiles = old.tiles) : old.calm c = true := by
  simp [Ctl.calm, h1, h2, h3, h4, h5, h6]

theorem W.react_calm {old : Ctl} {w : W} (h : old.calm w.c = true) : w.react old = w := by
  simp [W.react, h]

@[simp] theorem State.world_c (s : State) : s.world.c = s.ctl := rfl
@[simp] theorem State.world_ty (s : State) : s.world.ty = s.tally := rfl
@[simp] theorem State.world_mem (s : State) : s.world.b.mem = s.mem := rfl
@[simp] theorem State.world_ops (s : State) : s.world.b.ops = [] := rfl
@[simp] theorem State.land_tally (s : State) (w : W) : (s.land w).tally = s.tally := rfl
@[simp] theorem State.land_pending (s : State) (w : W) : (s.land w).pending = s.pending := rfl

/-- A command whose effect is calm changes the module exactly by that effect. -/
theorem State.land_calm {s : State} {w : W} (h : s.ctl.calm w.c = true) :
    s.land w = { s with ctl := w.c, mem := s.mem.run w.b.ops } := by
  simp [State.land, W.react_calm h]

theorem State.act_on_calm {s : State} {f : Ctl → Ctl} (h : s.ctl.calm (f s.ctl) = true) :
    s.act (W.on f) = { s with ctl := f s.ctl } := by
  rw [State.act, State.land_calm (by exact h)]
  simp [W.on, Mem.run, State.world]

/-- Memory after a command: the operations of the meaning and of what follows from it, in order. -/
theorem State.land_mem (s : State) (w : W) : (s.land w).mem = s.mem.run (w.react s.ctl).b.ops := rfl

/-- Every command keeps memory in canonical form. -/
theorem State.act_wf (s : State) (f : W → W) (h : s.mem.wf = true) : (s.act f).mem.wf = true := Mem.run_wf _ h

/-- `ret` answers a next state exactly on a well-formed command. -/
@[simp] theorem ret_true (s : State) : ret true s = .next s := rfl
@[simp] theorem ret_false (s : State) : ret false s = .refused .illFormed := rfl

end Sys2Proof.Machine
end

