-- ==== Sys2Proof/Laws/Mbx.lean ====
section
/-! SUPPORT. What a mailbox row does, once for all of them. -/

namespace Sys2Proof.Machine

@[simp] theorem State.taken_c (s : State) (k : Cmd) (h : Hdr) : (s.taken k h).c = s.ctl.consume k h := rfl
@[simp] theorem State.taken_b (s : State) (k : Cmd) (h : Hdr) : (s.taken k h).b = { mem := s.mem } := rfl
@[simp] theorem State.taken_ty (s : State) (k : Cmd) (h : Hdr) : (s.taken k h).ty = s.tally := rfl

variable {k : Cmd} {h : Hdr} {args : List Arg} {refs : List Ref} {s : State} {f : Ctx → W → Res}

/-- A command with no block behind its arguments has no references. -/
@[simp] theorem inlineBlocks_nil (h : Hdr) (args : List Arg) : inlineBlocks h args [] = [] := by simp [inlineBlocks]

theorem accepts_iff : accepts k h args refs s = true ↔
    hdrOk h = true ∧ s.ctl.mbxReady h = true ∧ s.ctl.refusal k h args refs = none := by
  simp [accepts, and_assoc]

/-- An accepted command does what its own chapter's function answers. -/
theorem mbxRow_accepted (ha : accepts k h args refs s = true) :
    mbxRow k h args refs s f = .next (s.land (match f (s.ctl.ctxOf h.pair) (s.taken k h) with
      | .fail st d => (s.taken k h).on (Ctl.answer k h st d [])
      | .failWith st d w2 => w2.on (Ctl.answer k h st d [])
      | .ok body w2 => w2.on (Ctl.answer k h 0 0 body)
      | .okThen body w2 g => (w2.on (Ctl.answer k h 0 0 body)).on g
      | .okAfter body w2 g => g (w2.on (Ctl.answer k h 0 0 body))
      | .wait what w2 => w2.on fun c =>
          (c.updPair h.pair fun p => { p with started := p.started + 1 }).onRc fun r =>
            { r with waits := r.waits ++ [⟨some h.pair, k.op, h.seq, h.corr, what⟩] })) := by
  obtain ⟨h1, h2, h3⟩ := accepts_iff.mp ha
  simp only [mbxRow, h1, ret_true, State.act, mbx, State.world_c, h2, h3, if_true]
  rfl

theorem mbxRow_ok {body : List Byte} {w : W} (ha : accepts k h args refs s = true)
    (hf : f (s.ctl.ctxOf h.pair) (s.taken k h) = .ok body w) :
    mbxRow k h args refs s f = .next (s.land (w.on (Ctl.answer k h 0 0 body))) := by
  rw [mbxRow_accepted ha, hf]

theorem mbxRow_okThen {body : List Byte} {w : W} {g : Ctl → Ctl} (ha : accepts k h args refs s = true)
    (hf : f (s.ctl.ctxOf h.pair) (s.taken k h) = .okThen body w g) :
    mbxRow k h args refs s f = .next (s.land ((w.on (Ctl.answer k h 0 0 body)).on g)) := by
  rw [mbxRow_accepted ha, hf]

theorem mbxRow_okAfter {body : List Byte} {w : W} {g : W → W} (ha : accepts k h args refs s = true)
    (hf : f (s.ctl.ctxOf h.pair) (s.taken k h) = .okAfter body w g) :
    mbxRow k h args refs s f = .next (s.land (g (w.on (Ctl.answer k h 0 0 body)))) := by
  rw [mbxRow_accepted ha, hf]

theorem mbxRow_wait {x : WaitFor} {w : W} (ha : accepts k h args refs s = true)
    (hf : f (s.ctl.ctxOf h.pair) (s.taken k h) = .wait x w) :
    mbxRow k h args refs s f = .next (s.land (w.on (Ctl.startWait k h x))) := by
  rw [mbxRow_accepted ha, hf]
  rfl

/-- A command that only changes the controllers, calmly, and succeeds. -/
theorem mbxRow_done {body : List Byte} {g : Ctl → Ctl} (ha : accepts k h args refs s = true)
    (hf : f (s.ctl.ctxOf h.pair) (s.taken k h) = .ok body ((s.taken k h).on g))
    (hc : s.ctl.calm ((g (s.ctl.consume k h)).answer k h 0 0 body) = true) :
    mbxRow k h args refs s f = .next (s.done k h g body) := by
  rw [mbxRow_ok ha hf, State.land_calm (by exact hc)]
  simp [State.done, Mem.run]

/-- A command that changes nothing and succeeds: a read. -/
theorem mbxRow_read {body : List Byte} (ha : accepts k h args refs s = true)
    (hf : f (s.ctl.ctxOf h.pair) (s.taken k h) = .ok body (s.taken k h)) :
    mbxRow k h args refs s f = .next (s.done k h id body) :=
  mbxRow_done ha hf (Ctl.calm_of_eq (by simp) (by simp) (by simp) (by simp) (by simp) (by simp))

/-- A command that its own chapter refuses changes nothing but its ring. -/
theorem mbxRow_fail {st d : Nat} (ha : accepts k h args refs s = true)
    (hf : f (s.ctl.ctxOf h.pair) (s.taken k h) = .fail st d) :
    mbxRow k h args refs s f = .next (s.failed k h st d) := by
  rw [mbxRow_accepted ha, hf]
  rw [State.land_calm]
  · simp [State.failed, Mem.run]
  · exact Ctl.calm_of_eq (by simp) (by simp) (by simp) (by simp) (by simp) (by simp)

/-- A command that fails a check of R523 answers that check's STATUS and DETAIL and changes nothing but its ring. -/
theorem mbxRow_refused {st d : Nat} (hh : hdrOk h = true) (hr : s.ctl.mbxReady h = true)
    (hf : s.ctl.refusal k h args refs = some (st, d)) :
    mbxRow k h args refs s f = .next (s.failed k h st d) := by
  simp only [mbxRow, hh, ret_true, State.act, mbx, State.world_c, hr, hf, if_true]
  rw [State.land_calm]
  · simp [State.failed, Mem.run, State.world, W.on]
  · exact Ctl.calm_of_eq (by simp) (by simp) (by simp) (by simp) (by simp) (by simp)

/-- A command that the RC cannot take yet changes nothing. -/
theorem mbxRow_notReady (hh : hdrOk h = true) (hr : s.ctl.mbxReady h = false) :
    mbxRow k h args refs s f = .next s := by
  simp only [mbxRow, hh, ret_true, State.act, mbx, State.world_c, hr]
  rw [State.land_calm]
  · simp [State.world, Mem.run]
  · exact Ctl.calm_of_eq rfl rfl rfl rfl rfl rfl

/-- Nothing of the pairs but the indices and the expected CMD_SEQ changes as a command is taken. -/
@[simp] theorem Ctl.consume_pair_st (k : Cmd) (h : Hdr) (c : Ctl) : ((c.consume k h).pair h.pair).st = (c.pair h.pair).st := by
  simp [Ctl.consume, Ctl.updPair, Ctl.setPair, Ctl.pair]
@[simp] theorem Ctl.consume_pair_started (k : Cmd) (h : Hdr) (c : Ctl) :
    ((c.consume k h).pair h.pair).started = (c.pair h.pair).started := by
  simp [Ctl.consume, Ctl.updPair, Ctl.setPair, Ctl.pair]
@[simp] theorem Ctl.consume_pair_session (k : Cmd) (h : Hdr) (c : Ctl) :
    ((c.consume k h).pair h.pair).session = (c.pair h.pair).session := by
  simp [Ctl.consume, Ctl.updPair, Ctl.setPair, Ctl.pair]
@[simp] theorem Ctl.consume_pair_challenge (k : Cmd) (h : Hdr) (c : Ctl) :
    ((c.consume k h).pair h.pair).challenge = (c.pair h.pair).challenge := by
  simp [Ctl.consume, Ctl.updPair, Ctl.setPair, Ctl.pair]
@[simp] theorem Ctl.consume_pair_fn (k : Cmd) (h : Hdr) (c : Ctl) : ((c.consume k h).pair h.pair).fn = (c.pair h.pair).fn := by
  simp [Ctl.consume, Ctl.updPair, Ctl.setPair, Ctl.pair]
@[simp] theorem Ctl.consume_pair_remote (k : Cmd) (h : Hdr) (c : Ctl) :
    ((c.consume k h).pair h.pair).remote.isSome = (c.pair h.pair).remote.isSome := by
  simp [Ctl.consume, Ctl.updPair, Ctl.setPair, Ctl.pair]

@[simp] theorem Ctl.consume_tick (k : Cmd) (h : Hdr) (c : Ctl) : (c.consume k h).tick = c.tick := rfl
@[simp] theorem Ctl.consume_entry (k : Cmd) (h : Hdr) (c : Ctl) (i : Nat) : (c.consume k h).entry i = c.entry i := rfl
@[simp] theorem Ctl.consume_shown (k : Cmd) (h : Hdr) (c : Ctl) (i : Nat) : (c.consume k h).shown i = c.shown i := rfl
@[simp] theorem Ctl.consume_stateOf (k : Cmd) (h : Hdr) (c : Ctl) (i : Nat) : (c.consume k h).stateOf i = c.stateOf i := rfl
@[simp] theorem Ctl.consume_readyWord (k : Cmd) (h : Hdr) (c : Ctl) (i : Nat) : (c.consume k h).readyWord i = c.readyWord i := rfl
@[simp] theorem Ctl.consume_tile (k : Cmd) (h : Hdr) (c : Ctl) (i : Nat) : (c.consume k h).tile i = c.tile i := rfl
@[simp] theorem Ctl.consume_stack (k : Cmd) (h : Hdr) (c : Ctl) (i : Nat) : (c.consume k h).stack i = c.stack i := rfl
@[simp] theorem Ctl.consume_port (k : Cmd) (h : Hdr) (c : Ctl) (i : Nat) : (c.consume k h).port i = c.port i := rfl
@[simp] theorem Ctl.consume_oport (k : Cmd) (h : Hdr) (c : Ctl) (i : Nat) : (c.consume k h).oport i = c.oport i := rfl
@[simp] theorem Ctl.consume_link (k : Cmd) (h : Hdr) (c : Ctl) (i : Nat) : (c.consume k h).link i = c.link i := rfl
@[simp] theorem Ctl.consume_ethPort (k : Cmd) (h : Hdr) (c : Ctl) (i : Nat) : (c.consume k h).ethPort i = c.ethPort i := rfl
@[simp] theorem Ctl.consume_fn (k : Cmd) (h : Hdr) (c : Ctl) (i : Nat) : (c.consume k h).fn i = c.fn i := rfl
@[simp] theorem Ctl.consume_selfModule (k : Cmd) (h : Hdr) (c : Ctl) : (c.consume k h).selfModule = c.selfModule := rfl
@[simp] theorem Ctl.consume_jobLive (k : Cmd) (h : Hdr) (c : Ctl) (i : Nat) : (c.consume k h).jobLive i = c.jobLive i := rfl
@[simp] theorem Ctl.consume_jobEnding (k : Cmd) (h : Hdr) (c : Ctl) (i : Nat) : (c.consume k h).jobEnding i = c.jobEnding i := rfl
@[simp] theorem Ctl.consume_jobOfTile (k : Cmd) (h : Hdr) (c : Ctl) (i : Nat) : (c.consume k h).jobOfTile i = c.jobOfTile i := rfl

/-- Ids of the message that a response is. -/
theorem Ctl.answer_eq (k : Cmd) (h : Hdr) (st d : Nat) (b : List Byte) (c : Ctl) :
    c.answer k h st d b = c.respond h.pair k.op h.seq h.corr st d b := rfl

end Sys2Proof.Machine
end

