-- ==== Sys2Proof/Laws/Tile.lean ====
section
/-! SUPPORT. What the dispatch of a tile instruction does, once for all rows. -/

namespace Sys2Proof.Machine

variable {d : Dispatch} {mine : Nat → Bool} {go : Tile → Nat → W → W} {s : State}

theorem canDispatch_iff : canDispatch d mine s = true ↔
    d.tile < 192 ∧ (s.tileOf d).dispatching = true ∧ (s.tileOf d).pc ≤ 1023 ∧ d.ecc = false ∧ mine (s.wordOf d) = true ∧
      worst (checkWord (s.tileOf d) (s.wordOf d) (s.ctl.sameJob d.tile)) = none ∧ (s.tileOf d).roomFor (s.wordOf d) = true := by
  simp [canDispatch, State.tileOf, State.wordOf, and_assoc]

@[simp] theorem loseLines_c (n : Nat) (l : List (Bool × Nat)) (w : W) : (w.loseLines n l).c = w.c := rfl

@[simp] theorem loseLines_nil (n : Nat) (w : W) : w.loseLines n [] = w := rfl

/-- An instruction that can be dispatched has its effect, on memory with the lines lost poisoned. -/
theorem tileRow_go (h : canDispatch d mine s = true) :
    tileRow d mine go s = .next (s.land (go (s.tileOf d) (s.wordOf d) (s.world.loseLines d.tile d.lost))) := by
  obtain ⟨h1, h2, h3, h4, h5, h6, h7⟩ := canDispatch_iff.mp h
  have h3' : ¬ 1023 < (s.tileOf d).pc := by omega
  simp only [State.tileOf, State.wordOf] at h2 h3' h5 h6 h7
  simp [tileRow, h1, State.act, W.dispatch, h2, h3', h4, h5, h6, h7, State.tileOf, State.wordOf]

@[simp] theorem ownsTile_consume (k : Cmd) (h : Hdr) (c : Ctl) (x : Ctx) (n : Nat) :
    ownsTile (c.consume k h) x n = ownsTile c x n := rfl
@[simp] theorem tileRefuse_consume (k : Cmd) (h : Hdr) (c : Ctl) (x : Ctx) (n : Nat) :
    tileRefuse (c.consume k h) x n = tileRefuse c x n := rfl
@[simp] theorem outstanding_consume (k : Cmd) (h : Hdr) (c : Ctl) (n : Nat) :
    (c.consume k h).outstanding n = c.outstanding n := rfl

end Sys2Proof.Machine
end

