-- ==== Sys2Proof/Tests/Slice0.lean ====
section
/-! SUPPORT. Tests: ill-formed commands are refused, the spec's worked values come out, and the hypotheses of each
statement are met by a concrete state and operands. -/

namespace Sys2Proof.Tests

open Sys2Proof Sys2Proof.Machine

set_option maxRecDepth 100000

/-- A module at work: rails up, every entry READY, the RC running, job 1 with tile 0, and on pair 0 an OWNER session whose
ring holds the next command, CMD_SEQ 1. -/
def ctl0 : Ctl :=
  { rc := { run := 3, started := true, creds := [(1, ⟨0, [], [], 7⟩), (2, ⟨0, [], [], 7⟩)] }
    power := { standby := true, tickOn := true, tick := 100000000000, inputOk := true, rails := 63, seat := true }
    ready := (List.range 54).map fun i => (i, { st := 2 })
    fnA := { perst := false, linkUp := true, width := 8, rate := 6 }
    fnB := { perst := false, linkUp := true, width := 8, rate := 6 }
    pairs := [(0, { st := .opened, session := some { id := 1, cred := 1, role := 0, jobs := [] }, cmdPi := 64, expSeq := 1 })]
    jobs := [(1, { tiles := [0] })] }

def demo : State := { State.reset with ctl := ctl0 }

def via (f : Ctl → Ctl) : State := { State.reset with ctl := f ctl0 }

/-- The session of pair 0 in another role, with job 1. -/
def asRole (r : Nat) : Ctl → Ctl := Ctl.updPair 0 fun p => { p with session := some { id := 1, cred := 1, role := r, jobs := [1] } }

/-- Pair 0 in another state, with no session. -/
def noSession (st : PairState) : Ctl → Ctl := Ctl.updPair 0 fun p => { p with st, session := none }

/-- The header of the next command on pair 0. -/
def hdr (args : List Arg) (refs : List Ref) (seq : Nat := 1) : Hdr :=
  ⟨0, unitsOf (max (argEnd args) (Ctl.inlineEnd refs)), seq, 7, none⟩

abbrev Ok (k : Cmd) (args : List Arg) (refs : List Ref) (s : State) : Prop := accepts k (hdr args refs) args refs s = true

/-! Chapter 17: the mailbox. -/

theorem test_hyp_systemReads :
    Ok { op := 0x0104, any := true, lock := true, gesso := true } [] [] demo ∧
    Ok { op := 0x0105, any := true, lock := true, gesso := true } [] [] (via (noSession .negotiated)) ∧
    Ok { op := 0x0108, roles := [0], lock := true } [Arg.num 4 true, Arg.num 1 true] [] demo ∧
    Ok { op := 0x0112, roles := [0] } [Arg.num 2 true, Arg.num 1 true] [] demo ∧
    Ok { op := 0x05E1, roles := [0, 1, 2], lock := true } [Arg.num 2 (jobNumOk 1)] [] (via (asRole 1)) ∧
    (via (asRole 1)).ctl.jobs.get? 1 = some { tiles := [0] } ∧ ((via (asRole 1)).ctl.ctxOf 0).owns 1 = true := by decide

def vArgs : List Arg := [Arg.num 1 true, Arg.num 1 true, Arg.num 1 true, Arg.num 1 true]

theorem test_hyp_versionAndChallenge :
    accepts { op := 0x0100, any := true, lock := true, gesso := true } (hdr vArgs [] 0) vArgs []
      (via (noSession .bound)) = true ∧ ((via (noSession .bound)).ctl.pair 0).st = .bound ∧ (1 < 1 ∨ (1 = 1 ∧ 0 = 0)) ∧
    Ok { op := 0x0101, any := true, lock := true } [] [] (via (noSession .negotiated)) ∧
    ((via (noSession .negotiated)).ctl.pair 0).st = .negotiated := by decide

def challenged : State := via fun c => (noSession .negotiated c).updPair 0 fun p => { p with challenge := some (5, 200000000000) }
def openArgs : List Arg := [Arg.num 2 true, Arg.num 1 true, Arg.blk 32 true, Arg.blk 32 true]
def openProof : List Byte := sessionProof [] 5 (zeros 32) 0 1 0 "OLM"

theorem test_hyp_sessionOpens :
    (challenged.ctl.pair 0).st = .negotiated ∧ (challenged.ctl.pair 0).challenge = some (5, 200000000000) ∧
    challenged.ctl.tick < 200000000000 ∧ challenged.ctl.rc.creds.get? 1 = some ⟨0, [], [], 7⟩ ∧
    ¬ challenged.ctl.tick < (challenged.ctl.rc.credFails.getD 1 (0, 0)).2 ∧
    Ok { op := 0x0102, any := true, lock := true } openArgs [] challenged := by decide

theorem test_hyp_sessionOpens_good : (0 = 0 ∧ bit 7 (challenged.ctl.pair 0).fn = true) ∧
    openProof = sessionProof [] 5 (zeros 32) 0 1 0 "OLM" := ⟨by decide, rfl⟩

theorem test_hyp_sessionOpens_length : (openProof.length = 32) := by decide

theorem test_hyp_sessionEnds : (demo.ctl.pair 0).started = 0 ∧ Ok { op := 0x0103, lock := true } [] [] demo ∧
    Ok { op := 0x0106, any := true, lock := true } [] [] demo := by decide

def credArgs : List Arg := [Arg.num 2 true, Arg.num 1 true, Arg.blk 32 true] ++ listArgs 1 true ++ [Arg.num 1 true]

theorem test_hyp_systemWrites :
    (credOk 1023 = true ∧ demo.ctl.rc.creds.has 1023 = false ∧ (∀ j ∈ [1], 1 ≤ j ∧ j < 65536) ∧
      Ok { op := 0x0110, roles := [0] } credArgs [] demo) ∧
    (demo.ctl.rc.creds.get? 1 = some ⟨0, [], [], 7⟩ ∧ 2 ≤ (demo.ctl.rc.creds.vals.filter (·.role = 0)).length ∧
      Ok { op := 0x0111, roles := [0] } [Arg.num 2 (credOk 1)] [] demo) ∧
    (let s := via fun c => (noSession .negotiated c).onRc fun r => { r with creds := [] }
     (s.ctl.pair 0).st = .negotiated ∧ (s.ctl.pair 0).remote = none ∧ (∀ k ∈ s.ctl.rc.creds.vals, k.role ≠ 0) ∧
      s.ctl.rc.creds.firstFree 1 1023 = some 1 ∧
      Ok { op := 0x0113, any := true, lock := true } [Arg.blk 32 true, Arg.num 1 true] [] s) ∧
    Ok { op := 0x0140, roles := [0] } [Arg.num 1 true, Arg.num 1 true, Arg.num 2 true] [] demo ∧
    (demo.ctl.jobs.has 65535 = false ∧ (∀ t ∈ [1, 191], demo.ctl.jobOfTile t = none) ∧ demo.ctl.jobs.length < 64 ∧
      Ok { op := 0x05E0, roles := [0] } [Arg.num 2 (jobNumOk 65535), Arg.blk 24 true] [] demo) := by decide

theorem test_hyp_mailboxDoorbells :
    (223 < 224 ∧ (demo.ctl.pair 223).st = .unbound ∧ demo.ctl.rc.run = 3 ∧ 64 % 64 = 0) ∧
    ((demo.ctl.pair 0).st ≠ .unbound ∧ (demo.ctl.pair 0).fn = 0) ∧
    (Ctl.diff32 64 (demo.ctl.pair 0).cmdPi < 2 ^ 31 ∧ Ctl.diff32 64 (demo.ctl.pair 0).cmdCi ≤ (demo.ctl.pair 0).cmdN) ∧
    (demo.ctl.pair 0).cmdN < Ctl.diff32 65 (demo.ctl.pair 0).cmdCi ∧
    widenIndex 0 (demo.ctl.pair 0).rspCi (demo.ctl.pair 0).rspPi = some 0 ∧
    widenIndex 0 (demo.ctl.pair 0).evtCi (demo.ctl.pair 0).evtPi = some 0 ∧
    (let s := via fun c => c.updPair 255 fun p => { p with challenge := some (1, 100000000000) }
     (s.ctl.pair 255).challenge = some (1, 100000000000) ∧ 100000000000 ≤ s.ctl.tick) := by decide

/-! Chapters 17 and 18: the host's registers, the PCIe ports and Ethernet. -/

theorem test_hyp_hostReads :
    Ok { op := 0x0130, roles := [0, 2], lock := true } [Arg.num 1 true] [] demo ∧
    Ok { op := 0x0135, roles := [0, 2], lock := true } [Arg.num 1 true] [] (via (asRole 2)) ∧
    Ok { op := 0x0701, roles := [0, 2], lock := true } [] [] demo ∧
    Ok { op := 0x0702, roles := [0, 1], lock := true } [] [] (via (asRole 1)) := by decide

def preset (f : Fn → Fn) : State := via fun c => c.updFn 1 f

theorem test_hyp_pciePorts :
    (demo.ctl.fn 1).linkUp = true ∧ (demo.ctl.fn 1).perst = false ∧
    ((preset fun f => { f with perst := true }).ctl.fn 1).perst = true ∧ demo.ctl.rc.started = true ∧
    demo.ctl.stateOf (1 + 1) ≠ 4 ∧ 8 ∈ [1, 2, 4, 8] ∧ 1 ≤ 6 ∧
    (let s := via fun c => c.setEntry 2 { st := 1 }
     (s.ctl.entry (1 + 1)).st = 1 ∧ (s.ctl.fn 1).trainStart + 1000000000 ≤ s.ctl.tick) := by decide

def frame : EthFrame :=
  { fcsOk := true, len := 1522, vlan := 0, fragment := false, options := false, dst := 0, proto := 2, toIp := 5, udpPort := 47110 }

theorem test_hyp_ethernetPorts :
    (let s := via fun c => c.updEth 1 fun e => { e with cfg := ⟨1, 5, 24, 0, 0, 0⟩ }
     s.ctl.stateOf (52 + 1) = 2 ∧ ({ frame with fcsOk := false }).fcsOk = false ∧ frame.fcsOk = true ∧ frame.len ≤ 1522 ∧
     frame.vlan = (s.ctl.ethPort 1).cfg.vlan ∧ frame.fragment = false ∧ frame.options = false ∧ (s.ctl.ethPort 1).cfg.ip ≠ 0 ∧
     frame.dst = 0 ∧ frame.proto = 2 ∧ frame.toIp = (s.ctl.ethPort 1).cfg.ip ∧
     (frame.udpPort = s.ctl.serve.port ∨ frame.udpPort = s.ctl.rc.mgmtPort) ∧
     (s.ctl.ethPort 1).rxQ.foldl (· + ·) 0 + frame.len ≤ 4194304) ∧
    Ok { op := 0x0134, roles := [0] } [Arg.num 1 true, Arg.num 1 true, Arg.num 4 true, Arg.num 1 true, Arg.num 4 true,
      Arg.num 2 true, Arg.num 1 true] [] demo := by decide

/-! Chapters 5 and 6: the tiles. -/

/-- Tile 0 runs a program whose next word, at PC 0, is w. -/
def tileAt (w : Nat) (f : Tile → Tile) : State :=
  via fun c => c.setTile 0 (f { lanes := seedLanes 0, st := .running, imem := [(0, w)], progLen := 8 })

def d0 : Dispatch := { tile := 0, ecc := false }

/-- An entry of 64 E4M3 ones. -/
def ones : FeedEntry := ⟨0, 0, 0, List.replicate 64 0x38, []⟩

def heldTile : Tile → Tile := fun t => { t with holdFmt := some 0, rows := [(0, { hold := [ones, ones], holdN := 2 })] }

theorem test_hyp_sequencerInstructions :
    canDispatch d0 (opIs 0x04) (tileAt 0x04 fun t => { t with rows := [(0, { queue := [ones], committed := [0] })] }) = true ∧
    canDispatch d0 (fun w => opIs 0x08 w && !bit w 16) (tileAt 0x00000081014001800000000000000008 id) = true ∧
    canDispatch d0 (opIs 0x0E) (tileAt (0x0E + 2 ^ 20) id) = true ∧
    canDispatch d0 (opIs 0x0F) (tileAt 0x0F fun t => { t with ranges := [(0, (1, 1))] }) = true ∧
    canDispatch d0 (opIs 0x10) (tileAt (0x10 + 2 ^ 16 + 2 ^ 26) id) = true ∧ canDispatch d0 (opIs 0x11) (tileAt 0x11 id) = true := by
  decide

theorem test_hyp_tokenInstructions :
    (let s := tileAt (0x0B + 2 ^ 20) fun t => { t with tokens := [(0, 1)] }
     canDispatch d0 (opIs 0x0B) s = true ∧ bits (s.wordOf d0) 35 20 ≤ (s.tileOf d0).token (bits (s.wordOf d0) 19 16)) ∧
    (let s := tileAt (0x0B + 2 ^ 20) id
     canDispatch d0 (opIs 0x0B) s = true ∧ (s.tileOf d0).token (bits (s.wordOf d0) 19 16) < bits (s.wordOf d0) 35 20) ∧
    (let s := tileAt (0x0C + 2 ^ 20) id
     canDispatch d0 (opIs 0x0C) s = true ∧ bit (s.wordOf d0) 44 = false) ∧
    (let s := tileAt (0x0D + 2 ^ 16) id
     canDispatch d0 (opIs 0x0D) s = true ∧ ∀ f ∈ (s.tileOf d0).inflight, bit (s.wordOf d0) (16 + f.cls) = false) := by decide

def mmaWord : Nat := 0x05 + 2 * 2 ^ 56

theorem test_hyp_unitEntries :
    canDispatch d0 (opIs 0x05) (tileAt mmaWord heldTile) = true ∧ canDispatch d0 (opIs 0x06) (tileAt 0x06 heldTile) = true ∧
    canDispatch d0 (opIs 0x07) (tileAt 0x07 id) = true ∧
    canDispatch d0 (fun w => opIs 0x08 w && bit w 16) (tileAt (0x08 + 2 ^ 16) id) = true ∧
    canDispatch d0 (opIs 0x03) (tileAt (0x03 + 2 * 2 ^ 36) id) = true := by decide

theorem test_hyp_meshInstructions :
    canDispatch d0 (opIs 0x01) (tileAt 0x01 id) = true ∧ canDispatch d0 (opIs 0x02) (tileAt 0x02 id) = true ∧
    canDispatch d0 (opIs 0x09) (tileAt 0x09 id) = true ∧ canDispatch d0 (opIs 0x0A) (tileAt 0x0A id) = true := by decide

def oneFlight : Inflight := { id := 0, unit := 0, cls := 0, pc := 0, word := 0x05, replayId := 0, token := 1 }

theorem test_hyp_tileEvents :
    (let t := (tileAt 0x11 fun t => { t with ending := true }).ctl.tile 0
     t.st = .running ∧ t.ending = true ∧ t.inflight = [] ∧ t.after = []) ∧
    (let t := (tileAt 0x05 fun t => { t with inflight := [oneFlight] }).ctl.tile 0
     t.inflight[0]? = some oneFlight ∧ t.complete oneFlight = true ∧ t.after = [] ∧ oneFlight.token ≠ 0) ∧
    (let s := tileAt 0x0B fun t => { t with wait := some ⟨15, 1, some 100000000000⟩ }
     (s.ctl.tile 0).wait = some ⟨15, 1, some 100000000000⟩ ∧ 100000000000 ≤ s.ctl.tick) := by decide

/-- A block of a program of one END (R199), and of no base registers. -/
def progRef : Ref := { kind := 0, key := 0, addr := 128, len := 16, block := leBytes 16 0x11, readable := true }
def basesRef : Ref := { kind := 0, key := 0, addr := 192, len := 256, block := zeros 256, readable := true }

theorem test_hyp_tileCommands :
    let s := via (asRole 1)
    let h := hdr [] []
    let x := s.ctl.ctxOf 0
    tileRefuse s.ctl x 0 = none ∧ (s.ctl.tile 0).st ≠ .running ∧ ownsTile s.ctl x 0 = true ∧
    progOk (refBlock s progRef) = true ∧ basesOk (refBlock s basesRef) = true ∧
    Ok { op := 0x0301, roles := [0, 1] } [tileArg 0, refArg s h progRef, refArg s h basesRef] [progRef, basesRef] s ∧
    Ok { op := 0x0306, roles := [0, 1] } [Arg.blk 24 true, refArg s h progRef, refArg s h basesRef] [progRef, basesRef] s ∧
    Ok { op := 0x0302, roles := [0, 1] } [tileArg 0, Arg.num 2 true] [] s ∧
    Ok { op := 0x0307, roles := [0, 1] } [Arg.blk 24 true, Arg.num 2 true] [] s ∧
    Ok { op := 0x0303, roles := [0, 1] } [tileArg 0] [] (tileAt 0x11 id) ∧ ((tileAt 0x11 id).ctl.tile 0).st ≠ .idle ∧
    Ok { op := 0x0304, roles := [0, 1] } [tileArg 0] [] s ∧ Ok { op := 0x0305, roles := [0, 1], lock := true } [tileArg 0] [] s ∧
    Ok { op := 0x0308, roles := [0, 1] } [tileArg 0, Arg.num 8 true] [] s ∧ Ok { op := 0x0309, roles := [0, 1] } [tileArg 0] [] s := by
  decide

/-! Chapters 7 and 8: the stacks and their Palettes. -/

def onStack (f : Stack → Stack) : State := via fun c => c.updStack 7 f

theorem test_hyp_stackCommands :
    Ok { op := 0x0230, roles := [0] } [stackArg 7, Arg.num 1 true] [] demo ∧
    (demo.ctl.usable (7 + 7) = true ∧ 15 < 16 ∧ ((demo.ctl.stack 7).chan 127).carry.has 15 = false ∧
      ((demo.ctl.stack 7).chan 127).copy = none ∧ ((demo.ctl.stack 7).chan 127).deadLanes.contains 15 = false ∧
      ((demo.ctl.stack 7).chan 127).freeSpare = some 16 ∧
      Ok { op := 0x0231, roles := [0] } [stackArg 7, Arg.num 1 true, Arg.num 1 true] [] demo) ∧
    Ok { op := 0x0232, roles := [0, 3] } [stackArg 7, Arg.num 4 true, Arg.num 1 true] [] (via (asRole 3)) ∧
    Ok { op := 0x0233, roles := [0, 1], lock := true } [stackArg 7] [] (via (asRole 1)) := by decide

theorem test_hyp_stackEvents :
    (flipsOk [⟨0, 0, 1⟩] = true ∧ 2 ≤ (demo.ctl.entry (7 + 7)).st ∧ (demo.ctl.stack 7).band ≠ 4 ∧
      ((demo.ctl.stack 7).chan 127).copy = none) ∧
    (let s := onStack fun s => s.updChan 127 fun c => { c with copy := some (15, 19) }
     let x := s.ctl.stack 7
     (x.chan 127).copy = some (15, 19) ∧ x.band ≠ 4 ∧ (x.chan 127).lost = false ∧ 2 ≤ (s.ctl.entry (7 + 7)).st ∧
     (x.chan 127).copyAt < chanLines) ∧
    (let s := via fun c => (c.setEntry 14 { st := 1 }).updStack 7 fun x => { x with firstReading := false }
     (∀ f ∈ [(127, 19)], f.1 < 128 ∧ f.2 < 20) ∧ (s.ctl.entry (7 + 7)).st = 1 ∧ (s.ctl.stack 7).firstReading = false ∧
      (s.ctl.stack 7).band ≠ 4) := by decide

def queueOf (waiting : List (List Byte)) : PalQueue := { job := 1, regions := [(0, 0)], ring := none, window := 1, session := 1, waiting }

def palState (waiting : List (List Byte)) : State :=
  via fun c => (asRole 1 c).updStack 7 fun s => { s with queues := [(31, queueOf waiting)] }

def palCmd (op : Nat) : List Byte := BitVec.ofNat 8 op :: zeros 63

theorem test_hyp_paletteCommands :
    (let s := via fun c => asRole 1 c
     let kc : Cmd := { op := 0x0240, roles := [0, 1] }
     let args := [stackArg 7, Arg.num 2 true] ++ listArgs 0 true ++ [Arg.num 8 true, Arg.num 4 true]
     jobCheck s.ctl (s.ctl.ctxOf 0) 1 18 = none ∧ s.ctl.usable (7 + 7) = true ∧ palRegionsFail s.ctl (s.ctl.ctxOf 0) 7 1 [] = none ∧
     (s.ctl.stack 7).queues.firstFree 0 32 = some 0 ∧
     ((s.ctl.consume kc (hdr args [])).addRegion ⟨3, 7 * 2 ^ 37, 128, 1, 2, 0, 0, 0, 0, .window 7 0, 0, false⟩).isSome = true ∧
     Ok kc args [] s) ∧
    (let s := palState []
     s.ctl.palQueue 7 31 = some (queueOf []) ∧ (s.ctl.ctxOf 0).owns 1 = true ∧ (queueOf []).closing = false ∧
     s.ctl.queueBusy 7 31 = false ∧ Ok { op := 0x0241, roles := [0, 1] } [stackArg 7, queueArg 31] [] s ∧
     Ok { op := 0x0242, roles := [0, 1], lock := true } [stackArg 7, queueArg 31] [] s ∧
     Ok { op := 0x0243, roles := [0, 1], lock := true } [stackArg 7] [] s) ∧
    (let s := via fun c => (asRole 1 c).updStack 7 fun s => { s with
       queues := [(31, queueOf [])], execs := [⟨true, 31, palCmd 9, 0, 0, 0, 0, none⟩] }
     s.ctl.queueBusy 7 31 = true) := by decide

theorem test_hyp_paletteStarts : ∀ op ∈ [1, 2, 3, 4, 5, 6, 7, 8, 9],
    let s := palState [palCmd op]
    s.ctl.palQueue 7 31 = some (queueOf [palCmd op]) ∧ (queueOf [palCmd op]).waiting = palCmd op :: [] ∧ s.ctl.palNext 7 = some 31 ∧
    palOp (palCmd op) = op := by decide

/-- The queue served last is 31, and 0 and 31 have a command: 0 comes first (R247). Where 4 commands hold the credits of its
bank it waits, and 31 is next (R240). -/
theorem test_hyp_paletteTurn :
    let s (e : List PalExec) : State := via fun c => (asRole 1 c).updStack 7 fun s => { s with
      queues := [(0, queueOf [palCmd 9]), (31, queueOf [BitVec.ofNat 8 9 :: zeros 31 ++ leBytes 8 0x40 ++ zeros 24])], execs := e }
    (s []).ctl.palNext 7 = some 0 ∧
    (s (List.replicate 4 ⟨true, 1, palCmd 9, 0, 0, 0, 0, palBank (palCmd 9)⟩)).ctl.palNext 7 = some 31 := by decide

/-- DIGEST of 64 bytes at 0 into line 2 of the stack. -/
def digestCmd : List Byte := palCmd 9 |>.take 16 |> (· ++ leBytes 8 0 ++ leBytes 8 64 ++ leBytes 8 128 ++ zeros 24)

theorem test_hyp_paletteRuns :
    (palState []).ctl.stateOf (7 + 7) ≠ 4 ∧ palCheck digestCmd [(0, 4096)] (fun _ => false) = 0 := by decide

/-! Chapters 13 and 14: requests at their home. -/

def region0 : Region := { space := 1, base := 0, len := 4096, job := 1, perm := 7, opn := 0, repl := 0, key := 5 }

/-- A request of job 1 from module 3 for hub SRAM offset `off`. -/
def request (type typeArg off : Nat) (tail : List Byte) : Pkt :=
  { type, flags := 0, dest := 0xFFFF, src := 3, flowSeq := 1, gen := 0, job := 1, tag := 9, vc := 2, hopLimit := 192, mcDim := 0
    mcPlus := 0, mcMinus := 0, key := 5, typeArg, payload := leBytes 8 (65535 * 2 ^ 48 + 2 ^ 44 + off) ++ tail, crcOk := true, rsvdZero := true }

def homeState (r : Region) (p : Pkt) : State :=
  via fun c => c.onFabric fun f => { f with regions := [(0, r)], arrivals := [p] }

def enteredAt (s : State) (p : Pkt) : W × List Pkt := ((s.world.strike (stackOf p.offset) []).on (Ctl.takeArrival p)).enterRecords (reqEntries p)

def okHome (c : Ctl) (p : Pkt) : Bool :=
  match c.homeCheck p with
  | .ok _ => true
  | .error _ => false

theorem okHome_iff {c : Ctl} {p : Pkt} (h : okHome c p = true) : ∃ n, c.homeCheck p = .ok n := by
  unfold okHome at h; split at h <;> simp_all

/-- What a request needs to be admitted, as one check. -/
def admittedB (s : State) (p : Pkt) : Bool :=
  let r := enteredAt s p
  pktOk p && s.ctl.fabric.arrivals.contains p && p.crcOk && !(s.ctl.wayHeld p) && !((reqEntries p).any fun e => s.ctl.noRecord (4 * e.src + 1))
    && !r.2.isEmpty && okHome r.1.c p && !(r.1.c.writeHeld p)

theorem admits_of {s : State} {p : Pkt} (h : admittedB s p = true) : s.Admits p [] (enteredAt s p) := by
  simp only [admittedB, Bool.and_eq_true, Bool.not_eq_true'] at h
  obtain ⟨⟨⟨⟨⟨⟨⟨h1, h2⟩, h3⟩, hw⟩, h4⟩, h5⟩, h6⟩, h7⟩ := h
  exact ⟨⟨h1, rfl, h2, h3⟩, hw, h4, rfl, by simpa [List.isEmpty_eq_false_iff] using h5, okHome_iff h6, h7⟩

def readReq : Pkt := request 1 63 4032 []
def writeReq : Pkt := request 2 0 4095 [7]
def atomicReq : Pkt := request 3 0 4092 (zeros 16)
def syncReadReq : Pkt := request 4 16 0 (leBytes 2 3 ++ leBytes 2 9 ++ leBytes 4 1)
def syncAddReq : Pkt := request 5 16 0 (leBytes 2 3 ++ leBytes 2 9 ++ leBytes 4 1 ++ zeros 8)

theorem test_hyp_homeApplies : ∀ p ∈ [readReq, writeReq, atomicReq, syncReadReq, syncAddReq], admittedB (homeState region0 p) p = true := by
  decide

theorem test_hyp_homeApplies_plain : (homeState region0 writeReq).ctl.plainWrite writeReq = true := by decide

theorem test_hyp_homeRefuses :
    let p := request 1 64 4032 []
    let s := homeState region0 p
    pktOk p = true ∧ p.type = 1 ∧ s.ctl.fabric.arrivals.contains p = true ∧ p.crcOk = true ∧ s.ctl.noRecord (4 * p.src + 1) = false ∧
    s.ctl.wayHeld p = false ∧ (s.ctl.takeArrival p).seen (4 * p.src + 1) p.flowSeq = .fresh ∧
    (match ((s.ctl.takeArrival p).mark (4 * p.src + 1) p.flowSeq .pending).homeCheck p with
     | .error e => e == 0x0506
     | .ok _ => false) = true := by decide

def windowRegion : Region := { region0 with space := 3, base := 7 * 2 ^ 37 + 31 * 128, len := 128, use := .window 7 31 }
def cmdStore : Pkt := { request 2 0 0 (palCmd 9) with payload := leBytes 8 (65535 * 2 ^ 48 + 3 * 2 ^ 44 + 7 * 2 ^ 37 + 31 * 128) ++ palCmd 9 }
def headStore : Pkt :=
  { request 2 0 0 [] with payload := leBytes 8 (65535 * 2 ^ 48 + 3 * 2 ^ 44 + 7 * 2 ^ 37 + 31 * 128 + 64) ++ zeros 4 }

def windowState (p : Pkt) : State :=
  via fun c => (c.updStack 7 fun s => { s with queues := [(31, queueOf [])] }).onFabric fun f => { f with
    regions := [(0, windowRegion)], arrivals := [p] }

def headOk (s : State) (p : Pkt) : Bool :=
  match ((enteredAt s p).1.c.palHead p 7 31).1 with
  | .ok _ => true
  | .error _ => false

/-- A CMD store of 63 bytes, and one to a queue whose 64 slots are taken (R245). -/
theorem test_hyp_paletteRefusals :
    (let p := { cmdStore with payload := cmdStore.payload.dropLast }
     let s := windowState p
     admittedB s p = true ∧ p.type = 2 ∧ p.space = 3 ∧ bit p.offset 6 = false ∧ (enteredAt s p).1.c.useOf p = .window 7 31 ∧
     ((enteredAt s p).1.c.locked || (enteredAt s p).1.c.alarms.gesso) = false ∧ p.payload.length ≠ 72) ∧
    (let s : State := { windowState cmdStore with ctl := (windowState cmdStore).ctl.updQueue 7 31 fun x => { x with accepted := 64 } }
     admittedB s cmdStore = true ∧ (enteredAt s cmdStore).1.c.useOf cmdStore = .window 7 31 ∧
     ((enteredAt s cmdStore).1.c.palQueue 7 31).map Ctl.slotsUsed = some 64) := by decide

theorem test_hyp_paletteEvents :
    (let s := windowState cmdStore
     admittedB s cmdStore = true ∧ cmdStore.type = 2 ∧ cmdStore.space = 3 ∧ bit cmdStore.offset 6 = false ∧
     (enteredAt s cmdStore).1.c.useOf cmdStore = .window 7 31 ∧ cmdStore.offset % 64 = 0 ∧
     ((enteredAt s cmdStore).1.c.palAccept 7 31 (cmdStore.payload.drop 8)).1.isOk = true) ∧
    (let s := windowState headStore
     admittedB s headStore = true ∧ headStore.type = 2 ∧ headStore.space = 3 ∧ bit headStore.offset 6 = true ∧
     (enteredAt s headStore).1.c.useOf headStore = .window 7 31 ∧ headOk s headStore = true) ∧
    ((onStack fun s => { s with queues := [(31, queueOf [])], execs := [⟨true, 31, palCmd 9, 0, 0, 0, 0, none⟩] }).ctl.palComplete 7 0).isSome
      = true := by decide

def read0 : Txn := { who := .rc 0, pkt := { readReq with src := 0xFFFF, tag := 65535 }, copies := 1, sentAt := 5, due := 70 }
def response (type typeArg : Nat) (payload : List Byte) : Pkt :=
  { readReq with type, typeArg, payload, src := 9, dest := 0xFFFF, tag := 65535 }
def answered (p : Pkt) : State := via fun c => c.onFabric fun f => { f with txns := [(65535, read0)], arrivals := [p] }

/-- The boolean form of `State.Completes` for `read0`. -/
def completesB (type : Nat) (p : Pkt) (seq : Nat) : Bool :=
  let s := answered p
  pktOk p && p.type == type && s.ctl.fabric.arrivals.contains p && p.crcOk
    && decide (((s.ctl.takeArrival p).takeResp p.tag seq p.src).1 = some read0)

theorem completes_of {type : Nat} {p : Pkt} {seq : Nat} (h : completesB type p seq = true) :
    (answered p).Completes type p seq read0 (((answered p).ctl.takeArrival p).takeResp p.tag seq p.src).2 := by
  simp only [completesB, Bool.and_eq_true, decide_eq_true_eq, beq_iff_eq] at h
  obtain ⟨⟨⟨⟨h1, h2⟩, h3⟩, h4⟩, h5⟩ := h
  exact ⟨⟨h1, h2, h3, h4⟩, Prod.ext h5 rfl⟩

theorem test_hyp_requesterCompletes :
    (∀ t ∈ [0x10, 0x11, 0x12], completesB t (response t 0x0503 (zeros 64)) 1 = true) ∧
    (let p := response 0x18 1 []
     completesB 0x18 p p.typeArg = true ∧ ((answered p).ctl.partAck p).isNone = true) ∧
    (let p := response 0x19 (1 * 256 + 1) []
     let s := answered p
     pktOk p = true ∧ p.type = 0x19 ∧ s.ctl.fabric.arrivals.contains p = true ∧ p.crcOk = true ∧
     (s.ctl.takeArrival p).fabric.txns.get? p.tag = some read0 ∧ read0.copies ≠ 0 ∧ (read0.late = true → read0.sentAt ≠ s.ctl.tick) ∧
     read0.pkt.flowSeq % 2 ^ 24 = bits p.typeArg 31 8 ∧ bits p.typeArg 7 0 = 1 ∧
     Ctl.givenUp { read0 with naks := read0.naks + 1 } = false) := by decide

/-- A flow with 512 packets unacknowledged, one with 511, and a lingering tag that holds a slot. -/
theorem test_hyp_flowWindows :
    let t : Txn := { read0 with copies := 0 }
    let s (n : Nat) : State := via fun c => c.onFabric fun f => { f with
      txns := [(65535, t)], flows := [(Ctl.flowKey t.pkt.dest 1, { unacked := n })] }
    let l : Linger := ⟨1, 5, 1, 1, some 7, [3], none⟩
    (s 512).ctl.fabric.txns.get? 65535 = some t ∧ t.copies = 0 ∧ t.home = none ∧
    512 ≤ ((s 512).ctl.fabric.flows.getD (Ctl.flowKey t.pkt.dest t.pkt.type) {}).unacked ∧
    ((s 511).ctl.fabric.flows.getD (Ctl.flowKey t.pkt.dest t.pkt.type) {}).unacked < 512 ∧
    l.out = 1 ∧ l.slot = some 7 ∧ l.want.filter (· != 3) = [] ∧ (s 0).ctl.jobEnding l.job = false := by decide

def flowRec (last : Nat) : FlowRec := { top := 0, seqs := [], last }

theorem test_hyp_fabricEvents :
    (let s := answered (response 0x10 0 [])
     s.ctl.fabric.txns.get? 65535 = some read0 ∧ read0.who = .rc 0 ∧ read0.due ≤ s.ctl.tick ∧ read0.home = none ∧
     Ctl.givenUp { read0 with bad := read0.bad + 1 } = false) ∧
    (let s := via fun c => c.onFabric fun f => { f with lingering := [(65535, ⟨1, 5, 1, 1, none, [], none⟩)] }
     s.ctl.fabric.lingering.get? 65535 = some ⟨1, 5, 1, 1, none, [], none⟩ ∧ 5 ≤ s.ctl.tick) ∧
    (let g : Region := { region0 with zeroing := true }
     let s := via fun c => c.onFabric fun f => { f with regions := [(4095, g)] }
     s.ctl.fabric.regions.get? 4095 = some g ∧ g.zeroing = true ∧ s.ctl.regionBusy g = false ∧ g.space ≠ 3) ∧
    pktOk { readReq with src := 0xFFFF } = true ∧
    (let s := via fun c => c.updPort 31 fun o => { o with inq := [(readReq, 2)] }
     ((s.ctl.port 31).inq.find? fun x => x.1.vc = readReq.vc).map (·.1) = some readReq ∧
     s.ctl.ingressFull readReq = false ∧ s.ctl.copyWaits (some 31) readReq = false) := by decide

/-- 16,384 flow records, source 0's the idlest. -/
def manyRecords : State := via fun c => c.onFabric fun f => { f with
  recs := (0, flowRec 0) :: List.replicate 16383 (4, flowRec 1000) }

theorem test_hyp_flowRecordEvict :
    (0, flowRec 0).2 = flowRec 0 ∧ manyRecords.ctl.fabric.recs.get? (4 * 0 + 0) = some (flowRec 0) ∧
    16384 ≤ manyRecords.ctl.fabric.recs.length ∧ (flowRec 0).last + 1000000000 ≤ manyRecords.ctl.tick ∧
    ∀ x ∈ manyRecords.ctl.fabric.recs.vals, (flowRec 0).last ≤ x.last := by
  refine ⟨rfl, rfl, ?_, by decide, fun x _ => Nat.zero_le _⟩
  show 16384 ≤ ((0, flowRec 0) :: List.replicate 16383 (4, flowRec 1000)).length
  simp only [List.length_cons, List.length_replicate]; decide

def regionArgs : RegionArgs := ⟨2, 15 * 2 ^ 36, 64, 1, 7, 1, 1⟩
def jobState : State := via fun c => (asRole 1 c).onFabric fun f => { f with regions := [(4095, region0)] }

theorem test_hyp_regionCommands :
    (let k : Cmd := { op := 0x0260, roles := [0, 1] }
     let args := [Arg.num 1 true, Arg.num 8 true, Arg.num 8 true, Arg.num 2 true, Arg.num 1 true, Arg.num 1 true, Arg.num 1 true]
     jobCheck jobState.ctl (jobState.ctl.ctxOf 0) 1 (offOf args 3) = none ∧ rangeOk regionArgs = true ∧
     (∀ g ∈ jobState.ctl.fabric.regions.vals, overlaps 2 (15 * 2 ^ 36) 64 g = false) ∧
     ((jobState.ctl.consume k (hdr args [])).makeRegion regionArgs).1.1 = 0 ∧ Ok k args [] jobState) ∧
    jobState.ctl.fabric.regions.get? 4095 = some region0 ∧ (jobState.ctl.ctxOf 0).owns region0.job = true ∧ region0.zeroing = false ∧
    (jobState.ctl.dropRegion 4095).regionBusy region0 = false ∧
    Ok { op := 0x0261, roles := [0, 1] } [regionArg 4095] [] jobState ∧
    Ok { op := 0x0262, roles := [0, 1] } [regionArg 4095, Arg.num 1 true, Arg.num 1 true] [] jobState ∧
    Ok { op := 0x0263, roles := [0, 1], lock := true } [regionArg 4095] [] jobState := by decide

def block0 : Ref := ⟨1, 0, 0, 64, zeros 64, true⟩

theorem test_hyp_fabricCommands :
    (let r : ReplicaRange := ⟨4, 1, 0, 64, [⟨5, 0, 7⟩]⟩
     replicaRangeOk r = true ∧ rangesApart [r] = true ∧
     Ok { op := 0x0264, roles := [0, 1] } [Arg.num 2 true, refArg jobState (hdr [] []) block0] [block0] jobState) ∧
    jobCheck jobState.ctl (jobState.ctl.ctxOf 0) 1 16 = none ∧ jobState.ctl.jobLive 1 = true ∧
    Ok { op := 0x0265, roles := [0, 1] } [Arg.num 2 true] [] jobState ∧
    Ok { op := 0x0266, roles := [0, 1] } [Arg.num 2 true, Arg.num 8 true] [] jobState ∧
    Ok { op := 0x0267, roles := [0, 2], lock := true } [] [] demo ∧
    ((jobState.ctl.consume { op := 0x0107, roles := [0, 1, 2] } (hdr [regionArg 4095, Arg.num 4 true, Arg.num 8 true, ⟨258, 2, 0⟩] [])).request
      (.rc 0) (Ctl.reqPkt 2 1 (65535 * 2 ^ 48 + 2 ^ 44 + 64) 5 0 (zeros 256)) []).isSome = true ∧
    (jobState.ctl.free32 (.rc 0)).isSome = true ∧
    Ok { op := 0x0107, roles := [0, 1, 2] } [regionArg 4095, Arg.num 4 true, Arg.num 8 true, ⟨258, 2, 0⟩] [] jobState := by decide

/-! Chapter 11: the DMA engine; chapters 9 and 10: die-to-die links and the guest site. -/

/-- A ring of 64 descriptors in host memory. -/
def hostRing : RingLoc := ⟨1, 4096, 0, 64⟩
def chan0 : DmaChan := { job := 1, session := 1, queue := 15, ring := hostRing, share := 1, newShare := 1, fn := 0, ports := 0 }
def busy : DmaChan := { chan0 with st := .running, pi := 2 }

def dmaState (x : DmaChan) : State :=
  via fun c => { asRole 1 c with cqs := [(15, { job := 1, loc := ⟨1, 8192, 0, 64⟩ })], chans := [(63, x)] }

/-- The registers of the window of a live channel, and of one that is not (R337). -/
theorem test_hyp_registerReads :
    (let c := (dmaState chan0).ctl
     c.chans.get? 63 = some chan0 ∧ c.windowLive 0 63 = true ∧ c.windowLive 1 63 = false ∧
     c.barRead 0 (0x1000 + 64 * 63) 4 = chan0.pi ∧ c.barRead 0 0 8 = 0x0090010030394B54) := by decide

theorem test_hyp_dmaCommands :
    (let s := via (asRole 1)
     let a1 := [Arg.num 1 true, Arg.num 2 true] ++ ringArgs hostRing 6 16
     jobCheck s.ctl (s.ctl.ctxOf 0) 1 (offOf a1 1) = none ∧ s.ctl.usable 18 = true ∧ s.ctl.cqs.has 15 = false ∧
     s.ctl.cqs.firstFree 0 16 = some 0 ∧ Ok { op := 0x0250, roles := [0, 1] } a1 [] s) ∧
    (let s := via fun c => { asRole 1 c with cqs := [(15, { job := 1, loc := hostRing })] }
     let a2 := [Arg.num 1 true, Arg.num 2 true, Arg.num 1 true] ++ ringArgs hostRing 4 16 ++ [Arg.num 2 true, Arg.num 1 true, Arg.num 1 true]
     s.ctl.cqs.get? 15 = some { job := 1, loc := hostRing } ∧ (s.ctl.ctxOf 0).owns 1 = true ∧
     (∀ y ∈ s.ctl.chans.vals, y.queue ≠ 15) ∧ Ok { op := 0x0251, roles := [0, 1] } [Arg.num 1 true] [] s ∧
     jobCheck s.ctl (s.ctl.ctxOf 0) 1 (offOf a2 1) = none ∧ s.ctl.chans.has 63 = false ∧ s.ctl.chans.firstFree 0 64 = some 0 ∧
     Ok { op := 0x0252, roles := [0, 1] } a2 [] s) ∧
    (let s := dmaState chan0
     s.ctl.chans.get? 63 = some chan0 ∧ (s.ctl.ctxOf 0).owns chan0.job = true ∧ chan0.closing = false ∧ chan0.begun = [] ∧
     (let k : Cmd := { op := 0x0253, roles := [0, 1] }
      let gone := fun (w : W) => ((w.on (Ctl.closeChan 63)).discardRecords 63 1).on (Ctl.settleChan 63)
      (gone (s.taken k (hdr [chanArg 63] []))).c.chans.has 63 = false) ∧
     (let x := { chan0 with begun := [{ idx := 0, raw := zeros 64, flying := [⟨0, 64, .writing, none, some 49152⟩] }] }
      let gone := fun (w : W) => ((w.on (Ctl.closeChan 63)).discardRecords 63 2).on (Ctl.settleChan 63)
      (gone ((dmaState x).taken { op := 0x0253, roles := [0, 1] } (hdr [chanArg 63] []))).c.chans.has 63 = true) ∧
     Ok { op := 0x0253, roles := [0, 1] } [chanArg 63] [] s ∧ Ok { op := 0x0254, roles := [0, 1] } [chanArg 63, Arg.num 2 true] [] s ∧
     Ok { op := 0x0255, roles := [0, 1] } [chanArg 63, Arg.num 4 true] [] s ∧
     Ok { op := 0x0256, roles := [0, 1], lock := true } [chanArg 63] [] s) := by decide

theorem test_hyp_dmaRebinds :
    (let s := dmaState chan0
     let k : Cmd := { op := 0x0131, roles := [0, 1] }
     let args := [chanArg 63, Arg.num 1 true] ++ ringArgs hostRing 4 16
     chan0.st ≠ .running ∧ chan0.closing = false ∧ chan0.rebind = none ∧ Ok k args [] s ∧
     ((((s.ctl.consume k (hdr args [])).updChan 63 fun y => { y with begun := Ctl.abortBegun s.ctl.tick y, rebind := some (1, hostRing) }).settleChan
       63).chans.get? 63).bind (·.rebind) = none ∧
     (∀ y ∈ s.ctl.chans.vals, y.queue = 15 → y.st ≠ .running) ∧
     Ok { op := 0x0132, roles := [0, 1] } ([Arg.num 1 true] ++ ringArgs hostRing 6 16) [] s) ∧
    (let x := { chan0 with begun := [{ idx := 0, raw := zeros 64, flying := [⟨0, 64, .writing, none, some 49152⟩] }] }
     let s := dmaState x
     let k : Cmd := { op := 0x0131, roles := [0, 1] }
     let args := [chanArg 63, Arg.num 1 true] ++ ringArgs hostRing 4 16
     (((((s.ctl.consume k (hdr args [])).updChan 63 fun y => { y with begun := Ctl.abortBegun s.ctl.tick y, rebind := some (1, hostRing) }).settleChan
       63).chans.get? 63).bind (·.rebind)).isSome = true) := by decide

theorem test_hyp_dmaWindow : (dmaState chan0).ctl.windowLive 0 63 = true ∧ (dmaState chan0).ctl.windowLive 1 63 = false := by decide

/-- DESC_PI at the wrap of its 32 bits: the doorbell 0 after 2^32 - 1 is a step of 1. -/
theorem test_hyp_dmaDoorbell :
    let x := { chan0 with pi := 2 ^ 32 - 1, ci := 2 ^ 32 - 1 }
    (dmaState x).ctl.chans.get? 63 = some x ∧ x.pi + Ctl.diff32 0 (x.pi % 2 ^ 32) ≤ x.ci + x.ring.size ∧
    x.ci + x.ring.size < x.pi + Ctl.diff32 64 (x.pi % 2 ^ 32) := by decide

/-- COPY of 64 bytes from hub SRAM to hub SRAM of this module. -/
def copyDesc : List Byte := leBytes 4 1 ++ zeros 60
def opDesc (op : Nat) : List Byte := BitVec.ofNat 8 op :: zeros 63

theorem test_hyp_dmaBegins :
    (let x := { busy with ahead := [.host, .host] }
     mayBegin x = true ∧ ((dmaState busy).world.fetchAhead 63 8).c.chans.get? 63 = some x ∧
     (∀ op ∈ [1, 2, 3], dOp (opDesc op) = op ∧ nextRaw x (opDesc op) = some (opDesc op)) ∧
     nextRaw { busy with ahead := [.got (opDesc 2)] } (opDesc 1) = some (opDesc 2)) ∧
    descBad (opDesc 9) busy.ports = true := by decide

def run0 : DescRun := { idx := 0, raw := opDesc 2 }

theorem test_hyp_dmaEvents :
    (let x := { busy with begun := [{ run0 with raw := leBytes 8 2 ++ zeros 24 ++ leBytes 8 64 ++ zeros 24 }] }
     (dmaState x).ctl.dmaNext = some 63 ∧ (nextDesc x).isSome = true ∧ (dmaState x).ctl.dmaTag 63 = some 49152) ∧
    (let d := { run0 with raw := leBytes 8 (2 + 2 ^ 40 * 2) ++ zeros 24 ++ leBytes 8 64 ++ zeros 24, next := 64, doneTo := 64 }
     let q : DmaCq := { job := 1, loc := ⟨1, 8192, 0, 64⟩ }
     d.recorded = false ∧ d.flying = [] ∧ d.allDone = true ∧ d.final = none ∧ dQuiet d.raw = false ∧ needsFlush d q = true ∧
     q.records - q.head < q.loc.size) ∧
    (let x := { busy with begun := [{ run0 with stalled := true }] }
     ((dmaState x).ctl.chans.find? fun y => y.2.queue = 15 && (y.2.begun.find? (!·.recorded)).any (·.stalled)) = some (63, x)) ∧
    (let b : BurstRun := ⟨0, 64, .writing, some (1, 0x0503, 0, 4096), some 49152⟩
     let d := { run0 with flying := [b] }
     let x := { busy with begun := [d] }
     (dmaState x).ctl.chans.get? 63 = some x ∧ b.pos = 0 ∧ b.err = some (1, 0x0503, 0, 4096)) ∧
    (let x := { busy with ahead := [.bad 1 0x0503] }
     ((dmaState x).world.fetchAhead 63 8).c.chans.get? 63 = some { x with ahead := [.bad 1 0x0503, .host] } ∧ mayBegin x = true) := by
  decide

def linkState (f : D2dDir → D2dDir) : State := via fun c => c.updLink 16 fun l => { l with st := 2, dir1 := f l.dir1 }

def flit0 : Flit :=
  { lseq := 0, ackSeq := 65535, kind := 0, vc := 3, nak := false, trunc := false, crVc := 3, crTotal := 0, txVc := 0, txTotal := 0
    firstStart := 0xFF, payload := zeros 240, lost := false, errBits := [], symbols := [List.range 15] }

theorem test_hyp_linkRows :
    Ok { op := 0x0420, roles := [0, 1], lock := true } [linkArg 16] [] demo ∧
    (let y := ((linkState id).ctl.link 16).dir 1
     ((linkState id).ctl.link 16).st = 2 ∧ y.failed.contains 31 = false ∧ Ctl.carries 16 y 31 = some 31 ∧
     Ctl.freeDarn 16 { y with failed := insNat 31 y.failed } = some 32 ∧
     Ok { op := 0x0421, roles := [0] } [linkArg 16, Arg.num 1 true, Arg.num 2 true] [] (linkState id) ∧
     flitOk flit0 = true ∧ ((linkState id).ctl.link 16).retrain = false ∧ flit0.lseq = y.rx.next) ∧
    (let s := linkState fun y => { y with tx := { y.tx with rot := 3 } }
     s.ctl.onWire 16 1 flit0 = true ∧ s.ctl.onWire 16 1 { flit0 with lost := true, errBits := [0, 2047] } = true ∧
     flitOk { flit0 with lost := true, errBits := [0, 2047] } = true) ∧
    (let s := linkState fun y => { y with tx := { y.tx with unacked := [(0, 0, none)], next := 1, lastAdv := 5 } }
     (((s.ctl.link 16).dir 1).tx.unacked ≠ []) ∧ ((s.ctl.link 16).dir 1).tx.lastAdv + 1000 ≤ s.ctl.tick) ∧
    ((((linkState fun y => { y with asked := [(31, 32)] }).ctl.link 16).dir 1).asked.contains (31, 32) = true) ∧
    (((linkState fun y => { y with acked := [(31, 32)] }).ctl.link 16).dir 1).acked = (31, 32) :: [] := by decide

def guestMsg (op : Nat) : GuestReq :=
  { opcode := op, tag := 1023, region := 4095, len := 256, key := 5, status := 0, offset := 4096 - 256, rsvdZero := true, data := zeros 256 }

def guestState (f : Guest → Guest) : State :=
  via fun c => { c.onFabric fun y => { y with regions := [(4095, region0)] } with
    guest := f { c.guest with linkUp := true, grants := [(4095, 3)] } }

theorem test_hyp_guestRows :
    (∀ op ∈ [1, 2], guestOk (guestMsg op) = true ∧ (guestState id).ctl.guestCheck (guestMsg op) = .ok region0) ∧
    (guestState id).ctl.guestOpen 1023 = true ∧ (guestState id).ctl.guestWaits region0 = false ∧
    (guestState fun g => { g with tokens := 0 }).ctl.guestWaits region0 = true ∧ (guestState id).ctl.guest.linkUp = true ∧
    (guestState id).ctl.guestBusy 4095 = false ∧
    (via fun c => c.updStack 7 fun s => { s with held := [.guest (guestMsg 2) 0] }).ctl.guestBusy 4095 = true ∧
    (∀ op ∈ [1, 2], (guestState id).ctl.guestCheck { guestMsg op with offset := 4096 - 255 } = .error 4) ∧
    (guestState fun g => { g with waiting := [guestMsg 2] }).ctl.guest.waiting.find? (·.tag = 1023) = some (guestMsg 2) ∧
    (guestState fun g => { g with easelTags := [1023] }).ctl.guest.easelTags.contains (guestMsg 1).tag = true ∧
    (guestState id).ctl.guest.easelTags.contains (guestMsg 1).tag = false ∧ (guestState id).ctl.usable 16 = true ∧
    (guestState id).ctl.fabric.regions.get? 4095 = some region0 ∧ (guestState id).ctl.guest.grants.has 4095 = true ∧
    Ok { op := 0x0428, roles := [0] } [regionArg 4095, Arg.num 1 true] [] (guestState id) ∧
    Ok { op := 0x0429, roles := [0] } [regionArg 4095] [] (guestState id) ∧
    Ok { op := 0x042A, roles := [0] } [Arg.num 2 true, Arg.num 2 true] [] (guestState id) ∧
    Ok { op := 0x042B, roles := [0] } [] [] (guestState id) ∧
    Ok { op := 0x042C, roles := [0], lock := true } [] [] (guestState id) := by decide

/-! Chapters 12 and 13: the optical edge and the tensor network. -/

def planEntry0 (p : Nat) : PlanEntry := ⟨p, if p = 31 then 2 else 1, 77, 4, p, if p = 31 then 24 else 0⟩
def plan0 : Plan := ⟨7, 3, (List.range 32).map planEntry0⟩
def table0 : RouteTable := ⟨1, 9, [2], [0], [0], [1], [0], [3, 4]⟩

def netState (f : Ctl → Ctl) : State :=
  via fun c => f ((asRole 2 c).onRouter fun r => { r with plan := some plan0, snaps := [zeros 64], period := 1, periodDue := 5 })

theorem test_hyp_planCommands :
    (plan0.version < 2 ^ 32 ∧ plan0.self < 65536 ∧ plan0.entries.all planEntryOk = true ∧ plan0.entries.map (·.port) = List.range 32 ∧
     backupsOk plan0.entries = true) ∧
    (let s := netState id
     (∀ op ∈ [0x0400, 0x0401, 0x0410], Ok { op := op, roles := [2] } [refArg s (hdr [] []) block0] [block0] s) ∧
     s.ctl.router.plan = some plan0 ∧ Ok { op := 0x0403, roles := [2] } [portArg 31] [] s ∧
     tableFail table0 s.ctl.selfModule s.ctl.isNormal = none ∧ s.ctl.router.tables.length < 16) ∧
    (let s := netState fun c => c.installTable table0
     let entries := [{ planEntry0 5 with serial := 78 }]
     let new : Plan := { plan0 with entries := plan0.entries.map fun e => (entries.find? (·.port = e.port)).getD e }
     let amended := s.ctl.onRouter fun r => { r with plan := some new }
     s.ctl.router.tables.has 1 = true ∧ Ok { op := 0x0411, roles := [2] } [Arg.num 2 true] [] s ∧ entries.all planEntryOk = true ∧
     (entries.map (·.port)).Nodup ∧ backupsOk new.entries = true ∧
     tableFail { table0 with epoch := 10 } amended.selfModule amended.isNormal = none ∧ s.ctl.tableRoom 1 = true ∧
     (∀ u ∈ s.ctl.router.tables.vals, u.job = 1) ∧
     (∀ u ∈ s.ctl.router.tables.vals, ∀ m ∈ u.plus ++ u.minus, ∀ q ∈ bitList m 32, amended.isNormal q = true)) := by decide

theorem test_hyp_routerReads :
    (let s := via fun c => (netState fun c => c.installTable table0).ctl.updPair 0 fun _ => (asRole 0 c).pair 0
     (∀ op ∈ [0x0402], Ok { op := op, roles := [0, 2], lock := true } [] [] s) ∧
     s.ctl.router.tables.get? 1 = some table0 ∧ (s.ctl.ctxOf 0).owns 1 = true ∧
     Ok { op := 0x0412, roles := [0, 1, 2] } [Arg.num 2 true] [] s ∧
     Ok { op := 0x0450, roles := [0, 2] } [portArg 31] [] s ∧
     Ok { op := 0x0451, roles := [0, 2] } [Arg.num 1 true] [] s ∧ s.ctl.router.snaps.reverse[0]? = some (zeros 64) ∧
     ((s.ctl.consume { op := 0x0451, roles := [0, 2] } (hdr [Arg.num 1 true] [])).snapshot.router.snaps.reverse[0]?).isSome) ∧
    Ok { op := 0x0452, roles := [2] } [Arg.num 2 true] [] (netState id) := by decide

def hopFlit : Flit := { flit0 with vc := 7, crVc := 7, txVc := 7, payload := zeros 236 }
def portState (f : RPort → RPort) : State := netState fun c => c.updPort 31 fun p => f { p with outcome := 1 }

theorem test_hyp_hopEvents :
    (flitOk hopFlit = true ∧ flitOk { hopFlit with lost := true } = true ∧ fecFailed hopFlit.symbols = 0 ∧ 0 < fecFailed [List.range 16]) ∧
    (let s := portState id
     (s.ctl.port 31).outcome = 1 ∧ s.ctl.stateOf (20 + 31) = 2 ∧ (s.ctl.port 31).retrain = false ∧ hopFlit.lseq = (s.ctl.port 31).rx.next ∧
     (hopFlit.txTotal + 65536 - (s.ctl.port 31).rx.counted.getD hopFlit.txVc 0) % 65536 = 0) ∧
    (let s := portState fun p => { p with tx := { p.tx with unacked := [(0, 0, none)], next := 1, lastAdv := 5 } }
     (s.ctl.port 31).retrain = false ∧ (s.ctl.port 31).tx.unacked ≠ [] ∧ (s.ctl.port 31).tx.lastAdv + 4000 ≤ s.ctl.tick) ∧
    (demo.ctl.oport 31).swatch = false ∧ (demo.ctl.oport 31).lossDue = none ∧ bit demo.ctl.power.rails 5 = true ∧
    (netState id).ctl.router.period ≠ 0 ∧ (netState id).ctl.router.periodDue ≤ (netState id).ctl.tick := by decide

def retrainLink (f : D2dLink → D2dLink) : State := via fun c => c.updLink 16 fun l => f { l with st := 1 }

theorem test_hyp_retrainEvents :
    (let x := (retrainLink id).ctl.link 16
     x.st = 1 ∧ x.trained = false ∧ d2dDead 16 x = false ∧ x.retrain = false) ∧
    (let x := (retrainLink fun l => { l with retrain := true }).ctl.link 16
     x.st = 1 ∧ x.trained = false ∧ d2dDead 16 x = false ∧ x.retrain = true) ∧
    (let x := (retrainLink fun l => { l with retrain := true, trained := true }).ctl.link 16
     x.retrain = true ∧ x.trained = true ∧ (x.dir 1).markSent = false) ∧
    (let x := (retrainLink fun l => { l with retrain := true, trained := true, dir1 := { l.dir1 with markSent := true } }).ctl.link 16
     x.retrain = true ∧ (x.dir 1).markSent = true ∧ (x.dir 1).markTaken = false ∧ 65535 = ((x.dir 1).rx.next + 65535) % 65536 ∧
     Ctl.auditBad 4 (fun _ => d2dB) [128, 128, 128, 128] = []) ∧
    (let y := (portState fun p => { p with retrain := true, trained := true }).ctl.port 31
     y.retrain = true ∧ y.trained = true ∧ y.inq = [] ∧ y.markSent = false ∧ y.markTaken = false ∧
     Ctl.auditBad 8 hopB [1024, 1024, 256, 256, 256, 256, 256, 256] = [] ∧
     Ctl.auditBad 8 hopB [1024, 1024, 256, 256, 256, 256, 256, 255] ≠ []) := by decide

def steered : List Nat := List.replicate 4 0 ++ List.replicate 28 15

theorem test_hyp_opticCommands :
    Ok { op := 0x0440, roles := [0, 1, 2], lock := true } [portArg 31] [] demo ∧
    Ok { op := 0x0441, roles := [0, 2], lock := true } [portArg 31, laneDirArg 1] [] demo ∧
    (placesClash steered = false ∧
      Ok { op := 0x0442, roles := [2] } [Arg.num 1 true, Arg.blk 32 (steered.length = 32 && steered.all fun x => x < 8 || x = 15)] []
        (netState id)) ∧
    Ok { op := 0x0443, roles := [0] } [Arg.num 1 true, Arg.num 8 true] [] demo ∧
    Ok { op := 0x0444, roles := [0, 2] } [portArg 31] [] demo ∧
    (∀ dir ∈ [0, 1],
      let s := via fun c => c.updFibre 31 dir fun d => { d with map := [(15, 15)] }
      let k : Cmd := { op := 0x0445, roles := [0] }
      let args := [portArg 31, laneDirArg dir, Arg.num 1 true]
      let new := (((s.ctl.consume k (hdr args [])).ownerRetire 31 dir 15).fibre 31 dir).map.get? 15
      (s.ctl.fibre 31 dir).map.get? 15 = some 15 ∧ new = (if dir = 0 then none else some 15) ∧ Ok k args [] s) := by
  decide

/-- A transmit direction with spare 16 free, and data slot 15 on its own grid slot with its warning waiting. -/
def spared : FibreDir :=
  { grid := [(15, { st := 1, data := 15, low := true, warned := true, out := 9 }), (16, { st := 0, margin := 6 })], warn := [(15, 0)]
    map := [(15, 15)] }
def fibreState (d : FibreDir) : State := via fun c => c.updOPort 31 fun o => { o with tx := d }
def slotCopy0 : SlotCopy := ⟨false, 15, 15, 16, []⟩

theorem test_hyp_opticSlots :
    (let s := fibreState spared
     let d := s.ctl.fibre 31 0
     let g := d.grid.getD 15 {}
     9 ≤ g.out ∧ g.low = true ∧ g.warned = true ∧ g.floored = false ∧ d.copy = none ∧ d.warn.has 15 = true ∧
     (s.ctl.portsOn 31).all s.ctl.portQuiet = true ∧ d.map.find? (fun x => decide (x.2 = 15)) = some (15, 15) ∧
     Ctl.freeSlot d = some 16 ∧ laneMoveOk ⟨some 17, 4⟩ = true ∧ d.interval ≠ 0 ∧ d.calDue ≤ s.ctl.tick ∧ Ctl.calSlot d = some 15 ∧
     Ctl.reexam d 15 = false ∧ d.map.get? 15 = some 15) ∧
    (((fibreState { spared with copy := some slotCopy0 }).ctl.fibre 31 0).copy = some slotCopy0 ∧ slotCopy0.cal = false) ∧
    (((fibreState { spared with copy := some { slotCopy0 with cal := true } }).ctl.fibre 31 0).copy.any (·.cal) = true) ∧
    (let d : FibreDir := { spared with grid := Tab.set 17 { st := 6 } spared.grid, calNext := 16 }
     Ctl.calSlot ((fibreState d).ctl.fibre 31 0) = some 17 ∧ Ctl.reexam d 17 = true) := by decide

/-- Readings on each side of the module's own floor and warning levels, and a millisecond of readings at the warning level. -/
theorem test_hyp_laserReadings : ∃ power : Int, ∀ l : List Int, l = List.replicate 99 power →
    Config.laserP0 31 15 - 300 < power ∧ (lastN 100 (l ++ [power])).length = 100 ∧
    (lastN 100 (l ++ [power])).sum ≤ 100 * (Config.laserP0 31 15 - 150) := by
  refine ⟨Config.laserP0 31 15 - 150, ?_⟩
  rintro l rfl
  refine ⟨by omega, by simp [lastN], ?_⟩
  simp [lastN]
  omega

/-- Port 31's optics as given, with light on n of its grid slots. -/
def lightState (n : Nat) (f : OPort → OPort) : State := netState fun c =>
  c.updOPort 31 fun o => f { o with rx := { grid := (List.range n).map fun w => (w, { lit := true }) } }

def sweep0 : Sweep := ⟨[(575, List.replicate 25 240)]⟩

theorem test_hyp_opticLight :
    (let s := lightState 1 fun o => { o with swatch := true }
     sweepsOk [sweep0, sweep0] = true ∧ s.ctl.swatchTurn 7 = some 31 ∧ (s.ctl.port 31).inq = []) ∧
    (let s := lightState 0 fun o => { o with swatch := true }
     (s.ctl.oport 31).swatch = true ∧ s.ctl.litSlots 31 = 0 ∧ (s.ctl.oport 31).settled + 10000000000 ≤ s.ctl.tick) ∧
    (let s := lightState 4 fun o => { o with noLight := true }
     4 ≤ s.ctl.litSlots 31 ∧ (s.ctl.oport 31).lightAt + 10000000 ≤ s.ctl.tick ∧ bit s.ctl.power.rails 5 = true) ∧
    (let s := lightState 3 id
     s.ctl.litSlots 31 < 4 ∧ (s.ctl.oport 31).lightAt + 1000000 ≤ s.ctl.tick ∧ (s.ctl.oport 31).lossDue = none ∧
     (s.ctl.port 31).dead = 0 ∧ (s.ctl.port 31).outcome = 0) ∧
    ((lightState 4 fun o => { o with lossDue := some 5 }).ctl.oport 31).lossDue = some 5 ∧ 5 ≤ (lightState 4 id).ctl.tick ∧
    (let s := netState fun c => { c with optics := { c.optics with steer := [(3, [(0, steered)])] } }
     s.ctl.optics.steer.get? 3 = some [(0, steered)] ∧ s.ctl.steerReady 3 steered = true ∧ s.ctl.optics.steering.has 3 = false) := by
  decide

/-- The margin of a slot is the last step up to which every ratio is at most 2.4 in 10,000 (R350). -/
theorem test_sweep_margin :
    sweepMargin ⟨[(0, List.replicate 7 240 ++ List.replicate 18 241)]⟩ 0 = 6 ∧ sweepMargin sweep0 575 = 24 ∧ sweepMargin sweep0 0 = 0 ∧
    sweepsOk [sweep0, ⟨[(575, List.replicate 25 241)]⟩] = false := by decide

/-! Chapter 15: collectives, pipeline channels and the spare fill. -/

/-- A hub-SRAM address of module 3. -/
def at3 (off : Nat) : Nat := 3 * 2 ^ 48 + 2 ^ 44 + off

/-- ALL_REDUCE DIRECT of 64 binary32 elements over the two members of `table0`. -/
def collArgs0 : CollArgs :=
  { id := 63, job := 1, op := 1, algorithm := 1, dimMask := 1, root := 0, count := 64, fmt := 3, bufIn := at3 0, out0 := at3 256
    out1 := at3 512, work0 := some (at3 1024), work1 := some (at3 1536), carry0 := some (at3 2048), carry1 := some (at3 2304)
    commitMode := 0, stepTimeout := 10000, policy := 0, fallback := 2, genFirst := 7, ring := none, tile := 0, token := 15, cmds := [] }

def coll0 : Coll := { newColl collArgs0 1 5 with dims := collDims table0 1, members := [3, 4], self := 0 }

/-- Job 1 with its table and region, a collective as given, and the session of pair 0 in a role. -/
def collState (role : Nat) (k : Option Coll) (f : Ctl → Ctl := id) : State :=
  via fun c => f ((((asRole role c).onRouter fun r => { r with plan := some plan0, tables := [(1, table0)] }).onFabric fun y =>
    { y with regions := [(0, region0)] }).onColls fun z => { z with colls := k.toList.map fun k => (63, k) })

theorem test_hyp_collCommands :
    (let s := collState 1 none
     let kc : Cmd := { op := 0x0500, roles := [0, 1] }
     jobCheck s.ctl (s.ctl.ctxOf 0) 1 (offOf (collCreateArgs collArgs0) 1) = none ∧ s.ctl.usable 17 = true ∧
     s.ctl.colls.colls.has 63 = false ∧ onCommitOk collArgs0 = true ∧ s.ctl.router.tables.get? 1 = some table0 ∧
     (∀ d < 3, bit collArgs0.dimMask d = true → d < table0.lens.length) ∧ collAgrees collArgs0 (collDims table0 1) = true ∧
     (∀ b ∈ collNeeds collArgs0 (collDims table0 1), s.ctl.inJobRegion 1 b.1 b.2 = true) ∧ s.ctl.jobOfTile 0 = some 1 ∧
     ((s.ctl.consume kc (hdr (collCreateArgs collArgs0) [])).addRegion
       { space := 1, base := 0xA000000 + 64 * 63, len := 64, job := 1, perm := 2, opn := 0, repl := 0, key := 0, use := .collStart 63
         }).isSome = true ∧ Ok kc (collCreateArgs collArgs0) [] s) ∧
    (let s := collState 1 (some coll0)
     s.ctl.colls.colls.get? 63 = some coll0 ∧ (s.ctl.ctxOf 0).owns coll0.a.job = true ∧ s.ctl.collStopped coll0 = false ∧
     coll0.st = .idle ∧ coll0.gen = 7 ∧ coll0.a.direct = true ∧ Ok { op := 0x0501, roles := [0, 1] } [collArg 63] [] s ∧
     Ok { op := 0x0502, roles := [0, 1] } [collArg 63, Arg.num 4 true] [] s ∧
     Ok { op := 0x0503, roles := [0, 1, 2], lock := true } [collArg 63] [] s ∧
     Ok { op := 0x0505, roles := [1, 2] } [collArg 63, Arg.num 1 true, Arg.num 8 true, Arg.num 1 true] [] s) := by decide

theorem test_hyp_collControl :
    (let args := [Arg.num 1 true, Arg.num 2 true]
     let s := collState 2 (some { coll0 with st := .aborted })
     s.ctl.usable 17 = true ∧ Ok { op := 0x0504, roles := [1, 2] } args [] s ∧ Ok { op := 0x0506, roles := [1, 2] } args [] s ∧
     (s.ctl.ctxOf 0).owns 1 = true ∧ s.ctl.jobLive 1 = true) ∧
    (let s := collState 2 (some coll0)
     let k6 : Cmd := { op := 0x0506, roles := [1, 2] }
     let w := s.taken k6 (hdr [Arg.num 1 true, Arg.num 2 true] [])
     ((w.collTrigger 63 5 3 false).c.colls.colls.get? 63).any Coll.busy = false ∧
     ((w.triggerWhere 5 3 true (fun k => k.a.job = 1) fun k => k.a.job = 1).c.colls.colls.vals.any fun k => k.a.job = 1 && k.busy)
       = false) ∧
    (let s := collState 2 (some { coll0 with st := .voting })
     let w := s.taken { op := 0x0506, roles := [1, 2] } (hdr [Arg.num 1 true, Arg.num 2 true] [])
     ((w.collTrigger 63 5 3 false).c.colls.colls.get? 63).any Coll.busy = true ∧
     ((w.triggerWhere 5 3 true (fun k => k.a.job = 1) fun k => k.a.job = 1).c.colls.colls.vals.any fun k => k.a.job = 1 && k.busy)
       = true) ∧
    (let s := collState 2 none
     s.ctl.jobs.get? 1 = some { tiles := [0] } ∧ (1 : Nat) ≠ 0 ∧ Ok { op := 0x0507, roles := [2] } [jobArg 1, Arg.num 2 true] [] s ∧
     Ok { op := 0x0508, roles := [0] } [jobArg 1, Arg.num 1 true, Arg.num 8 true] [] (collState 0 none)) := by decide

def pipeArgs0 (dir : Nat) : PipeArgs :=
  { id := 63, job := 1, peer := 4, dir, anchor := 63, slots := 4, slotBytes := 64, samples := 64, buffer := at3 0, ring := none
    tile := 0xFF, token := 0 }

def pipe0 (dir : Nat) : Pipe := { a := pipeArgs0 dir, session := 1, start := 6, release := 7, gen := 7 }

def pipeState (k : Pipe) : State := collState 1 (some coll0) fun c => c.onColls fun z => { z with pipes := [(63, k)] }

def fillPair0 : FillPair := ⟨4 * 2 ^ 48 + 2 ^ 45, 7, 3 * 2 ^ 48 + 2 ^ 45, 9, 4096, 4 * 2 ^ 48 + 3 * 2 ^ 44, 8⟩

def fillState (x : Option Spare) : State :=
  collState 2 none fun c => (c.onFabric fun y => { y with regions := [(1, { region0 with space := 2, key := 9 })] }).onColls fun z =>
    { z with spares := x.toList.map fun x => (1, x) }

theorem test_hyp_pipeCommands :
    (let s := collState 1 (some coll0)
     let kc : Cmd := { op := 0x0510, roles := [0, 1] }
     let a := pipeArgs0 1
     let line := fun off use => ({ space := 1, base := 0xA001000 + 128 * 63 + off, len := 64, job := 1, perm := 2, opn := 0, repl := 0
                                   key := 0, use := use } : Region)
     let r := (s.ctl.consume kc (hdr (pipeCreateArgs a) [])).addRegion (line 0 (.pipeStart 63))
     jobCheck s.ctl (s.ctl.ctxOf 0) 1 (offOf (pipeCreateArgs a) 1) = none ∧ s.ctl.usable 17 = true ∧ s.ctl.colls.pipes.has 63 = false ∧
     s.ctl.inJobRegion 1 a.buffer (a.slots * a.slotBytes) = true ∧ recvSlots s.ctl + a.slots * a.samples ≤ 256 ∧ r.isSome = true ∧
     ((r.map (·.2.2)).bind fun c => c.addRegion (line 64 (.pipeRelease 63))).isSome = true ∧ Ok kc (pipeCreateArgs a) [] s) ∧
    (let s := pipeState (pipe0 0)
     s.ctl.colls.pipes.get? 63 = some (pipe0 0) ∧ (s.ctl.ctxOf 0).owns 1 = true ∧ Ok { op := 0x0511, roles := [0, 1] } [collArg 63] [] s ∧
     Ok { op := 0x0512, roles := [0, 1, 2], lock := true } [collArg 63] [] s) ∧
    (let s := fillState none
     let args := spareFillArgs s (hdr [] []) 1 4 block0 [fillPair0]
     jobCheck s.ctl (s.ctl.ctxOf 0) 1 (offOf args 0) = none ∧ fillPairsOk 4 [fillPair0] = true ∧ s.ctl.usable 18 = true ∧
     (s.ctl.colls.spares.get? 1).isNone = true ∧ s.ctl.inJobRegion 1 fillPair0.dst 4096 = true ∧
     (s.ctl.regionAt 2 (bits fillPair0.dst 43 0)).map (·.2.key) = some fillPair0.dstKey ∧ Ok { op := 0x0520, roles := [2] } args [] s) ∧
    (let s := fillState (some { promotable := true })
     s.ctl.jobLive 1 = true ∧ s.ctl.colls.spares.get? 1 = some { promotable := true } ∧
     Ok { op := 0x0521, roles := [2] } [jobArg 1] [] s ∧ Ok { op := 0x0522, roles := [2, 0], lock := true } [jobArg 1] [] s) := by decide

/-- A packet of the engine from module 4. -/
def enginePkt (type gen typeArg : Nat) (payload : List Byte) : Pkt :=
  { readReq with type, gen, typeArg, payload, src := 4, dest := 3, job := 1, vc := 0 }

def acts : Take → Bool
  | .act _ => true
  | _ => false

/-- The boolean form of `State.Arrives`. -/
def arrivesB (s : State) (type cls : Nat) (p : Pkt) : Bool :=
  pktOk p && p.type == type && s.ctl.fabric.arrivals.contains p && p.crcOk
    && !((s.ctl.jobs.get? p.job).any fun j => j.expelled.contains p.src) && !s.ctl.noRecord (4 * p.src + cls)
    && decide (s.ctl.seen (4 * p.src + cls) p.flowSeq = .fresh)

theorem arrives_of {s : State} {type cls : Nat} {p : Pkt} (h : arrivesB s type cls p = true) : s.Arrives type cls p := by
  simp only [arrivesB, Bool.and_eq_true, Bool.not_eq_true', decide_eq_true_eq, beq_iff_eq] at h
  obtain ⟨⟨⟨⟨⟨⟨h1, h2⟩, h3⟩, h4⟩, h5⟩, h6⟩, h7⟩ := h
  exact ⟨⟨h1, h2, h3, h4⟩, h5, h6, h7⟩

def engineState (k : Option Coll) (x : Pipe) (p : Pkt) : State :=
  collState 1 k fun c => (c.onColls fun z => { z with pipes := [(63, x)] }).onFabric fun f => { f with arrivals := [p] }

def running : Coll := { coll0 with st := .running, begun := true }

/-- A contribution of 32 elements to step 0 of collective 63. -/
def contrib (gen attempt : Nat) : Pkt := enginePkt 0x20 gen (63 + attempt * 2 ^ 16) (leBytes 8 0 ++ zeros 128)

theorem test_hyp_enginePackets :
    (∀ t ∈ [0x20, 0x21, 0x22, 0x23, 0x24],
      let p := enginePkt t 8 63 (zeros 136)
      let s := engineState (some running) (pipe0 1) p
      arrivesB s t 0 p = true ∧ acts (collTake p s.world) = true) ∧
    (let p := enginePkt 0x25 7 (63 + 63 * 64) (zeros 72)
     let s := engineState (some running) (pipe0 1) p
     arrivesB s 0x25 0 p = true ∧ acts (pipeTake p s.world) = true) ∧
    (let p := enginePkt 0x26 7 (63 + 63 * 64) []
     let k := { pipe0 0 with busy := [(7, 63)], waiting := [(7, 62)] }
     let s := engineState (some running) k p
     s.ctl.pipeBlocked (bits p.typeArg 5 0) = false ∧ arrivesB s 0x26 0 p = true ∧ s.ctl.colls.pipes.get? (bits p.typeArg 5 0) = some k ∧
     k.busy.contains (p.gen, bits p.typeArg 11 6) = true) ∧
    (let p := enginePkt 0x30 7 (63 + 256) (zeros 8)
     let s := engineState (some running) (pipe0 0) p
     arrivesB s 0x30 3 p = true ∧ bit p.typeArg 7 = false ∧ bit p.typeArg 6 = false ∧ acts (frogTake 63 p s.world) = true) ∧
    (let p := enginePkt 0x30 7 (63 + 64 + 256) (zeros 8)
     let s := engineState (some running) (pipe0 0) p
     arrivesB s 0x30 3 p = true ∧ bit p.typeArg 7 = false ∧ bit p.typeArg 6 = true ∧ acts (pipeFrogTake 63 p s.world) = true) ∧
    (let p := enginePkt 0x30 7 (63 + 128 + 256) (zeros 8)
     let s := engineState (some running) (pipe0 0) p
     arrivesB s 0x30 3 p = true ∧ bit p.typeArg 7 = true ∧ acts (frogAllTake p s.world) = true) := by
  decide

theorem test_hyp_contributionPlaces :
    (let p := contrib 7 0
     let s := engineState (some running) (pipe0 1) p
     s.ctl.colls.colls.get? 63 = some running ∧ running.outside p = false ∧ s.ctl.collStopped running = false) ∧
    (let k := { running with gen := 2 ^ 32 - 1 }
     (contrib 0 0).gen = (k.gen + 1) % 2 ^ 32) ∧
    (genAfter (contrib 6 0).gen running.gen = false ∧ (contrib 6 0).gen ≠ (running.gen + 1) % 2 ^ 32) ∧
    (let k := { running with attempt := 1 }
     bits (contrib 7 0).typeArg 23 16 ≠ k.attempt % 256 ∧ attemptAfter (bits (contrib 7 0).typeArg 23 16) (k.attempt % 256) = false) := by
  decide

/-- A WRITE of a full line (generation 7, micro-batch 63) at `off` of module 3's hub SRAM. -/
def linePkt (off : Nat) : Pkt :=
  { request 2 0 0 [] with payload := leBytes 8 (at3 off) ++ leBytes 4 7 ++ leBytes 2 63 ++ zeros 58, src := 4, dest := 3, job := 1 }

def lineState (off : Nat) (use : RegUse) (x : Pipe) : State :=
  engineState (some coll0) x (linePkt off) |> fun s => { s with ctl := s.ctl.onFabric fun f =>
    { f with regions := [(0, { region0 with base := off, len := 64, use })] } }

theorem test_hyp_engineLines :
    (let off := 0xA000000 + 64 * 63
     let s := lineState off (.collStart 63) (pipe0 0)
     admittedB s (linePkt off) = true ∧ s.ctl.useOf (linePkt off) = .collStart 63 ∧
     (s.ctl.colls.colls.get? 63).any s.ctl.collStopped = false ∧ (linePkt off).span = 64) ∧
    (let off := 0xA001000 + 128 * 63
     let s := lineState off (.pipeStart 63) (pipe0 0)
     admittedB s (linePkt off) = true ∧ s.ctl.useOf (linePkt off) = .pipeStart 63 ∧ s.ctl.pipeBlocked 63 = false ∧
     (enteredAt s (linePkt off)).1.c.colls.pipes.get? 63 = some (pipe0 0) ∧ (linePkt off).offset % 64 = 0 ∧
     fieldAt (linePkt off).payload 8 4 = 7 ∧ fieldAt (linePkt off).payload 12 2 = 63 ∧ (pipe0 0).takes 7 = true) ∧
    (let off := 0xA001000 + 128 * 63 + 64
     let k := { pipe0 1 with full := [(7, 63)] }
     let s := lineState off (.pipeRelease 63) k
     admittedB s (linePkt off) = true ∧ s.ctl.useOf (linePkt off) = .pipeRelease 63 ∧
     (enteredAt s (linePkt off)).1.c.colls.pipes.get? 63 = some k ∧ k.full.contains (7, 63) = true) := by decide

theorem test_hyp_engineTimers :
    (let k := { running with stepDue := some 5 }
     k.stepDue = some 5 ∧ (k.plan[k.step]?).map (·.reducing) = some true ∧ k.policy = 0 ∧ 5 ≤ (collState 1 (some k)).ctl.tick ∧
     (collState 1 (some k)).ctl.collStopped k = false) ∧
    ({ running with stepDue := some 5, policy := 1 }).policy ≠ 0 ∧
    (let k := { coll0 with st := .voting, grace := some 5 }
     k.st = .voting ∧ k.committing = false ∧ k.grace = some 5) ∧
    ({ running with hold := some 5 }).hold = some 5 ∧ ({ coll0 with committing := true }).commitDue ≤ demo.ctl.tick ∧
    (let j : Job := { tiles := [], available := 0 }
     j.available < j.budget ∧ j.refillDue ≤ demo.ctl.tick) ∧
    (let t := { read0 with who := .frog false 63 65535 }
     let s := via fun c => c.onFabric fun f => { f with txns := [(60000, t)] }
     (s.ctl.fabric.txns.filter fun y => y.2.who = .frog false 63 65535 && y.2.due ≤ s.ctl.tick) = [(60000, t)] ∧
     Ctl.givenUp { t with late := true, bad := if t.nakWait then t.bad else t.bad + 1 } = false) := by decide

/-- A pair of which poison stands in the destination: the digests differ. -/
theorem test_hyp_spareFillCheck :
    (let x : Spare := { pairs := [fillPair0, fillPair0], running := true, digest := true }
     (fillState (some x)).ctl.colls.spares.get? 1 = some x ∧ x.pairs[x.done]? = some fillPair0 ∧ x.done + 1 < x.pairs.length ∧
     x.retried = false) ∧
    (let x : Spare := { pairs := [fillPair0], running := true, digest := true, retried := true }
     (fillState (some x)).ctl.colls.spares.get? 1 = some x ∧ x.pairs[x.done]? = some fillPair0 ∧ x.pairs.length = x.done + 1 ∧
     x.retried = true) ∧
    (State.reset.mem.anyPoison (memKey fillPair0.dst) 64 = false ∧
     (State.reset.mem.setPoison (2 ^ 39)).anyPoison (64 * 2 ^ 39) 64 = true) := by decide

/-! Chapter 16: the serving engine. -/

def modelArgs0 : ModelArgs := ⟨1, [1], [2], 3, 0, 0, 64, 1, 256, 131072, 50, 0⟩

def model0 : Model :=
  { a := modelArgs0, session := 1, digest := zeros 64, progs := [(0, ⟨[(0, 0)], 1, []⟩)]
    pools := [(0, { base := 2 ^ 30, pages := 64, queue := 31, limit := 64 })] }

/-- Job 1's session, the regions of its model, a program on its tile, and the engine as given. -/
def serveState (f : Serve → Serve) (g : Ctl → Ctl := id) : State :=
  via fun c => g ((((asRole 1 c).onFabric fun y => { y with
    regions := [(1, { region0 with space := 2, len := 64 }), (2, { region0 with space := 2, base := 2 ^ 30, len := 2 ^ 30 }),
      (3, { region0 with space := 2, base := 2 ^ 31, len := 2 ^ 20 })] }).setTile 0 { lanes := seedLanes 0, imem := [(0, 0)], progLen := 1 }).onServe f)

def loaded (f : Serve → Serve) : State := serveState fun y => f { y with model := some model0 }

theorem test_hyp_serveModel :
    (let s := serveState id
     let w := (s.taken { op := 0x0600, roles := [0, 1] } (hdr (modelArgs modelArgs0) [])).readWeights modelArgs0
     modelFail (s.ctl.ctxOf 0) modelArgs0 (s.ctl.consume { op := 0x0600, roles := [0, 1] } (hdr (modelArgs modelArgs0) [])) = none ∧
     w.weightsPoisoned modelArgs0 = false ∧ (Ctl.openPools modelArgs0 1 modelArgs0.pools w.c).isSome = true ∧ Ok { op := 0x0600, roles := [0, 1] } (modelArgs modelArgs0) [] s) ∧
    (let s := loaded id
     let l := List.replicate 8 32
     s.ctl.serve.model = some model0 ∧ (s.ctl.ctxOf 0).owns model0.a.job = true ∧ Ok { op := 0x0601, roles := [0, 1] } [] [] s ∧
     s.ctl.usable 19 = true ∧ poolLimitsFail s.ctl model0 l = none ∧
     Ok { op := 0x0603, roles := [0, 1] } [Arg.ref true] [] s ∧
     ((s.taken { op := 0x0603, roles := [0, 1] } (hdr [Arg.ref true] [])).setPoolLimits l).c.pagesToMove = false) ∧
    (let s := serveState fun y => { y with
       model := some { model0 with pools := [(0, { base := 2 ^ 30, pages := 64, queue := 31, limit := 64, used := [63] })] }
       seqs := [{ contract := 7, stream := 1, client := .mailbox 0 1, r := ⟨1, 0, 0, [], 0, 0, 0, 1, false⟩, prompt := [1], seedUsed := 1
                  rng := 1, order := 0, slot := some 0, pages := [(0, 63)] }] }
     let l := List.replicate 8 32
     poolLimitsFail s.ctl model0 l = none ∧
     ((s.taken { op := 0x0603, roles := [0, 1] } (hdr [Arg.ref true] [])).setPoolLimits l).c.pagesToMove = true) ∧
    Ok { op := 0x0602, roles := [0, 1] } [Arg.num 1 true, refArg (serveState id) (hdr [] []) block0] [block0] (serveState id) := by decide

/-- A table of the 256 bytes and the pair of the first two. -/
theorem test_hyp_tokeniser :
    bpOk 262144 ⟨(List.range 256).map (fun i => [BitVec.ofNat 8 i]) ++ [[0, 1]], [(0, 1, 256)], []⟩ = true := by decide

def contractArgs0 : ContractArgs := ⟨7, zeros 32, 0, 1, 64, 0, 0, 0, 0, 15, 1000000000, 0, 0⟩
def contract0 : Contract := { a := stretchDefaults contractArgs0, session := 1, job := 1, key := zeros 32 }
def seq0 : Sequence :=
  { contract := 7, stream := 1, client := .mailbox 0 1, r := ⟨2, 0, 0, [], 0, 0, 0, 1, false⟩, prompt := [1], seedUsed := 1, rng := 1
    order := 0, slot := some 1023 }

def contracted (y : Contract) (l : List Sequence) : State := loaded fun z => { z with contracts := [(7, y)], seqs := l }

theorem test_hyp_serveContracts :
    (let s := loaded id
     s.ctl.serve.model = some model0 ∧
     contractFail (s.ctl.ctxOf 0) contract0.a model0 (s.taken { op := 0x0610, roles := [0, 1] } (hdr (contractArgs contract0.a) [])) = none ∧
     Ok { op := 0x0610, roles := [0, 1] } (contractArgs contract0.a) [] s ∧ 131072 ≤ model0.a.maxContext ∧
     Ok { op := 0x0615, roles := [0, 1] } [Arg.num 2 true, Arg.num 1 true, Arg.num 4 true] [] s) ∧
    (let y := { contract0 with records := [(3, zeros 96)] }
     let s := contracted y []
     let k2 : Cmd := { op := 0x0612, roles := [0, 1] }
     s.ctl.contract? 7 = some y ∧ (s.ctl.ctxOf 0).owns y.job = true ∧ y.closing = false ∧ y.records.find? (·.1 = 3) = some (3, zeros 96) ∧
     ((((s.taken k2 (hdr [contractArg] [])).on (Ctl.beginClose 7)).serveKick.c.contract? 7).isSome = false) ∧
     Ok { op := 0x0611, roles := [0, 1] } [contractArg, Arg.blk 32 true] [] s ∧ Ok k2 [contractArg] [] s ∧
     Ok { op := 0x0613, roles := [0, 1], lock := true } [contractArg] [] s ∧
     Ok { op := 0x0614, roles := [0, 1, 3] } [contractArg, Arg.num 4 true] [] s) ∧
    (let s := serveState fun z => { z with model := some { model0 with waiting := true }, contracts := [(7, contract0)] }
     (((s.taken { op := 0x0612, roles := [0, 1] } (hdr [contractArg] [])).on (Ctl.beginClose 7)).serveKick.c.contract? 7).isSome = true) := by
  decide

/-- A REQUEST for one token from the token 1, its SEED 1. -/
def reqPayload : List Byte := leBytes 4 1 ++ zeros 16 ++ leBytes 8 1 ++ zeros 20 ++ leBytes 4 1

def okOf {ε α : Type} : Except ε α → Bool
  | .ok _ => true
  | .error _ => false

theorem test_hyp_serveRequests :
    (let s := contracted contract0 []
     let k : Cmd := { op := 0x0620, roles := [0, 1] }
     let h := hdr (requestArgs 1 reqPayload) []
     s.ctl.contract? 7 = some contract0 ∧ (s.ctl.ctxOf 0).owns contract0.job = true ∧ s.ctl.usable 19 = true ∧
     s.ctl.seq? 7 1 = none ∧ fieldAt reqPayload 44 4 = 0 ∧
     okOf ((s.ctl.consume k h).submit 7 1 (.mailbox 0 1) reqPayload (reqPayload.drop 48) false) = true ∧
     okOf ((s.ctl.consume k h).submit 7 1 (.mailbox 0 1) (zeros 52) (zeros 4) false) = false ∧
     Ok k (requestArgs 1 reqPayload) [] s) ∧
    ((contracted contract0 [seq0]).ctl.seq? 7 1 = some seq0 ∧
     Ok { op := 0x0620, roles := [0, 1] } (requestArgs 1 reqPayload) [] (contracted contract0 [seq0]) ∧
     Ok { op := 0x0621, roles := [0, 1] } [contractArg, Arg.num 8 true] [] (contracted contract0 [seq0])) ∧
    Ok { op := 0x0622, roles := [0, 1], lock := true } [] [] demo := by decide

/-- A TSP message of contract 7 and stream 1. -/
def tsp (type flags : Nat) (payload : List Byte) : Tsp :=
  let b := leBytes 1 16 ++ leBytes 1 type ++ leBytes 2 flags ++ leBytes 4 7 ++ leBytes 8 1 ++ leBytes 4 9 ++ leBytes 2 payload.length
    ++ zeros 2 ++ payload
  ⟨1, 5, 6, b, kmac256 (zeros 32) b 128 "TSP"⟩

/-- E1 has an address, and contract 7 is open with the sequence given. -/
def tspState (l : List Sequence) : State :=
  serveState (fun z => { z with model := some model0, contracts := [(7, contract0)], seqs := l }) fun c =>
    c.updEth 1 fun e => { e with cfg := ⟨1, 5, 24, 0, 0, 0⟩ }

/-- The module once a message is taken. -/
def tspSeen (m : Tsp) (c : Ctl) : Ctl :=
  (c.updContract m.contract (·.seen m.seq)).updSeq m.contract m.stream fun q =>
    match q.client with
    | .net .. => { q with client := m.client }
    | .mailbox .. => q

/-- A message whose TAG is made under the contract's key is taken; what is left to check does not read the TAG. -/
theorem takesTsp {s : State} {type : Nat} {m : Tsp} {k : Contract} (hw : m.ok = true ∧ m.type = type)
    (hr : s.ctl.rc.run = 3 ∧ s.ctl.ethIn m.port = true) (hk : (s.ctl.ethTake m.port).contract? m.contract = some k)
    (hv : kmac256 k.key m.bytes 128 "TSP" = m.mac)
    (hf : (24 ≤ m.bytes.length ∧ fieldAt m.bytes 0 1 / 16 = 1 ∧ m.flags < 4 ∧ fieldAt m.bytes 22 2 = 0 ∧
      m.bytes.length = 24 + fieldAt m.bytes 20 2) ∧ m.bytes.length + 16 ≤ 1472 ∧ k.fresh m.seq = true) :
    s.TakesTsp type m (tspSeen m (s.ctl.ethTake m.port)) := by
  obtain ⟨⟨h1, h2, h3, h4, h5⟩, h6, h7⟩ := hf
  refine ⟨hw, hr, ?_⟩
  have hv' : k.verifies m = true := by simp [Contract.verifies, hv]
  have hlen : ¬ m.bytes.length < 24 := by omega
  have htop : decide ((if ((s.ctl.ethTake m.port).ethPort m.port).cfg.jumbo = 1 then 8192 else 1472) < m.bytes.length + 16) = false := by
    simp only [decide_eq_false_iff_not]; split <;> omega
  simp only [Ctl.tspTake, hlen, if_false, hk, hv', h2, h4, h7, htop, Bool.not_true, Bool.false_eq_true, bne_self_eq_false, Bool.or_false,
    Bool.false_or]
  simp only [show decide (4 ≤ m.flags) = false by simp; omega, show (m.bytes.length != 24 + fieldAt m.bytes 20 2) = false by simp [← h5],
    Bool.or_self, Bool.false_eq_true, if_false, tspSeen]
  all_goals rfl

/-- Each type of message comes whole on E1, for a contract whose key made its TAG. -/
theorem test_hyp_tspWhole : ∀ q ∈ [(1, reqPayload), (2, []), (3, leBytes 8 1), (4, leBytes 8 0)], ∀ l ∈ [[], [{ seq0 with sent := 1, out := [5] }]],
    let s := tspState l
    let m := tsp q.1 0 q.2
    (m.port < 2 ∧ m.addr < 2 ^ 32 ∧ m.udp < 65536) ∧ m.type = q.1 ∧ s.ctl.rc.run = 3 ∧ s.ctl.ethIn m.port = true ∧
    (s.ctl.ethTake m.port).contract? m.contract = some contract0 ∧ 24 ≤ m.bytes.length ∧ fieldAt m.bytes 0 1 / 16 = 1 ∧ m.flags < 4 ∧
    fieldAt m.bytes 22 2 = 0 ∧ m.bytes.length = 24 + fieldAt m.bytes 20 2 ∧ m.bytes.length + 16 ≤ 1472 ∧ contract0.fresh m.seq = true := by
  decide

theorem test_hyp_tspMessages :
    (let m := tsp 1 0 reqPayload
     let c := tspSeen m ((tspState []).ctl.ethTake 1)
     c.seq? m.contract m.stream = none ∧ 48 ≤ m.payload.length ∧ fieldAt m.payload 44 4 = 0 ∧ bit m.flags 0 = false ∧
     (∀ p ∈ c.serve.parts, ¬ (p.contract = m.contract ∧ p.stream = m.stream))) ∧
    bit (tsp 1 1 reqPayload).flags 0 = true ∧
    (let q := { seq0 with sent := 1, out := [5] }
     let m := tsp 3 0 (leBytes 8 1)
     (tspSeen m ((tspState [q]).ctl.ethTake 1)).seq? m.contract m.stream = some q ∧ q.paused = false ∧ q.r.textOut = false) := by decide

theorem test_hyp_serveTimers :
    demo.ctl.rc.run = 3 ∧
    (let p : Parts := { contract := 7, stream := 1, client := .mailbox 0 1, first := 5 }
     let s := loaded fun z => { z with parts := [p] }
     (s.ctl.serve.parts.find? fun p => p.contract = 7 && p.stream = 1) = some p ∧ p.first + 1000000000 ≤ s.ctl.tick) ∧
    (let q := { seq0 with done := some 1, doneTick := 5 }
     let s := contracted contract0 [q]
     s.ctl.seq? 7 1 = some q ∧ q.done.isSome = true ∧ q.doneTick + 10000000000 ≤ s.ctl.tick) ∧
    (let q := { seq0 with deadline := some 5 }
     let s := contracted contract0 [q]
     s.ctl.residents.find? (·.slot = some 1023) = some q ∧ q.deadline = some 5 ∧ 5 ≤ s.ctl.tick) ∧
    (let y := { contract0 with stretch := some { digest := [], first := 5 }, oldKey := some ([], 5) }
     (contracted y []).ctl.contract? 7 = some y ∧ 5 + y.a.stretchTime ≤ demo.ctl.tick ∧ y.win.start + y.a.window ≤ demo.ctl.tick ∧
     ((contracted y []).ctl.noteCauses.contract? 7).isSome = true) ∧
    (let e : Queued := ⟨7, 2, [], some 5⟩
     let s := loaded fun z => { z with queue := [e] }
     (s.ctl.serve.queue.find? fun q => q.contract = 7 && q.seq = 2) = some e ∧ 5 + 20000000 ≤ s.ctl.tick ∧ nextSeqOf s.tally 7 ≤ 2 ∧
     s.ctl.stateOf 15 = 2) := by decide

/-- Iteration 4,294,967,295's number at the done line of the model whose next iteration is 0. -/
theorem test_hyp_iterationDone :
    let p := { request 2 0 0 [] with payload := leBytes 8 (65535 * 2 ^ 48 + 2 ^ 44 + 32768) ++ leBytes 4 (2 ^ 32 - 1) }
    let m := { model0 with waiting := true }
    let s := via fun c => ((c.onFabric fun f => { f with regions := [(0, { region0 with len := 65536 })], arrivals := [p] }).onServe fun z =>
      { z with model := some m }) |> fun c => { c with links := [(0, { st := 3 })] }
    let w := (enteredAt s p).1.applyWrite p
    admittedB s p = true ∧ p.type = 2 ∧ p.space = 1 ∧ s.ctl.doneLine = some 32768 ∧ p.offset / 64 = 32768 / 64 ∧ s.ctl.serveHeld = false ∧
    w.c.serve.model = some m ∧ m.waiting = true ∧ ofLE (w.b.mem.readBytes (hubBase + 32768) 4) = (m.iter + 2 ^ 32 - 1) % 2 ^ 32 := by decide

/-! Chapters 17 and 19 to 23: telemetry, power, security, firmware, teardown, the management bus. -/

theorem test_hyp_telemetryReads :
    (∀ q ∈ [(1, 191), (2, 1023), (3, 7), (4, 4), (5, 33), (5, 127)], telemIndexOk q.1 q.2 = true) ∧ (demo.ctl.ctxOf 0).role = 0 ∧
    Ok { op := 0x0700, roles := [0, 1, 2], lock := true } [Arg.num 1 true, Arg.num 2 true] [] demo := by decide

def powered (f : Power → Power) : State := via fun c => c.onPower f

theorem test_hyp_powerCommands :
    (∀ k ∈ demo.ctl.serve.contracts.vals, 15 ≤ k.a.floorStep) ∧
    Ok { op := 0x0115, roles := [0] } [Arg.num 2 true, Arg.num 1 true] [] demo ∧
    (let s := powered fun p => { p with rails := 0 }
     s.ctl.power.rails ≠ 63 ∧ s.ctl.power.inputFault = false ∧ s.ctl.power.tripped = [] ∧ s.ctl.power.seat = true ∧
     Ok { op := 0x0116, roles := [0] } [] [] s) ∧
    ((demo.ctl.entry 6).st ≠ 0 ∧ (demo.ctl.entry 6).st ≠ 1 ∧ (∀ j ∈ demo.ctl.jobs.vals, ∀ t ∈ j.tiles, t / 48 ≠ 6 - 3) ∧
     (∀ r ∈ demo.ctl.fabric.regions.vals, r.space = 2 → stackOf r.base ≠ 14 - 7) ∧ (demo.ctl.stack 7).queues = [] ∧
     Ok { op := 0x0114, roles := [0] } [Arg.num 1 true] [] demo) := by decide

/-- A round with every channel at 25 °C, and its extreme readings. -/
theorem test_hyp_powerEvents :
    demo.ctl.power.standby = true ∧ (∀ x ∈ [(0, (-32767 : Int)), (58, 32767)], x.1 < 59 ∧ -32768 < x.2 ∧ x.2 < 32768) ∧
    demo.ctl.power.railsDue = false ∧ ((powered fun p => { p with railsDue := true }).ctl.power.railsDue = true) ∧ demo.ctl.rc.run = 3 ∧
    (let s := via fun c => c.setEntry 6 { st := 1 }
     (s.ctl.entry (3 + 3)).st = 1 ∧ (s.ctl.link 3).st ≠ 1) := by decide

theorem test_hyp_powerStep :
    (let p : Power := { step := 15, readings := [(53, 450)], rails := 0 }
     junction p 0 = none ∧ p.readings.get? 53 = some 450 ∧ p.step ≤ 15) ∧
    (let p : Power := { readings := [(0, 999)] }
     junction p 0 = some 999) ∧
    (let p : Power := { readings := [(0, 1000)] }
     junction p 0 = some 1000) := by decide

/-- The condition levels of the step at their boundaries: 99.9 °C steps down no tile sensor, 100.0 °C does; the fourth quiet round
steps up. -/
theorem test_stepBoundaries :
    (let quiet := fun q (t : Int) => stepRound 2300 0 { step := 4, cap := 0, quiet := q, readings := (53, 450) :: (List.range 10).map fun k => (k, t) }
     (quiet 0 950).step = 4 ∧ (quiet 0 950).quiet = 1 ∧ (quiet 3 950).step = 3 ∧ (quiet 3 951).step = 4 ∧ (quiet 3 999).quiet = 0 ∧
     (quiet 3 1000).step = 5) := by decide

theorem test_hyp_securityCommands :
    Ok { op := 0x0800, lock := true } [Arg.blk 32 true] [] demo ∧
    (let t : Session := { id := 1, cred := 1, role := 0, jobs := [], reports := [(4, zeros 64)] }
     let s := via fun c => c.updPair 0 fun p => { p with session := some t }
     (s.ctl.pair 0).session = some t ∧ t.reports.find? (·.1 = 4) = some (4, zeros 64) ∧
     Ok { op := 0x0801, lock := true } (Arg.num 4 true :: pieceArgs s.ctl 0 64 0 64 56) [] s) ∧
    Ok { op := 0x0802, roles := [0, 3], lock := true } [Arg.num 4 true, Arg.num 2 true] [] demo ∧
    Ok { op := 0x0803, any := true, lock := true } (Arg.num 1 true :: pieceArgs demo.ctl 0 7235 7234 1 56) [] demo ∧
    Ok { op := 0x0810, roles := [0, 2, 3], lock := true, gesso := true } [] [] demo ∧
    Ok { op := 0x0811, roles := [0], lock := true } [Arg.num 1 true, Arg.num 1 true] [] demo ∧
    (let s := via fun c => c.onAlarms fun a => { a with a2 := true, standing := [(7, 2), (10, 2)] }
     (∀ x ∈ s.ctl.alarms.standing, x.2 = 2 → x.1 = 7 ∨ x.1 = 10) ∧ s.ctl.alarms.a2 = true ∧ s.ctl.serve.model = none ∧
     Ok { op := 0x0812, roles := [0], lock := true } [] [] s) ∧
    Ok { op := 0x0813, roles := [0], lock := true } [Arg.num 1 true, Arg.num 4 true] [] demo ∧
    Ok { op := 0x0814, roles := [0, 3], lock := true, gesso := true } [Arg.num 4 true, Arg.num 1 true] [] demo := by decide

theorem test_hyp_securityEvents :
    demo.ctl.power.standby = true ∧ (via fun c => c.onAlarms fun a => { a with gesso := true }).ctl.alarms.gesso = true ∧
    demo.ctl.serve.queue = [] ∧ bit demo.ctl.power.rails 1 = true := by decide

theorem test_hyp_alarmLevels : demo.world.c.alarms.gesso = false ∧ demo.world.c.alarms.a2 = false ∧
    (via fun c => c.onAlarms fun a => { a with gesso := true }).world.c.alarms.gesso = true := by decide

def banked (st0 st1 : Nat) (f : Rc → Rc) : State :=
  via fun c => ((c.updBank 0 fun b => { b with st := st0, factory := true }).updBank 1 fun b => { b with st := st1, factory := true }).onRc f

theorem test_hyp_firmwareCommands :
    (let s := banked 3 1 fun r => { r with runBank := 0 }
     s.ctl.trialOn = false ∧ Ok { op := 0x0120, roles := [0] } [refArg s (hdr [] []) block0] [block0] s ∧ (s.ctl.bankOf 1).st = 1 ∧
     Ok { op := 0x0121, roles := [0] } [Arg.num 1 true, Arg.num 1 true, Arg.num 4 true] [] s ∧ Ok { op := 0x0122, roles := [0] } [] [] s ∧
     Ok { op := 0x0124, roles := [0, 3], lock := true } [] [] s) ∧
    (let s := banked 3 2 fun r => { r with runBank := 1 }
     (s.ctl.bankOf s.ctl.rc.runBank).st = 2 ∧ Ok { op := 0x0123, roles := [0] } [] [] s) := by decide

theorem test_hyp_startEvents :
    demo.ctl.rc.run = 3 ∧
    (let s := banked 3 2 fun r => { r with runBank := 1, commitDue := some 5 }
     s.ctl.rc.commitDue = some 5 ∧ 5 ≤ s.ctl.tick ∧ (s.ctl.bankOf s.ctl.rc.runBank).st = 2) ∧
    State.reset.ctl.power.standby = false ∧ demo.ctl.power.standby = true ∧
    (let s := banked 3 1 fun r => { r with run := 1, bootBank := 0 }
     s.ctl.rc.run = 1 ∧ s.ctl.alarms.gesso = false ∧ s.world.bootChoose.1 = some 0) ∧
    (via fun c => (c.onRc fun r => { r with run := 1 }).onAlarms fun a => { a with gesso := true }).ctl.alarms.gesso = true ∧
    (let s := via fun c => (c.onRc fun r => { r with run := 1 }).updBank 0 fun _ => {}
     let s : State := { s with ctl := s.ctl.updBank 1 fun _ => {} }
     s.world.bootChoose.1 = none) := by decide

/-- Fields of the management record (Table 23-6). -/
theorem test_smbusRecord : bytesAt smbusRecord 4 16 = asciiBytes "TK90-M640-OA    " ∧ fieldAt smbusRecord 40 2 = 2400 ∧
    fieldAt smbusRecord 42 2 = 2900 := by decide

def tearing (what : List WaitFor) : State := via fun c =>
  { (c.onRc fun r => { r with waits := what.map fun x => ⟨none, 0, 0, 0, x⟩ }).onFabric fun f => { f with
      regions := [(4095, region0)] } with jobs := [(1, { tiles := [0], ending := true })] }

/-- Job 1 of a state once its regions are zeros and its flows closed. -/
def goneOf (s : State) : W :=
  let freed := (s.ctl.fabric.regions.filter fun (x : Nat × Region) => x.2.job = 1).foldl (fun (w : W) (x : Nat × Region) =>
    (if x.2.space = 3 then w else { w with b := w.b.op (.zero (x.2.space * 2 ^ 44 + x.2.base) x.2.len) }).on (Ctl.freeRegion x.1)) s.world
  freed.on fun c =>
    ({ c.closeFlows 1 with cqs := c.cqs.filter fun (x : Nat × DmaCq) => x.2.job != 1 }.event 0x0502 (encodeEv [.n 2 1, .n 2 0xFFFF])
      { owner := true, fabric := true }).finishOne (.job 1 false) 0 []

theorem test_hyp_jobTeardown :
    demo.ctl.jobLive 1 = true ∧ demo.ctl.jobEnding 1 = false ∧
    Ok { op := 0x05F0, roles := [2], lock := true } [Arg.num 2 true] [] (via (asRole 2)) ∧
    Ok { op := 0x05E2, roles := [0], lock := true } [Arg.num 2 true] [] demo ∧
    (let s := tearing [.job 1 false]
     s.ctl.jobEnding 1 = true ∧ s.ctl.jobLive 1 = true ∧ (∀ x ∈ s.ctl.rc.waits, x.what ≠ .job 1 true) ∧ s.ctl.jobBusy 1 = false ∧
     (∃ x ∈ s.ctl.rc.waits, x.what = .job 1 false) ∧
     Ok { op := 0x05E2, roles := [0], lock := true } [Arg.num 2 true] [] s) ∧
    ((goneOf (tearing [.job 1 false])).c.rc.waits.all fun x => decide (x.what ≠ .job 1 true)) = true ∧
    ((goneOf (tearing [.job 1 true])).c.rc.waits.any fun x => decide (x.what = .job 1 true)) = true ∧
    (tearing [.job 1 true]).ctl.fabric.regions.keys = [4095] := by decide

/-! Chapter 22 and the remote mailbox of chapter 17. -/

def metered (f : Tally → Tally) : State := { demo with tally := f { State.reset.tally with powered := true } }

theorem test_hyp_tallyRows : (metered id).tally.powered = true ∧ demo.tally.powered = false ∧
    19000 ≤ (metered fun t => { t with pulseOn := true, pulseAge := 19000 }).tally.pulseAge := by decide

theorem test_hyp_tallyCommands :
    (let k := fun op => ({ op := op, roles := [0, 1, 3], lock := true, gesso := true } : Cmd)
     Ok (k 0x0900) [] [] demo ∧ (demo.ctl.ctxOf 0).role ≠ 1 ∧ (metered id).tally.powered = true ∧
     Ok (k 0x0902) [Arg.num 1 true, Arg.num 8 true, Arg.blk 32 true] [] (metered id) ∧
     (let s := via fun c => c.updPair 0 fun p => { p with session := p.session.map fun t => { t with readings := [(4, zeros 64)] } }
      (s.ctl.pair 0).kept.find? (·.1 = 4) = some (4, zeros 64) ∧
      Ok (k 0x0903) (Arg.num 4 true :: pieceArgs s.ctl 0 64 0 64 56) [] s)) ∧
    Ok { op := 0x0901, any := true, lock := true, gesso := true } (pieceArgs demo.ctl 0 7235 7234 1 56) [] demo := by decide

/-- A record of contract 7 with STRETCH_SEQ 3, 5 decode and 6 prefill tokens. -/
def record7 : List Byte :=
  leBytes 4 7 ++ leBytes 4 3 ++ leBytes 8 5 ++ leBytes 8 6 ++ zeros 16 ++ leBytes 1 2 ++ zeros 87

theorem test_hyp_tallyChecks :
    record7.length = 128 ∧ fieldAt record7 0 4 = 7 ∧ bytesAt record7 41 3 = List.replicate 3 0 ∧
    bytesAt record7 48 16 = List.replicate 16 0 ∧ fieldAt record7 40 1 ≤ 4 ∧ fieldAt record7 8 8 ≤ 2 ^ 24 ∧
    (let t : Tally := { contracts := [(7, { next := 3 })], enrolled := some [] }
     t.contracts.get? 7 = some { next := 3 } ∧ t.enrolled = some [] ∧ t.selfTestFail = false ∧ t.foreign = false ∧ t.sealAlarm = false) ∧
    ({ next := 3 } : TContract).next = fieldAt record7 4 4 := by decide

/-- A Tally bound to 2^64 is bound to no module's serial of 64 bits. -/
theorem test_hyp_tallyForeign : ({ boundSerial := 2 ^ 64, enrolled := some [] } : Tally).foreign = true := by
  have h := Config.serial.isLt
  simp only [Tally.foreign, bne_iff_ne, ne_eq, Bool.and_eq_true]
  omega

/-- 500 mA at 48 V for a microsecond is 24 µJ: 24,000,000 units of 10^-12 J. -/
theorem test_tallySample : (Tally.sample 48000 500 500 { State.reset.tally with powered := true }).frac = 24000000 := by decide

/-- A datagram of a remote session. -/
def dgram (type session seq ack : Nat) (units key : List Byte) : Dgram :=
  let b := leBytes 1 0x10 ++ leBytes 1 type ++ zeros 2 ++ leBytes 4 session ++ leBytes 4 seq ++ leBytes 4 ack
    ++ leBytes 2 (units.length / 64) ++ zeros 6 ++ units
  ⟨1, 5, 47000, b, kmac256 key b 128 "OLR"⟩

def remote0 : Remote := { port := 1, addr := 5, udp := 47000, key := zeros 32 }

def remoteState (f : Remote → Remote) : State :=
  via fun c => (c.updEth 1 fun e => { e with cfg := ⟨1, 5, 24, 0, 0, 0⟩ }).updPair 255 fun p =>
    { p with st := .opened, session := some { id := 77, cred := 1, role := 0, jobs := [] }, remote := some (f remote0) }

def helloVersion : List Byte := leBytes 2 0x0100 ++ zeros 14 ++ [1, 0, 1] ++ zeros 45
def helloOpen : List Byte := leBytes 2 0x0102 ++ [1, 0] ++ leBytes 4 1 ++ zeros 8 ++ leBytes 2 1 ++ zeros 110

theorem test_hyp_remoteDatagrams :
    (let s := remoteState id
     let c0 := s.ctl.ethTake 1
     s.ctl.mgmtOn 1 = true ∧ (dgram 1 0 0 0 (zeros 64) []).ok = true ∧ (dgram 1 0 0 0 (zeros 64) []).type = 1 ∧
     (dgram 1 0 0 0 (zeros 64) []).formed = true ∧ (c0.ethPort 1).helloWindow + 1000000000 ≤ c0.tick ∧ c0.challengesHeld.length < 64 ∧
     (let g := dgram 3 0 0 0 (helloVersion ++ helloOpen) []
      g.type = 3 ∧ g.formed = true ∧ g.session = 0 ∧ openRefusal (g.units.take 64) (g.units.drop 64) = none) ∧
     (let g := dgram 3 0 0 0 (zeros 192) []
      g.formed = true ∧ openRefusal (g.units.take 64) (g.units.drop 64) = some (false, 0x0101)) ∧
     (∀ q ∈ [(0x10, zeros 64), (0x13, []), (0x14, [])],
       let g := dgram q.1 77 9 0 q.2 (zeros 32)
       g.ok = true ∧ g.type = q.1 ∧ g.formed = true ∧ c0.remotePair g.session = some (255, c0.pair 255, remote0) ∧
       remote0.fresh g.seq = true ∧ g.units.length = q.2.length)) := by decide

/-- The TAGs of those datagrams are made under the session's key. -/
theorem test_hyp_dgramVerified (type seq ack : Nat) (units : List Byte) :
    (dgram type 77 seq ack units (zeros 32)).mac = kmac256 remote0.key (dgram type 77 seq ack units (zeros 32)).bytes 128 "OLR" := rfl

theorem test_hyp_remoteTimers :
    ((remoteState id).ctl.pair 255).remote = some remote0 ∧
    (let m : Msg := ⟨true, 0x0501, 0, 0, 0, 0, 0, [], 0⟩
     let r := { remote0 with unacked := [(4, 5, m)] }
     ((remoteState fun _ => r).ctl.pair 255).remote = some r ∧
     (r.unacked.find? fun x => x.1 = 4 && decide (x.2.1 ≤ demo.ctl.tick)) = some (4, 5, m)) ∧
    (let s := via fun _ => (remoteState id).ctl.onPower fun p => { p with tick := 300000000000 }
     remote0.lastRx + 300000000000 ≤ s.ctl.tick) := by decide

/-! The spec's worked values. -/

/-- Chapter 3: E4M3 0x5C is 24, 0x03 is 3 * 2^-9, 0xFE is -448, 0xFF is NaN. -/
theorem test_e4m3 : enc32 (fE4m3.decode 0x5C) = 0x41C00000 ∧ fE4m3.decode 0x03 = .fin false 3 (-9) ∧
    enc32 (fE4m3.decode 0xFE) = 0xC3E00000 ∧ fE4m3.decode 0xFF = .nan := by decide

/-- Chapter 3: 500 becomes 0x7E in E4M3 under SAT and 0x7F without; 70,000 becomes 0x7B in E5M2 under SAT and 0x7C without. -/
theorem test_saturation : (fE4m3.convert true .rne (.fin false 500 0)).code = 0x7E ∧ (fE4m3.convert false .rne (.fin false 500 0)).code = 0x7F ∧
    (fE5m2.convert true .rne (.fin false 70000 0)).code = 0x7B ∧ (fE5m2.convert false .rne (.fin false 70000 0)).code = 0x7C := by decide

/-- Table 3-8. -/
theorem test_mxfp4 :
    let o := convRow 10 true false ([.fin false 300 0, .fin true 17 0, .fin false 5 (-1), dec32 0x3E4CCCCD] ++ List.replicate 28 .zero) []
    o.scales = [0x85] ∧ o.codes.take 4 = [0x6, 0x9, 0x0, 0x0] := by decide

/-- Chapter 3: 0.7 becomes 1 (nibble 0x2) in E2M1 under SR from the lane state 1, which advances to 0x00042021. -/
theorem test_stochastic : (convScalar fE2m1 true true [dec32 0x3F333333] [1]).codes = [0x2] ∧ drawLane [1] 0 = (4, [0x00042021]) ∧
    (seedLanes 0x9E3779B800000000).head? = some 1 := by decide

def nextCtl : Host.Outcome State Fault Refusal → Ctl
  | .next s => s.ctl
  | _ => {}

/-- The glaze descriptor of Table 6-19's define word. -/
theorem test_glazeDefine :
    ((nextCtl (exec (.glazeDefine d0) (tileAt 0x0000008021B0001A004020C0009A0008 id))).tile 0).glaze 5 =
      { op := 1, opFmt := 2, opAddr := 0x3000, opPitch := 8, scaleEn := 1, scaleAddr := 0x3400, outFmt := 0, outAddr := 0x3600
        outPitch := 4, sat := 1, rnd := 0, outScale := 0 } := by decide

/-- Table 6-19: cell (4, 9) drained as (13.0, 0), with the bias -1.25 and the scale 0.5, is written as 0x4C. -/
theorem test_glazeBindOff :
    let b := (demo.world.b.write (opBase 0 + 0x60412) [0x00, 0xBD]).write (opBase 0 + 0x68024) [0, 0, 0, 0x3F]
    let g : Glaze := { op := 1, opFmt := 2, opAddr := 0x3000, opPitch := 8, scaleEn := 1, scaleAddr := 0x3400, outFmt := 0, outAddr := 0x3600
                       outPitch := 4, sat := 1 }
    ((glazeScales 0 g 0 0 b).bind fun cs =>
      glazeRow 0 g 0 0 0 4 cs (List.replicate 9 ⟨0, 0⟩ ++ [⟨0x41500000, 0⟩]) { lanes := [] } b).toOption.map (fun r =>
        r.2.mem.read (opBase 0 + 0x6C209)) = some 0x4C := by decide

/-- Table 6-18: the LOOP at PC 7 runs 6 instructions 6 times with steps 0x0700 and 4; the CONV at PC 18 has 9 taps, its held index at
tap 4 is one line and one position on, and reaches 389. -/
theorem test_convProgram :
    ((nextCtl (exec (.tileLoop d0) (tileAt 0x101C000018060010 fun t => { t with progLen := 21 }))).tile 0).loops =
      [⟨1, 6, 5, [0, 0, 0], [0x0700, 4, 0]⟩] ∧
    convTaps 0x201540000703DFC00004100022000006 = 9 ∧ convIndex 0x201540000703DFC00004100022000006 4 0 = 131 ∧
    convIndex 0x201540000703DFC00004100022000006 8 127 = 389 := by decide

/-- Table 7-3. -/
theorem test_stackAddress : channelOf 0x0A1B2C3D40 = 103 ∧ bankOf 0x0A1B2C3D40 = 15 ∧ stackOf 0xAA1B2C3D40 = 5 ∧
    stackA 0xAA1B2C3D40 = 0x0A1B2C3D40 ∧ stackMapped 0xAA1B2C3D40 = true := by decide

/-- Chapter 8: three steps of 2^-26 on the pair master (1.0, 0) move s to 1 - 2^-24. -/
theorem test_pairMaster :
    (let step := fun (p : Fp × Fp) => let r := addEntry p.1 p.2 (.fin true 1 (-26)); (r.s, r.e)
     enc32 (step (step (step (.fin false 1 0, .zero)))).1 = 0x3F7FFFFF) := by decide

/-- Table 11-9: the bursts of the 1,000-byte copy. -/
theorem test_bursts :
    let d := leBytes 8 1 ++ leBytes 8 0x1010 ++ leBytes 8 0x700002F30 ++ zeros 8 ++ leBytes 8 1000 ++ zeros 24
    [burstAt d 0, burstAt d 208, burstAt d 720] =
      [(0x1010, 0x700002F30, 208), (0x10E0, 0x700003000, 512), (0x12E0, 0x700003200, 280)] := by decide

/-- The 8 x 8 x 4 rings of Table 13-5 at a module: + ports 0, 2, 4 and - ports 1, 3, 5. -/
def rings (me : List Nat) : RouteTable := ⟨1, 0, [8, 8, 4], [1, 1, 1], me, [1, 4, 16], [2, 8, 32], []⟩

theorem test_route :
    let p := { readReq with vc := 2 }
    (rings [6, 1, 0]).hop [1, 1, 3] = some (0, 0) ∧ (rings [6, 1, 0]).nextVc none p 0 0 = 2 ∧
    (rings [7, 1, 0]).hop [1, 1, 3] = some (0, 0) ∧ (rings [7, 1, 0]).nextVc (some 1) p 0 0 = 3 ∧
    (rings [0, 1, 0]).nextVc (some 1) { p with vc := 3 } 0 0 = 3 ∧
    (rings [1, 1, 0]).hop [1, 1, 3] = some (2, 1) ∧ (rings [1, 1, 0]).nextVc (some 1) { p with vc := 3 } 2 1 = 3 ∧
    (rings [1, 1, 3]).hop [1, 1, 3] = none := by decide

/-- Chapter 16: 768 sequences of RM-34 at L2 take 6.539 ms, T_G is 8.174 ms; both contracts hold there and neither at 896. -/
theorem test_floors :
    let m : ModelArgs := { modelArgs0 with bytesFixed := 46884901888, stepsPerPass := 1480000, vocab := 65536, prefillShare := 25 }
    let t := guaranteedTime m 768 0 2
    let a : ContractArgs := { contractArgs0 with rateSeq := 0x42C80000, p50 := 8500000, p99 := 10000000, p999 := 15000000 }
    let b : ContractArgs := { contractArgs0 with rateSeq := 0x42F00000, p50 := 8200000 }
    (iterTime m 768 0 2).num * 1000000 / (iterTime m 768 0 2).den = 6539 ∧ t.num * 1000000 / t.den = 8174 ∧
    targetsHold a t = true ∧ targetsHold b t = true ∧ targetsHold a (guaranteedTime m 896 0 2) = false ∧
    targetsHold b (guaranteedTime m 896 0 2) = false := by decide

/-! Ill-formed commands: one for each kind of operand that `Instr.wf` judges. -/

def badPkt : Pkt := { readReq with vc := 8 }

theorem test_illFormed :
    ([.tileMma ⟨192, false, []⟩, .tileDone 192, .sysIdentify ⟨256, 0, 1, 0, none⟩, .doorbellSetup 2 0 0 ⟨0, 0, 0, 0, 6, 6, 6, true, true⟩,
      .cmdPiDoorbell 2 0 0, .fabricRead badPkt [], .fabricRead readReq [⟨0, 72, 1⟩], .packetRoute (some 32) readReq,
      .hopFlitReceive 32 flit0, .d2dFlitReceive 17 0 flit0, .d2dFlitReceive 0 2 flit0, .guestRead { guestMsg 1 with opcode := 256 }, .guestRead { guestMsg 1 with tag := 1024 },
      .guestWrite { guestMsg 2 with tag := 1024 },
      .guestRead (guestMsg 2), .guestWrite (guestMsg 1), .gaugeRefill 4 0, .gaugeRefill 0 192, .laserChangeover 32 0 [],
      .identityExchange 32 0 0 0 0 0 [], .stepTimeoutExpire 64, .expelRefill 0, .frogResend 128 0, .interTokenDeadline 1024,
      .thermalTrip 10, .functionReset 2 0, .ethPcsChange 2 true, .patrolRead 8 0 [], .stackInitComplete 0 [(128, 0)],
      .dmaCopy 64 [], .paletteEw 8 0, .paletteEw 0 32, .alarmSourceClear 0, .canvasInitComplete 4 true, .steerExecute 4,
      .lightReturn 32, .remoteHello ⟨2, 0, 0, [], []⟩] : List Instr).map Instr.wf = List.replicate 37 false := by decide

theorem test_illFormed_refused : (match exec (.tileMma ⟨192, false, []⟩) demo with
    | .refused .illFormed => true
    | _ => false) = true := by decide

/-! The statements about the block as a whole. -/

theorem test_hyp_step : { demo with pending := [Instr.tileDone 0] }.pending = [.tileDone 0] ∧ State.reset.pending = [] ∧
    State.reset.ctl.power.tickOn = false ∧ demo.pending = [] ∧ demo.ctl.power.tickOn = true ∧
    (∀ k ∈ demo.ctl.colls.colls.vals, k.owed = []) ∧
    (Instr.tileDone 191).wf = true ∧ (Instr.tileDone 192).wf = false ∧ State.reset.mem.wf = true ∧ demo.mem.wf = true := by decide

theorem test_hyp_onlyTally : { demo with pending := [Instr.tileDone 0] }.pending = [.tileDone 0] ∧
    (Instr.tileDone 0 matches .tallyCommit) = false := by decide

/-- One case for each check of R523, in their order; and a command that cannot start: none is in the ring. -/
theorem test_hyp_mailboxChecks :
    let args := [Arg.num 1 false]
    let h := hdr args []
    demo.ctl.mbxReady h = true ∧ (via fun c => c.updPair 0 fun p => { p with cmdPi := 0 }).ctl.mbxReady h = false ∧
    9 ≠ unitsOf (max (argEnd args) (Ctl.inlineEnd [])) ∧ demo.ctl.unitLimit 0 < 65 ∧
    (h.units = unitsOf (max (argEnd args) (Ctl.inlineEnd [])) ∧ ¬ demo.ctl.unitLimit 0 < h.units) ∧
    (hdr args [] 2).seq ≠ (demo.ctl.pair 0).expSeq ∧ h.seq = (demo.ctl.pair 0).expSeq ∧
    ((via (noSession .bound)).ctl.mbxReady h = true ∧ ((via (noSession .bound)).ctl.pair 0).st = .bound) ∧
    (via fun c => c.onAlarms fun a => { a with gesso := true }).ctl.alarms.gesso = true ∧ demo.ctl.alarms.gesso = false ∧
    ((via (noSession .negotiated)).ctl.mbxReady h = true ∧ ((via (noSession .negotiated)).ctl.pair 0).session = none ∧
      ((via (noSession .negotiated)).ctl.pair 0).st ≠ .bound) ∧
    (via fun c => c.onAlarms fun a => { a with a2 := true }).ctl.locked = true ∧ demo.ctl.locked = false ∧
    (demo.ctl.pair 0).session = some { id := 1, cred := 1, role := 0, jobs := [] } ∧ (0 ∉ [1, 2]) ∧
    argFail args h.rsvdAt = some (0x0102, 16) := by decide

/-- A ring with room for one unit, and one that is full: the message is 1 unit. -/
theorem test_hyp_responses :
    (demo.ctl.pair 0).remote = none ∧ (demo.ctl.pair 0).held = [] ∧
    (let msg : Msg := ⟨false, 0x0104, 1, 7, 0, 0, 0, [], 0⟩
     let full := (via fun c => c.updPair 0 fun p => { p with rspPi := 64 }).ctl.pair 0
     msg.units ≤ (demo.ctl.pair 0).rspN - Ctl.diff32 (demo.ctl.pair 0).rspPi (demo.ctl.pair 0).rspCi ∧
     ¬ msg.units ≤ full.rspN - Ctl.diff32 full.rspPi full.rspCi) := by decide

/-- READY to DEGRADED is a change, READY to READY with another REASON is none, a sealed entry shows SEALED. -/
theorem test_hyp_entryChanges :
    (demo.ctl.entry 5).sealed = 0 ∧ (demo.ctl.entry 5).st ≠ 3 ∧ (demo.ctl.entry 5).st = 2 ∧
    ((demo.ctl.setEntry 5 { st := 2, sealed := 0x15 }).entry 5).sealed ≠ 0 ∧
    (demo.ctl.postNow 5 3 9).shown 5 = (3, 9) ∧ ((demo.ctl.postNow 5 3 9).entry 5).count = 1 ∧
    ((demo.ctl.postNow 5 2 9).entry 5).count = 0 := by decide

/-- A write of 66 bytes at byte 63 over poisoned lines 0 to 2: it covers line 1 whole, whose poison goes, and lines 0 and 2 in part. -/
theorem test_hyp_writesActByLine :
    let b := ((demo.world.b.op (.poison 0)).op (.poison 1)).op (.poison 2)
    let m := (b.write 63 (List.replicate 66 7)).mem
    b.mem.wf = true ∧ b.mem.isPoisoned 0 = true ∧ m.poison = [0, 2] ∧ m.read 63 = 0 ∧ m.read 64 = 7 ∧ m.read 127 = 7 ∧ m.read 128 = 0 := by
  decide

theorem test_hyp_flowRecords :
    (let p := contrib 7 0
     let w := (engineState (some running) (pipe0 1) p).world
     p.type = 0x20 ∧ w.c.fabric.arrivals.contains p = true ∧ p.crcOk = true ∧
     (∀ q ∈ (w.c.jobs.get? p.job).map (·.expelled), p.src ∉ q) ∧ w.c.noRecord (4 * p.src + 0) = false ∧
     (w.on (Ctl.mark (4 * p.src + 0) p.flowSeq .ack)).c.seen (4 * p.src + 0) p.flowSeq = .copy .ack ∧
     (w.on (Ctl.mark (4 * p.src + 0) 513 .ack)).c.seen (4 * p.src + 0) p.flowSeq = .below) := by decide

theorem test_hyp_strayResponses :
    let p := response 0x10 0 (zeros 64)
    let s := via fun c => c.onFabric fun f => { f with txns := [(65535, { read0 with pkt := { read0.pkt with flowSeq := 2 } })], arrivals := [p] }
    pktOk p = true ∧ p.type = 0x10 ∧ s.ctl.fabric.arrivals.contains p = true ∧ p.crcOk = true ∧
    s.ctl.fabric.lingering.get? p.tag = none ∧ (s.ctl.fabric.txns.get? p.tag).map (·.pkt.flowSeq) = some 2 ∧ p.flowSeq = 1 := by decide

/-- A lane never at 0, the largest finite value and the least subnormal of a format, blocks of 7 elements over 3 members. -/
theorem test_hyp_numbers :
    (1 ≠ 0 ∧ 2 ^ 32 - 1 < 2 ^ 32 ∧ [1, 2 ^ 32 - 1][1]? = some (2 ^ 32 - 1)) ∧
    ((fBin32.decode 0x7F7FFFFF).isFin = true ∧ (fE4m3.decode 0x01).isFin = true ∧ (fE4m3.decode 0x7F).isFin = false) ∧
    (0x7F ∈ (convRow 11 true false (List.replicate 31 (.fin true 1 0) ++ [.fin false 127 (-6)]) []).codes) ∧
    (List.range 3).map (blockLen 7 3) = [2, 2, 3] ∧ 3 ∣ 9 := by decide
end Sys2Proof.Tests
end

section
/-! SUPPORT. Every command answers a next state or is refused as ill-formed. -/

namespace Sys2Proof.Machine

/-- An outcome for operands that are in their domain where `ok`: then a next state with the queue of `s`, else the refusal as
ill-formed (log 65: the refusal is the model's choice). -/
def CompletesOn (ok : Bool) (s : State) (o : Host.Outcome State Fault Refusal) : Prop :=
  (ok = true → ∃ t, o = .next t ∧ t.pending = s.pending) ∧ (ok = false → o = .refused .illFormed)

/-- `ret` is the only way a meaning answers, so a meaning completes where its next state keeps the queue. -/
theorem ret_completesOn {ok : Bool} {s t : State} (h : t.pending = s.pending) : CompletesOn ok s (ret ok t) := by
  cases ok with
  | true => exact ⟨fun _ => ⟨t, ret_true t, h⟩, nofun⟩
  | false => exact ⟨nofun, fun _ => ret_false t⟩

/-! Each kind of row. -/

section
variable (s : State)

theorem act_completesOn (ok : Bool) (f : W → W) : CompletesOn ok s (ret ok (s.act f)) := ret_completesOn (s.act_pending f)

theorem mbxRow_completesOn (k : Cmd) (h : Hdr) (args : List Arg) (refs : List Ref) (f : Ctx → W → Res) :
    CompletesOn (hdrOk h) s (mbxRow k h args refs s f) := act_completesOn ..

/-- A command that stays in its ring while it cannot start. -/
theorem ite_mbxRow_completesOn (b : Prop) [Decidable b] (k : Cmd) (h : Hdr) (args : List Arg) (refs : List Ref) (f : Ctx → W → Res) :
    CompletesOn (hdrOk h) s (if b then ret (hdrOk h) s else mbxRow k h args refs s f) := by
  split
  · exact ret_completesOn rfl
  · exact mbxRow_completesOn ..

theorem guestCmd_completesOn (op : Nat) (lock : Bool) (h : Hdr) (args : List Arg) (f : W → Res) :
    CompletesOn (hdrOk h) s (guestCmd op lock h args s f) := mbxRow_completesOn ..

theorem tileRow_completesOn (d : Dispatch) (mine : Nat → Bool) (go : Tile → Nat → W → W) :
    CompletesOn (d.tile < 192) s (tileRow d mine go s) := act_completesOn ..

theorem windowRow_completesOn (fn n : Nat) (f : Ctl → Ctl) : CompletesOn (fn < 2 && n < 64) s (windowRow fn n f s) :=
  act_completesOn ..

theorem palRow_completesOn (op st q : Nat) : CompletesOn (st < 8 && q < 32) s (palRow op st q s) := act_completesOn ..

theorem beginRow_completesOn (op n : Nat) (fetched : List Byte) : CompletesOn (n < 64) s (beginRow op n fetched s) :=
  act_completesOn ..

theorem collRow_completesOn (type : Nat) (p : Pkt) : CompletesOn (pktOk p) s (collRow type p s) := act_completesOn ..

theorem tspRow_completesOn (type : Nat) (m : Tsp) (f : W → W) : CompletesOn m.ok s (tspRow type m s f) := act_completesOn ..

theorem standbyRow_completesOn (ok : Bool) (f : W → W) : CompletesOn ok s (standbyRow ok s f) := act_completesOn ..

/-- A row of the Tally changes the Tally and then what the RC makes of it: the queue stays through both. -/
theorem tallyRow_completesOn (ok : Bool) (f : Tally → Tally) : CompletesOn ok s (tallyRow ok s f) :=
  ret_completesOn (State.act_pending ..)

theorem poweredRow_completesOn (ok : Bool) (f : Tally → Tally) : CompletesOn ok s (poweredRow ok s f) := tallyRow_completesOn ..

/-! The commands that stay in their ring while what they need is busy, and the one that writes its domain another way. -/

theorem execSysSessionClose_completesOn (h : Hdr) : CompletesOn (hdrOk h) s (execSysSessionClose h s) := by
  unfold execSysSessionClose
  exact ite_mbxRow_completesOn ..

theorem execSysStageWrite_completesOn (h : Hdr) (region key offset : Nat) (data : List Byte) :
    CompletesOn (hdrOk h) s (execSysStageWrite h region key offset data s) := by
  unfold execSysStageWrite
  exact ite_mbxRow_completesOn ..

theorem execCollStart_completesOn (h : Hdr) (id gen : Nat) : CompletesOn (hdrOk h) s (execCollStart h id gen s) := by
  unfold execCollStart
  exact ite_mbxRow_completesOn ..

theorem execSmbusWrite_completesOn (data : List Byte) : CompletesOn (data != []) s (execSmbusWrite data s) := by
  unfold execSmbusWrite
  rw [Bool.decide_eq_true]
  exact standbyRow_completesOn ..

end

/-- Every command is a row of one of these kinds, and the domain it checks is that of `Instr.wf`. -/
theorem exec_completesOn (i : Instr) (s : State) : CompletesOn i.wf s (exec i s) := by
  unfold exec
  cases i with
  | tileLoad | tileStore | tileFeed | tileHold | tileMma | tileConv | tileEw | glazeDefine | glazeApply | tileSend | tileRecv
  | tileWait | tileSignal | tileFence | tileMark | tileReplay | tileLoop | endProgram =>
    exact tileRow_completesOn ..
  | sysVersion | sysSessionChallenge | sysSessionOpen | sysIdentify | sysReadiness | sysPairRelease | sysEventLogRead
  | sysCredCreate | sysCredRevoke | sysCredList | sysOwnerClaim | sysFunctionRestart | pwrConfigSet | pwrRailsRestore | sysFwLoad
  | sysFwActivate | sysRcRestart | sysFwCommit | sysFwStatus | sysRemoteSet | hostPortStatus | hostChannelRebind | hostCqRebind
  | ethConfigSet | ethPortStatus | stackScrubSet | stackDarn | stackLogRead | stackStatus | paletteQueueCreate
  | paletteQueueDestroy | paletteQueueStatus | paletteStatus | dmaCqCreate | dmaCqDestroy | dmaChannelCreate | dmaChannelDestroy
  | dmaChannelShareSet | dmaChannelKick | dmaChannelStatus | regionCreate | regionDestroy | regionFlagsSet | regionStatus
  | replicaMapSet | replicaMapClear | fabricTimeoutSet | fabricStatus | jobTeardown | tileLoadProgram | tileStart | tileStop
  | tileFaultRead | tileStatus | tileLoadMulti | tileStartMulti | tileSeedRng | tileReset | planLoad | planAmend | planStatus
  | portRejudge | routeTableSet | routeTableClear | routeTableRead | routerPortCounters | routerSnapshot | routerSnapshotPeriod
  | d2dLinkStatus | d2dLaneDarn | opticPortStatus | opticSlotStatus | opticSteer | opticCalSet | opticSwatchRun | opticSlotRetire
  | collCreate | collDestroy | collStatus | collResume | collPolicySet | collAbort | collExpel | jobExpelBudgetSet | pipeCreate
  | pipeDestroy | pipeStatus | spareFill | sparePromote | spareStatus | jobCreate | jobStatus | jobDestroy | serveModelLoad
  | serveModelUnload | serveTokeniserLoad | servePoolShrink | serveContractCreate | serveContractKeySet | serveContractClose
  | serveContractStatus | serveWindowRead | serveFloorQuery | serveRequest | serveCancel | serveStatus | telemRead | telemSensors
  | telemPower | secAttest | secReportRead | secConfigRead | secCertRead | secAlarmStatus | secAlarmConfig | secUnlock
  | secAlarmRaise | secAlarmLogRead | tallyStatus | tallyCertRead | tallyRead | tallyReadingFetch =>
    exact mbxRow_completesOn ..
  | sysSessionClose => exact execSysSessionClose_completesOn ..
  | sysStageWrite => exact execSysStageWrite_completesOn ..
  | collStart => exact execCollStart_completesOn ..
  | guestRegionGrant | guestRegionRevoke | guestGaugeSet | guestEnable | guestStatus => exact guestCmd_completesOn ..
  | descPiDoorbell | cqHeadWrite | dmaAbort | resumeRetry | resumeSkip => exact windowRow_completesOn ..
  | paletteEw | paletteAccum | paletteSgd | paletteAdam | paletteGather | paletteScatter | paletteKvAppend | paletteKvCompact
  | paletteDigest =>
    exact palRow_completesOn ..
  | dmaCopy | dmaFill | dmaNop => exact beginRow_completesOn ..
  | contribPacket | collGatherPacket | exchangePacket | bcastPacket | votePacket => exact collRow_completesOn ..
  | tspRequest | tspCancel | streamAck | tspResend => exact tspRow_completesOn ..
  | tallyRecordFrame | tallyEnrolment | tallyReadout | tallySample | energyPulseEnd | tallyCommit | tallyTempRead
  | tallyInputLost =>
    exact poweredRow_completesOn ..
  | tallyPowerUp | tallyMeshBreach => exact tallyRow_completesOn ..
  | lidTamper | gessoRailsOff | railOutOfRange | clockGlitch | alarmInAssert | alarmSourceClear | smbusRead =>
    exact standbyRow_completesOn ..
  | smbusWrite => exact execSmbusWrite_completesOn ..
  | _ => exact act_completesOn ..

/-- Settles O2: every meaning answers through `ret` on the domain that `Instr.wf` states (log 65), with a next state that keeps the
queue. -/
theorem commandsComplete : Obligations.CommandsComplete := fun i s => exec_completesOn i s

end Sys2Proof.Machine
end

section
/-! SUPPORT. The registers of BAR0, the PCIe ports and the Ethernet ports: what each access does. -/

namespace Sys2Proof.Machine

/-! Changes of a PCIe function and of an Ethernet port. -/

@[simp] theorem Ctl.fn_updFn (n : Nat) (g : Fn → Fn) (c : Ctl) : (c.updFn n g).fn n = g (c.fn n) := by
  unfold Ctl.updFn Ctl.fn
  split <;> simp

theorem Ctl.updFn_updFn (n : Nat) (g k : Fn → Fn) (c : Ctl) : (c.updFn n g).updFn n k = c.updFn n fun f => k (g f) := by
  unfold Ctl.updFn
  split <;> simp

/-- A list of changes of one function is one change of it. -/
theorem Ctl.foldl_updFn (n : Nat) (g : Nat → Fn → Fn) (l : List Nat) (k : Fn → Fn) (c : Ctl) :
    l.foldl (fun c b => c.updFn n (g b)) (c.updFn n k) = c.updFn n fun f => l.foldl (fun f b => g b f) (k f) := by
  induction l generalizing k with
  | nil => rfl
  | cons b t ih => rw [List.foldl_cons, Ctl.updFn_updFn, ih]; rfl

/-- Nothing follows from a change of a function's registers. -/
theorem Ctl.calm_updFn (n : Nat) (g : Fn → Fn) (c : Ctl) : c.calm (c.updFn n g) = true :=
  Ctl.calm_of_eq (by simp) (by simp) (by simp) (by simp) (by simp) (by simp)

/-! How a row of the module's own events acts. -/

section
variable {s : State} {i : Instr} {ok : Bool} {f g : Ctl → Ctl}

theorem acts_of_ret (he : exec i s = ret ok (s.act (W.on f))) (hok : ok = true) (hf : f s.ctl = g s.ctl) : Acts s i (W.on g) := by
  rw [Acts, he, hok, ret_true, State.act]
  simp [W.on, hf]

theorem moves_of_ret (he : exec i s = ret ok (s.act (W.on f))) (hok : ok = true) (hf : f s.ctl = g s.ctl)
    (hc : s.ctl.calm (g s.ctl) = true) : Moves s i g := by
  rw [Moves, he, hok, ret_true, State.act_on_calm (by rwa [hf]), hf]

/-- A row whose effect is a change of one function's registers. -/
theorem moves_updFn_of_ret {n : Nat} {k : Fn → Fn} (he : exec i s = ret ok (s.act (W.on f))) (hok : ok = true)
    (hf : f s.ctl = s.ctl.updFn n k) : Moves s i (Ctl.updFn n k) :=
  moves_of_ret he hok hf (Ctl.calm_updFn ..)

end

/-! Writes to BAR0 (Table 17-1). -/

section
variable (c : Ctl) (fn k v : Nat) (meets : List Nat)

theorem Ctl.w1cAt_int : c.w1cAt fn 0xC00 v meets =
    some ((meets.filter (· < 3)).foldl (fun c b => c.updFn fn (Fn.setInt b)) (c.updFn fn (Fn.w1cInt v))) := rfl

theorem Ctl.w1cAt_dma : c.w1cAt fn 0xC08 v meets =
    some ((meets.filter (· < 16)).foldl (fun c b => c.updFn fn (Fn.setDma b)) (c.updFn fn (Fn.w1cDma v))) := rfl

theorem Ctl.w1cAt_mbx (hk : k < 16) : c.w1cAt fn (0xC40 + 4 * k) v meets =
    some ((meets.filter (· < 16)).foldl (fun c b => c.updFn fn (Fn.setMbx (16 * k + b))) (c.updFn fn (Fn.w1cMbx k v))) := by
  have h0 : 0xC40 + 4 * k ≠ 0xC00 := by omega
  have h8 : 0xC40 + 4 * k ≠ 0xC08 := by omega
  have hlo : 0xC40 + 4 * k < 0xC80 := by omega
  have ha : (0xC40 + 4 * k) % 4 = 0 := by omega
  simp [Ctl.w1cAt, setAgain, h0, h8, hlo, ha]

/-- No status register lies among the masks of the mailbox pairs. -/
theorem Ctl.w1cAt_mbxMask (hk : k < 16) : c.w1cAt fn (0xC80 + 4 * k) v meets = none := by
  simp only [Ctl.w1cAt, Bool.and_eq_true, decide_eq_true_eq]
  repeat rw [if_neg (by omega)]

theorem Ctl.wordWrite_intMask : c.wordWrite fn 0xC04 v = c.updFn fn fun f => { f with intMask := v % 8 } := rfl

theorem Ctl.wordWrite_dmaMask : c.wordWrite fn 0xC0C v = c.updFn fn fun f => { f with dmaMask := v % 65536 } := rfl

theorem Ctl.wordWrite_mbxMask (hk : k < 16) : c.wordWrite fn (0xC80 + 4 * k) v =
    c.updFn fn fun f => { f with mbxMask := Tab.set k (v % 65536) f.mbxMask } := by
  have h4 : 0xC80 + 4 * k ≠ 0xC04 := by omega
  have hc : 0xC80 + 4 * k ≠ 0xC0C := by omega
  have hhi : 0xC80 + 4 * k < 0xCC0 := by omega
  simp [Ctl.wordWrite, Ctl.w1cAt_mbxMask c fn k v [] hk, h4, hc, hhi]

end

/-- A write of 4 bytes at an aligned offset of BAR0 is one word. -/
theorem execRegisterWrite_word (fn off v : Nat) (s : State) (ho : off < 65536) (ha : off % 4 = 0) :
    exec (.registerWrite fn off 4 v) s = ret (fn < 2) (s.act (W.on (Ctl.wordWrite fn off (v % 2 ^ 32)))) := by
  change execRegisterWrite fn off 4 v s = _
  simp [execRegisterWrite, ho, ha]

/-- A W1C write to a status register moves only its function: the clear, then the sets that met it (R67). -/
theorem moves_w1c {s : State} {fn off v : Nat} {meets l : List Nat} {g : Nat → Fn → Fn} {k : Fn → Fn} (hf : fn < 2)
    (hw : s.ctl.w1cAt fn off v meets = some (l.foldl (fun c b => c.updFn fn (g b)) (s.ctl.updFn fn k))) :
    Moves s (.statusW1cWrite fn off v meets) fun c => l.foldl (fun c b => c.updFn fn (g b)) (c.updFn fn k) := by
  refine moves_of_ret (ok := fn < 2) rfl (decide_eq_true hf) (by simp only [hw]) ?_
  simp only [Ctl.foldl_updFn]
  exact Ctl.calm_updFn ..

theorem hostRegisters : Clause.HostRegisters := by
  intro s fn v vector k meets hf
  have hok : decide (fn < 2) = true := decide_eq_true hf
  refine ⟨moves_w1c hf (Ctl.w1cAt_int ..), moves_w1c hf (Ctl.w1cAt_dma ..), fun hk => moves_w1c hf (Ctl.w1cAt_mbx _ _ _ _ _ (by omega)),
    moves_updFn_of_ret rfl hok rfl, ?intMask, ?dmaMask, fun hk => ?mbxMask, fun hv => ?unmask⟩
  case intMask => exact moves_updFn_of_ret (execRegisterWrite_word _ _ _ _ (by omega) rfl) hok (Ctl.wordWrite_intMask ..)
  case dmaMask => exact moves_updFn_of_ret (execRegisterWrite_word _ _ _ _ (by omega) rfl) hok (Ctl.wordWrite_dmaMask ..)
  case mbxMask =>
    exact moves_updFn_of_ret (execRegisterWrite_word _ _ _ _ (by omega) (by omega)) hok (Ctl.wordWrite_mbxMask _ _ _ _ (by omega))
  case unmask =>
    have h33 : vector ≠ 33 := by omega
    refine moves_updFn_of_ret (ok := fn < 2 && vector < 34) rfl (by simp [hf]; omega) ?_
    simp [h33]

/-! Reads of BAR0 (R14, R15, R506). -/

section
variable (c : Ctl) (fn n off width : Nat)

theorem Ctl.barRead_word (ho : off < 65536) (ha : off % 4 = 0) : c.barRead fn off 4 = c.wordRead fn off := by
  simp [Ctl.barRead, ho, ha]

theorem Ctl.barRead_pair (ho : off < 65536) (ha : off % 8 = 0) :
    c.barRead fn off 8 = c.barRead fn (off + 4) 4 * 2 ^ 32 + c.barRead fn off 4 := by
  rw [Ctl.barRead_word _ _ _ (by omega) (by omega), Ctl.barRead_word _ _ _ ho (by omega)]
  simp [Ctl.barRead, ho, ha]

/-- A read outside BAR0, off its alignment or of another width answers 0 (R506). -/
theorem Ctl.barRead_bad (h : off % width ≠ 0 ∨ 65536 ≤ off ∨ (width ≠ 4 ∧ width ≠ 8)) : c.barRead fn off width = 0 := by
  unfold Ctl.barRead
  split
  next hin =>
    simp only [Bool.and_eq_true, decide_eq_true_eq] at hin
    rw [if_neg (by omega), if_neg (by omega)]
  next => rfl

/-- A read of 4 bytes answers 0 where no aligned word of BAR0 has another value. -/
theorem Ctl.barRead_eq_zero (h : off % 4 = 0 → off < 65536 → c.wordRead fn off = 0) : c.barRead fn off 4 = 0 := by
  by_cases hin : off % 4 = 0 ∧ off < 65536
  · rw [Ctl.barRead_word _ _ _ hin.2 hin.1, h hin.1 hin.2]
  · exact Ctl.barRead_bad _ _ _ _ (by omega)

theorem Ctl.wordRead_window (hn : n < 64) (ho : off < 64) : c.wordRead fn (0x1000 + 64 * n + off) = c.windowWord fn n off := by
  have hd : (0x1000 + 64 * n + off - 0x1000) / 64 = n := by omega
  have hm : (0x1000 + 64 * n + off) % 64 = off := by omega
  simp only [Ctl.wordRead, Bool.and_eq_true, decide_eq_true_eq]
  repeat rw [if_neg (by omega)]
  rw [if_pos (by omega), hd, hm]

theorem Ctl.windowWord_dead (h : c.windowLive fn n = false) : c.windowWord fn n off = 0 := by
  unfold Ctl.windowWord
  split
  · rfl
  · simp [h]

theorem Ctl.windowWord_live {x : DmaChan} (h : c.windowLive fn n = true) (hx : c.chans.get? n = some x) :
    c.windowWord fn n 0 = x.pi % 2 ^ 32 ∧ c.windowWord fn n 8 = chanStatusWord x ∧ c.windowWord fn n 0x0C = 0 := by
  simp [Ctl.windowWord, hx, h]

/-- The reserved ranges of Table 17-1 read 0 (R15). -/
theorem Ctl.wordRead_reserved (h : (0x28 ≤ off ∧ off < 0x100) ∨ (0x200 ≤ off ∧ off < 0x400) ∨
    (0xC10 ≤ off ∧ off < 0xC40) ∨ (0xCC0 ≤ off ∧ off < 0x1000) ∨ (0x2000 ≤ off ∧ off < 0x10000)) : c.wordRead fn off = 0 := by
  simp only [Ctl.wordRead, Bool.and_eq_true, decide_eq_true_eq]
  repeat rw [if_neg (by omega)]

end

theorem registerReads : Clause.RegisterReads := by
  intro c fn n off width v x _
  refine ⟨⟨rfl, rfl, rfl, rfl, rfl, rfl, rfl⟩, ⟨?intMask, ?dmaMask⟩, fun h => ?reserved, fun hn ho hd => ?dead,
    fun hn hl hx => ?live, Ctl.barRead_bad _ _ _ _, Ctl.barRead_pair _ _ _⟩
  case intMask =>
    rw [Ctl.wordWrite_intMask]
    simp [Ctl.barRead, Ctl.wordRead]
  case dmaMask =>
    rw [Ctl.wordWrite_dmaMask]
    simp [Ctl.barRead, Ctl.wordRead]
  case reserved => exact Ctl.barRead_eq_zero _ _ _ fun _ _ => Ctl.wordRead_reserved _ _ _ h
  case dead =>
    refine Ctl.barRead_eq_zero _ _ _ fun _ _ => ?_
    rw [Ctl.wordRead_window _ _ _ _ hn ho, Ctl.windowWord_dead _ _ _ _ hd]
  case live =>
    obtain ⟨hpi, hst, hctl⟩ := Ctl.windowWord_live c fn n hl hx
    have word (o : Nat) (ho : o < 64) (ha : o % 4 = 0) : c.barRead fn (0x1000 + 64 * n + o) 4 = c.windowWord fn n o := by
      rw [Ctl.barRead_word _ _ _ (by omega) (by omega), Ctl.wordRead_window _ _ _ _ hn ho]
    exact ⟨(word 0 (by omega) rfl).trans hpi, (word 8 (by omega) rfl).trans hst, (word 0x0C (by omega) rfl).trans hctl⟩

/-! The PCIe ports (R545, R547, R550). -/

theorem pciePorts : Clause.PciePorts := by
  intro s fn cause width rate hf
  have hok : decide (fn < 2) = true := decide_eq_true hf
  refine ⟨fun hup hcause => ?reset, fun hp => ?perst, fun hp hst => ?deassert, fun hp hst h4 hw hlo hhi => ?trained,
    fun ht hd => ?timeout, fun hup => ?unsupported⟩
  case reset =>
    refine acts_of_ret (ok := fn < 2 && cause < 5) rfl (by simp [hf]; omega) ?_
    obtain rfl | rfl := hcause <;> simp [hup]
  case perst => exact acts_of_ret (ok := fn < 2 && 0 < 5) rfl (by simp [hf]) (by simp [hp])
  case deassert => exact acts_of_ret rfl hok (by simp [hp, Ctl.pcieOn, hst])
  case trained =>
    refine acts_of_ret (ok := fn < 2 && [1, 2, 4, 8].contains width && 1 ≤ rate && rate ≤ 6) rfl (by simp [hf, hlo, hhi, hw]) ?_
    simp [hp, Ctl.pcieOn, hst, h4]
  case timeout => exact acts_of_ret rfl hok (by simp [ht, hd])
  case unsupported => exact moves_updFn_of_ret rfl hok (by simp [hup])

/-! The Ethernet ports (R555 to R559). -/

/-- Nothing follows from a change of an Ethernet port that posts no entry. -/
theorem Ctl.calm_of_eth_only {old : Ctl} (e : Tab EthPort) : old.calm { old with eth := e } = true :=
  Ctl.calm_of_eq rfl rfl rfl rfl rfl rfl

section
variable {c : Ctl} {p : Nat} {f : EthFrame}

/-- A frame with a bad check sequence is counted and discarded (R556). -/
theorem Ctl.ethFrame_badFcs (hr : c.stateOf (52 + p) = 2) (hfcs : f.fcsOk = false) : c.ethFrame p f =
    ((c.updEth p fun e => { e with framesRx := e.framesRx + 1 }).updEth p fun e => { e with fcsErr := e.fcsErr + 1 }).discardFrame p := by
  simp [Ctl.ethFrame, hr, hfcs]

/-- A datagram of the port's own address and of a served UDP port waits in the buffer (R556, R557). -/
theorem Ctl.ethFrame_udp (hr : c.stateOf (52 + p) = 2) (hfcs : f.fcsOk = true) (hlen : f.len ≤ 1522)
    (hvlan : f.vlan = (c.ethPort p).cfg.vlan) (hfrag : f.fragment = false) (hopt : f.options = false) (hip : (c.ethPort p).cfg.ip ≠ 0)
    (hdst : f.dst = 0) (hproto : f.proto = 2) (hto : f.toIp = (c.ethPort p).cfg.ip)
    (hport : f.udpPort = c.serve.port ∨ f.udpPort = c.rc.mgmtPort) (hroom : (c.ethPort p).rxQ.foldl (· + ·) 0 + f.len ≤ 4194304) :
    c.ethFrame p f = (c.updEth p fun e => { e with framesRx := e.framesRx + 1 }).updEth p fun e => { e with
      rxQ := e.rxQ ++ [f.len] } := by
  have hfit : ¬ (if (c.ethPort p).cfg.jumbo = 1 then 9022 else 1522) < f.len := by split <;> omega
  obtain hport | hport := hport <;>
    simp [Ctl.ethFrame, hr, hfcs, hfit, hvlan, hfrag, hopt, hip, hdst, hproto, hto, hport, Nat.not_lt.mpr hroom]

end

theorem ethernetPorts : Clause.EthernetPorts := by
  intro s h port f aligned cfg hp
  have hok : decide (port < 2) = true := decide_eq_true hp
  refine ⟨fun hr hfcs => ?bad, fun hr hfcs hlen hvlan hfrag hopt hip hdst hproto hto hport hroom => ?udp,
    acts_of_ret rfl hok rfl, acts_of_ret rfl hok rfl, fun ha => mbxRow_ok ha rfl⟩
  case bad => exact moves_of_ret rfl hok (Ctl.ethFrame_badFcs hr hfcs) (Ctl.calm_of_eth_only _)
  case udp =>
    exact moves_of_ret rfl hok (Ctl.ethFrame_udp hr hfcs hlen hvlan hfrag hopt hip hdst hproto hto hport hroom) (Ctl.calm_of_eth_only _)

/-- Settles O22: the registers of BAR0 as they are written and read, the PCIe ports and the Ethernet ports. -/
theorem hostAndEthernetPorts : Obligations.HostAndEthernetPorts := ⟨hostRegisters, registerReads, pciePorts, ethernetPorts⟩

end Sys2Proof.Machine
end

section
/-! SUPPORT. One step: the front of the queue, and the idle step. -/

namespace Sys2Proof.Tab

theorem mem_vals_of_get? {α : Type} {k : Nat} {v : α} {t : Tab α} (h : get? k t = some v) : v ∈ vals t := by
  induction t with
  | nil => simp [get?] at h
  | cons p t ih =>
    obtain ⟨j, a⟩ := p
    unfold get? at h
    split at h
    · simp [vals, Option.some.inj h]
    · exact List.mem_cons_of_mem _ (ih h)

end Sys2Proof.Tab

namespace Sys2Proof.Machine

/-! The idle step (R61, R444). -/

/-- A collective that owes no VOTE sends none (R444). -/
theorem Ctl.voteFlush_of_none_owed {c : Ctl} (h : ∀ k ∈ c.colls.colls.vals, k.owed = []) (id : Nat) : c.voteFlush id = c := by
  unfold Ctl.voteFlush
  split
  next k hk => simp [h k (Tab.mem_vals_of_get? hk)]
  next => rfl

theorem Ctl.votesDue_of_none_owed {c : Ctl} (h : ∀ k ∈ c.colls.colls.vals, k.owed = []) : c.votesDue = c :=
  List.foldl_fixed' (Ctl.voteFlush_of_none_owed h) _

theorem step_of_pending_cons {s : State} {c : Instr} {rest : List Instr} (h : s.pending = c :: rest) :
    step s = exec c { s with pending := rest } := by
  simp [step, h]

theorem step_of_pending_nil {s : State} (h : s.pending = []) : step s = .next (idle s) := by
  simp [step, h]

/-- Settles O1: the front of the queue is carried out with the rest waiting; on an empty queue TICK counts and the VOTEs due go out,
which changes nothing where none is owed. The idle step is the model's choice (log 1). -/
theorem stepTakesFrontCommand : Obligations.StepTakesFrontCommand := by
  refine ⟨fun s c rest h => step_of_pending_cons h, fun s hp ht => ?still, fun s hp ht => ?ticks, fun s n w => ⟨rfl, rfl⟩⟩
  case still => simp [step_of_pending_nil hp, idle, ht]
  case ticks =>
    intro c
    have hstep : step s = .next { s with ctl := c.votesDue } := by rw [step_of_pending_nil hp, idle, if_pos ht]
    refine ⟨hstep, fun h => ?_⟩
    rw [hstep, Ctl.votesDue_of_none_owed (c := c) h]

end Sys2Proof.Machine
end

section
/-! SUPPORT. The status registers of a PCIe function: what a hardware set and a W1C write leave in them. -/

namespace Sys2Proof.Machine

/-! A message touches no status register (R65, R549). -/

section
variable (v : Nat) (f : Fn)

@[simp] theorem Fn.message_intStatus : (f.message v).intStatus = f.intStatus := by unfold Fn.message; split <;> rfl
@[simp] theorem Fn.message_intCount : (f.message v).intCount = f.intCount := by unfold Fn.message; split <;> rfl
@[simp] theorem Fn.message_dmaStatus : (f.message v).dmaStatus = f.dmaStatus := by unfold Fn.message; split <;> rfl
@[simp] theorem Fn.message_dmaCount : (f.message v).dmaCount = f.dmaCount := by unfold Fn.message; split <;> rfl
@[simp] theorem Fn.message_mbxStatus : (f.message v).mbxStatus = f.mbxStatus := by unfold Fn.message; split <;> rfl
@[simp] theorem Fn.message_mbxCount : (f.message v).mbxCount = f.mbxCount := by unfold Fn.message; split <;> rfl

@[simp] theorem Fn.resendDma_dmaStatus : f.resendDma.dmaStatus = f.dmaStatus :=
  foldl_keeps Fn.dmaStatus (fun f g => by split <;> simp) _ _

@[simp] theorem Fn.resendDma_dmaCount : f.resendDma.dmaCount = f.dmaCount :=
  foldl_keeps Fn.dmaCount (fun f g => by split <;> simp) _ _

end

/-! The bits that a clear leaves. -/

section
variable (x v : Nat)

theorem and_mod_two_eq : (x &&& v) % 2 = x % 2 &&& v % 2 := Nat.and_mod_two_pow (n := 1)

theorem and_mod_two_le : (x &&& v) % 2 ≤ x % 2 := and_mod_two_eq x v ▸ Nat.and_le_left

theorem clearBits_div_two : clearBits x v / 2 = clearBits (x / 2) (v / 2) := by
  have hle : x &&& v ≤ x := Nat.and_le_left
  have hlow := and_mod_two_le x v
  have hhigh : (x &&& v) / 2 = x / 2 &&& v / 2 := Nat.and_div_two
  unfold clearBits
  omega

theorem clearBits_mod_two : clearBits x v % 2 = clearBits (x % 2) (v % 2) := by
  have hle : x &&& v ≤ x := Nat.and_le_left
  have hlow := and_mod_two_le x v
  have heq := and_mod_two_eq x v
  unfold clearBits
  omega

/-- A clear takes away exactly the bits written: no bit borrows from another. -/
theorem testBit_clearBits (i : Nat) : (clearBits x v).testBit i = (x.testBit i && !v.testBit i) := by
  induction i generalizing x v with
  | zero =>
    rw [Nat.testBit_zero, clearBits_mod_two, Nat.testBit_zero, Nat.testBit_zero]
    obtain hx | hx := Nat.mod_two_eq_zero_or_one x <;> obtain hv | hv := Nat.mod_two_eq_zero_or_one v <;> simp [hx, hv, clearBits]
  | succ i ih => rw [Nat.testBit_succ, clearBits_div_two, ih, Nat.testBit_succ, Nat.testBit_succ]

end

/-! What a set and a clear leave in their register. -/

section
variable (n k v : Nat) (f : Fn)

theorem Fn.setInt_reg : (f.setInt n).intStatus = f.intStatus ||| 2 ^ n ∧ (f.setInt n).intCount = inc8 f.intCount := by
  unfold Fn.setInt
  dsimp only
  split <;> simp

theorem Fn.setDma_reg : (f.setDma n).dmaStatus = f.dmaStatus ||| 2 ^ n ∧ (f.setDma n).dmaCount = inc8 f.dmaCount := by
  unfold Fn.setDma
  dsimp only
  split <;> simp

theorem Fn.setMbx_reg : (f.setMbx n).mbxStatus = Tab.upd (n / 16) 0 (· ||| 2 ^ (n % 16)) f.mbxStatus ∧
    (f.setMbx n).mbxCount = Tab.upd (n / 16) 0 inc8 f.mbxCount := by
  unfold Fn.setMbx
  dsimp only
  split <;> simp

theorem Fn.w1cInt_reg : (f.w1cInt v).intStatus = clearBits f.intStatus (v % 8) ∧ (f.w1cInt v).intCount = f.intCount := by
  unfold Fn.w1cInt
  dsimp only
  split <;> simp

theorem Fn.w1cDma_reg : (f.w1cDma v).dmaStatus = clearBits f.dmaStatus (v % 65536) ∧ (f.w1cDma v).dmaCount = f.dmaCount := by
  simp [Fn.w1cDma]

theorem Fn.w1cMbx_reg : (f.w1cMbx k v).mbxStatus = Tab.upd k 0 (clearBits · (v % 65536)) f.mbxStatus ∧
    (f.w1cMbx k v).mbxCount = f.mbxCount := by
  unfold Fn.w1cMbx
  dsimp only
  split <;> simp

end

/-- Settles O6: a set of each kind of status register, and the W1C write to it. -/
theorem statusSetsAndClears : Obligations.StatusSetsAndClears := by
  intro f b g n v k i _ _ _ _
  refine ⟨f.setInt_reg b, f.setDma_reg g, ?setMbx, ?w1cInt, ?w1cDma, ?w1cMbx⟩
  case setMbx => simp [f.setMbx_reg n, inc8]
  case w1cInt => simp only [f.w1cInt_reg v, testBit_clearBits, and_self]
  case w1cDma => simp only [f.w1cDma_reg v, testBit_clearBits, and_self]
  case w1cMbx => simp only [f.w1cMbx_reg k v, Tab.getD_upd_same, testBit_clearBits, and_self]

end Sys2Proof.Machine
end

section
/-! SUPPORT. The tiles between dispatches, and the mailbox commands on them. -/

namespace Sys2Proof.Machine

/-! How a row that succeeds lands. -/

section
variable {s : State} {i : Instr}

/-- A row whose effect on this state is g acts as g does. -/
theorem acts_of_world_eq {ok : Bool} {f g : W → W} (he : exec i s = ret ok (s.act f)) (hok : ok = true) (hf : f s.world = g s.world) :
    Acts s i g := by
  rw [Acts, he, hok, ret_true, State.act, hf]

/-- A mailbox command that answers at once lands its effect, and nothing after its answer. -/
theorem lands_of_ok {k : Cmd} {h : Hdr} {args : List Arg} {refs : List Ref} {f : Ctx → W → Res} {eff : W → W} {body : List Byte}
    (he : exec i s = mbxRow k h args refs s f) (hf : f (s.ctl.ctxOf h.pair) (s.taken k h) = .ok body (eff (s.taken k h))) :
    Lands s k h args refs i eff body id :=
  fun ha => he.trans (mbxRow_ok ha hf)

/-- A mailbox command that answers and changes nothing reads. -/
theorem reads_of_ok {k : Cmd} {h : Hdr} {args : List Arg} {refs : List Ref} {f : Ctx → W → Res} {body : List Byte}
    (he : exec i s = mbxRow k h args refs s f) (hf : f (s.ctl.ctxOf h.pair) (s.taken k h) = .ok body (s.taken k h)) :
    Reads s k h args refs i body :=
  fun ha => he.trans (mbxRow_read ha hf)

end

/-! Between dispatches (R166, R174, R192). -/

theorem tileEvents : Clause.TileEvents := by
  intro s n idx due f x hn
  have hok : decide (n < 192) = true := decide_eq_true hn
  refine ⟨fun hst hend hfly hafter => ?done, fun hf hc hafter htok => ?complete, fun hw hd hdue => ?timeout,
    acts_of_world_eq rfl hok rfl⟩
  case done => exact acts_of_ret rfl hok (by simp [hst, hend, hfly, hafter])
  case complete => exact acts_of_world_eq rfl hok (by simp [hf, hc, hafter, htok])
  case timeout => exact acts_of_ret rfl hok (by simp [hw, hd, hdue])

/-! The commands of Table 17-13. -/

section
variable {s : State} {x : Ctx} {tiles : List Nat} (k : Cmd) (h : Hdr)

/-- Once the command is taken, a list of tiles of which none is refused still has no first refusal. -/
theorem findSome?_tileRefuse_taken (hr : ∀ t ∈ tiles, tileRefuse s.ctl x t = none) :
    tiles.findSome? (tileRefuse (s.taken k h).c x) = none :=
  List.findSome?_eq_none_iff.mpr hr

/-- Once the command is taken, of stopped tiles still none runs. -/
theorem any_running_taken (hst : ∀ t ∈ tiles, (s.ctl.tile t).st ≠ .running) :
    (tiles.any fun n => ((s.taken k h).c.tile n).st = .running) = false :=
  List.any_eq_false.mpr fun t ht => decide_eq_true_iff.not.mpr (hst t ht)

end

theorem tileCommands : Clause.TileCommands := by
  intro s h n pc tiles prog bases seed
  refine ⟨fun hr hp hb hst => ?load, fun hr hp hb => ?loadMulti, fun hr hst => ?start, fun hr => ?startMulti, fun ho hst => ?stop,
    fun ho => ?faultRead, fun ho => ?status, fun hr hst => ?seed, fun hr => ?reset⟩
  case load => exact lands_of_ok rfl (by simp [hr, hp, hb, hst])
  case loadMulti =>
    refine lands_of_ok rfl ?_
    simp only [findSome?_tileRefuse_taken _ _ fun t ht => (hr t ht).1, any_running_taken _ _ fun t ht => (hr t ht).2]
    simp [hp, hb]
  case start => exact lands_of_ok rfl (by simp [hr, hst])
  case startMulti =>
    refine lands_of_ok rfl ?_
    simp only [findSome?_tileRefuse_taken _ _ hr]
    simp
  case stop => exact lands_of_ok rfl (by simp [ho, hst])
  case faultRead => exact reads_of_ok rfl (by simp [ho])
  case status => exact reads_of_ok rfl (by simp [ho])
  case seed => exact lands_of_ok rfl (by simp [hr, hst])
  case reset => exact lands_of_ok rfl (by simp [hr])

/-- Settles O26: what happens at a tile between dispatches, and the tile commands that succeed. The model's choices: TILE_STATUS's bitmap
place (log 7), ARRAY_STEP as one step of every unit (log 42, 76), and the record of a WAIT that times out (log 75). -/
theorem tileEventsAndCommands : Obligations.TileEventsAndCommands := ⟨tileEvents, tileCommands⟩

end Sys2Proof.Machine
end

section
/-! SUPPORT. The requester's side of the fabric: what an answer completes, the windows of the flows, and the timers. -/

namespace Sys2Proof.Machine

/-! Answers (R281, R383, R411, R415). -/

section
variable {s : State} {p : Pkt} {t : Txn} {c : Ctl} {seq : Nat}

/-- An answer that completes a transaction ends it, and its tag is free. -/
theorem respond_of_completes {type : Nat} (h : s.Completes type p seq t c) (res : Except Nat (List Byte × Nat)) :
    s.world.respond type p seq res = (W.done p.tag t res { s.world with c := c }).tagFreed p.tag := by
  obtain ⟨⟨-, htype, harr, hcrc⟩, hmatch⟩ := h
  have hin := List.contains_iff_mem.mp harr
  simp [W.respond, htype, hin, hcrc, hmatch]

end

/-- TICK is no part of what taking a packet out of the arrivals changes. -/
@[simp] theorem Ctl.takeArrival_tick (p : Pkt) (c : Ctl) : (c.takeArrival p).tick = c.tick := by
  unfold Ctl.takeArrival
  dsimp only
  split <;> rfl

theorem requesterCompletes : Clause.RequesterCompletes := by
  intro s p t c
  refine ⟨fun h => ?read, fun h => ?atomic, fun h => ?error, fun h hpart => ?ack,
    fun hok htype harr hcrc htxn hcop hlate hseq hdrop hgive => ?nak⟩
  case read => exact acts_of_world_eq rfl h.whole.1 (respond_of_completes h _)
  case atomic => exact acts_of_world_eq rfl h.whole.1 (respond_of_completes h _)
  case error => exact acts_of_world_eq rfl h.whole.1 (respond_of_completes h _)
  case ack =>
    -- No recipient of a multicast is awaited, so the acknowledgement is an answer like the others.
    refine acts_of_world_eq rfl h.whole.1 ?_
    rw [← respond_of_completes h]
    simp [hpart]
  case nak =>
    -- The conditions speak of the world that the row reads, so that `simp` decides the row's branches as they are written.
    have hin : p ∈ s.world.c.fabric.arrivals := List.contains_iff_mem.mp harr
    have htxn' : (s.world.on (Ctl.takeArrival p)).c.fabric.txns.get? p.tag = some t := htxn
    have hnow : ¬ (t.late = true ∧ t.sentAt = (s.world.on (Ctl.takeArrival p)).c.tick) := by simpa using hlate
    simp only [Nat.reducePow] at hseq
    refine acts_of_world_eq rfl hok ?_
    simp [-W.on_c, -State.world_c, htype, hin, hcrc, htxn', hcop, hseq, hdrop, hgive, hnow]
    rfl

/-! The window of a flow (R279, R280, R293). -/

theorem flowWindows : Clause.FlowWindows := by
  intro c tag k id src pipe t l p ht hc hk
  refine ⟨fun h => ?full, fun h => ?frog, fun h => ?launch, rfl, fun hout hslot hwant => ?linger, fun hj hslot hl => ?orphan⟩
  case full => simp [Ctl.launch, ht, ← hk, Nat.not_lt.mpr h]
  case frog => simp [Ctl.frogOpen, h]
  case launch => simp [Ctl.launch, ht, hc, ← hk, h]
  case linger => simp [Ctl.lingerAnswer, hout, hslot, hwant]
  case orphan =>
    have hj' (f : Fabric → Fabric) : (c.onFabric f).jobEnding l.job = false := hj
    simp [Ctl.endLinger, hl, hslot, Ctl.orphanSlot, hj']
    rfl

/-! Timers, records, regions and the router (R75, R281, R387, R412, R420, R421, R425). -/

theorem fabricEvents : Clause.FabricEvents := by
  intro s tag src cls n t l r g p htag
  have hok : decide (tag < 65536) = true := decide_eq_true htag
  refine ⟨fun ht hwho hcop hdue hhome hgive => ?timeout, fun hl hdue => ?linger, fun hs hcls hr hfull hidle hmin => ?evict,
    fun hn hg hz hbusy hsp hband => ?zeroed, fun hp hself => ?own, fun hp hn hfirst hroom hcopy => ?port⟩
  case timeout =>
    -- The requester is no frog (`hwho`), so the row takes its other branch; that the packet is late now gives up no transaction.
    have ht' : s.world.c.fabric.txns.get? tag = some t := ht
    have hdue' : ¬ s.world.c.tick < t.due := Nat.not_lt.mpr hdue
    have hgive' : Ctl.givenUp { t with late := true, bad := if t.nakWait then t.bad else t.bad + 1 } = false := hgive
    simp only [hhome] at hgive'
    refine acts_of_world_eq rfl hok ?_
    simp [-State.world_c, ht', hcop, hdue', hhome, hgive']
    rfl
  case linger => exact acts_of_world_eq rfl hok (by simp [hl, hdue])
  case evict =>
    refine moves_of_ret rfl (by simp [hs, hcls]) (by simp +contextual [hr, hfull, hidle, hmin]) ?_
    exact Ctl.calm_of_eq rfl rfl rfl rfl rfl rfl
  case zeroed =>
    -- The region lies in memory and its stack is not in write stop, so the memory is set to zero.
    have hg' : s.world.c.fabric.regions.get? n = some g := hg
    have hbusy' : s.world.c.regionBusy g = false := hbusy
    have hopen : ¬ (g.space = 2 ∧ (s.world.c.stack (stackOf g.base)).band = 4) := fun h => hband h.1 h.2
    refine acts_of_world_eq rfl (decide_eq_true hn) ?_
    simp [-State.world_c, hg', hz, hbusy', hopen, hsp]
  case own => exact acts_of_ret rfl (by simp [hp]) (by simp [hself])
  case port =>
    refine acts_of_ret rfl (by simp [hp, hn]) ?_
    simp +contextual [hfirst, hroom, hcopy]

/-- Settles O31: what completes a transaction or sends its packet again, the window of a flow, and the fabric's timers. That the window
slot of a packet given up stays taken until its job is torn down is the model's reading (log 79). -/
theorem requesterAndTimers : Obligations.RequesterAndTimers := ⟨requesterCompletes, flowWindows, fabricEvents⟩

end Sys2Proof.Machine
end

section
/-! SUPPORT. The number formats: the lanes of the generator, conversion of values that the target holds, and the codes of MXINT8. -/

namespace Sys2Proof.Machine

/-! The generator (R103, R105): each of the three shift steps is one-to-one, so none takes a state to 0. -/

theorem xor_shiftRight_ne_zero {x k : Nat} (hx : x ≠ 0) (hk : 0 < k) : x ^^^ (x >>> k) ≠ 0 := by
  intro h
  have heq : x = x >>> k := Nat.xor_eq_zero_iff.mp h
  have hlt : x / 2 ^ k < x := Nat.div_lt_self (Nat.pos_of_ne_zero hx) (Nat.one_lt_two_pow hk.ne')
  rw [Nat.shiftRight_eq_div_pow] at heq
  omega

theorem xor_shiftLeft_mod_ne_zero {x k : Nat} (w : Nat) (hx : x ≠ 0) (hk : 0 < k) : x ^^^ ((x <<< k) % 2 ^ w) ≠ 0 := by
  intro h
  have heq : x = (x <<< k) % 2 ^ w := Nat.xor_eq_zero_iff.mp h
  refine hx (Nat.zero_of_testBit_eq_false fun i => ?_)
  -- Bit i of `x` is bit i - k of `x`, or 0, so no lowest set bit can exist.
  induction i using Nat.strong_induction_on with
  | _ i ih =>
    rw [heq, Nat.testBit_mod_two_pow, Nat.testBit_shiftLeft]
    by_cases hki : k ≤ i
    · simp [ih (i - k) (by omega)]
    · simp [hki]

theorem xorshift_ne_zero {v : Nat} (hv : v ≠ 0) : xorshift v ≠ 0 := by
  have ha := xor_shiftLeft_mod_ne_zero (k := 13) 32 hv (by omega)
  have hb := xor_shiftRight_ne_zero (k := 17) ha (by omega)
  exact xor_shiftLeft_mod_ne_zero (k := 5) 32 hb (by omega)

theorem xorshift_lt {v : Nat} (hv : v < 2 ^ 32) : xorshift v < 2 ^ 32 := by
  have hmod (n : Nat) : n % 2 ^ 32 < 2 ^ 32 := Nat.mod_lt _ (by decide)
  have ha := Nat.xor_lt_two_pow hv (hmod (v <<< 13))
  have hb := Nat.xor_lt_two_pow ha (lt_of_le_of_lt (Nat.shiftRight_le _ 17) ha)
  exact Nat.xor_lt_two_pow hb (hmod _)

theorem drawLane_of_getElem? {lanes : List Nat} {j v : Nat} (h : lanes[j]? = some v) :
    drawLane lanes j = (xorshift v >>> 16, lanes.set j (xorshift v)) := by
  simp only [drawLane, List.getD_eq_getElem?_getD, h, Option.getD_some, Nat.shiftRight_eq_div_pow]

theorem length_seedLanes (seed : Nat) : (seedLanes seed).length = 128 := by simp [seedLanes]

theorem seedLanes_ne_zero_and_lt {seed x : Nat} (hx : x ∈ seedLanes seed) : x ≠ 0 ∧ x < 2 ^ 32 := by
  have hmod (n : Nat) : n % 2 ^ 32 < 2 ^ 32 := Nat.mod_lt _ (by decide)
  simp only [seedLanes, List.mem_map] at hx
  obtain ⟨j, -, rfl⟩ := hx
  split
  next => decide
  next hv => exact ⟨hv, Nat.xor_lt_two_pow (Nat.xor_lt_two_pow (hmod _) (hmod _)) (hmod _)⟩

/-- Settles O13: a draw is R103's three shifts, each of which keeps a state not 0 and below 2^32; the seeding of R105 replaces 0 by 1. -/
theorem generatorLanes : Obligations.GeneratorLanes := fun _ _ _ _ hv hlt hj =>
  ⟨⟨drawLane_of_getElem? hj, xorshift_ne_zero hv, xorshift_lt hlt⟩, length_seedLanes _, fun _ => seedLanes_ne_zero_and_lt⟩

/-! The fields of a code (R78). -/

section
variable {f : FmtSpec} {c : Nat}

/-- The exponent field of a code. -/
def FmtSpec.expField (f : FmtSpec) (c : Nat) : Nat := (c >>> f.fb) % 2 ^ f.eb

/-- The fraction field of a code. -/
def FmtSpec.fracField (f : FmtSpec) (c : Nat) : Nat := c % 2 ^ f.fb

/-- The largest finite code is the last before the special codes of its format (Table 3-3). -/
def FmtSpec.MaxBeforeSpecials (f : FmtSpec) : Prop :=
  f.maxCode + 1 = match f.sp with
    | .ieee => (2 ^ f.eb - 1) * 2 ^ f.fb
    | .e4m3 => 2 ^ f.eb * 2 ^ f.fb - 1
    | .none => 2 ^ f.eb * 2 ^ f.fb

theorem FmtSpec.maxBeforeSpecials_of_mem (h : f ∈ [fBin32, fBin16, fBf16, fE4m3, fE5m2, fE3m2, fE2m3, fE2m1]) :
    f.MaxBeforeSpecials := by
  simp only [List.mem_cons, List.not_mem_nil, or_false] at h
  rcases h with rfl | rfl | rfl | rfl | rfl | rfl | rfl | rfl <;> rfl

theorem FmtSpec.fracField_lt (f : FmtSpec) (c : Nat) : f.fracField c < 2 ^ f.fb := Nat.mod_lt _ (Nat.two_pow_pos _)

theorem FmtSpec.expField_lt (f : FmtSpec) (c : Nat) : f.expField c < 2 ^ f.eb := Nat.mod_lt _ (Nat.two_pow_pos _)

/-- A code is its magnitude fields below its sign bit. -/
theorem FmtSpec.code_eq_fields (hc : c < 2 ^ (1 + f.eb + f.fb)) :
    f.expField c * 2 ^ f.fb + f.fracField c + (if c.testBit (f.eb + f.fb) then f.signBit else 0) = c := by
  have hlow : c % 2 ^ (f.eb + f.fb) = f.expField c * 2 ^ f.fb + f.fracField c := by
    rw [Nat.add_comm f.eb, pow_add, Nat.mod_mul, expField, fracField, Nat.shiftRight_eq_div_pow]
    ring
  have hhigh : c / 2 ^ (f.eb + f.fb) < 2 := Nat.div_lt_of_lt_mul (by rwa [← pow_succ, Nat.add_comm, ← Nat.add_assoc])
  have hsplit := Nat.div_add_mod c (2 ^ (f.eb + f.fb))
  rw [← hlow, Nat.testBit_eq_decide_div_mod_eq, Nat.mod_eq_of_lt hhigh, signBit]
  obtain hs | hs := Nat.le_one_iff_eq_zero_or_eq_one.mp (Nat.lt_succ_iff.mp hhigh)
  · simpa [hs] using hsplit
  · simpa [hs, Nat.add_comm] using hsplit

/-- A code of a finite value is not one of the format's special codes, and it has its subnormal or its normal value. -/
theorem FmtSpec.decode_of_isFin (h : (f.decode c).isFin = true) :
    ¬ (f.sp = .ieee ∧ f.expField c = 2 ^ f.eb - 1) ∧
    ¬ (f.sp = .e4m3 ∧ f.expField c = 2 ^ f.eb - 1 ∧ f.fracField c = 2 ^ f.fb - 1) ∧
    f.decode c = if f.expField c = 0 then .fin (c.testBit (f.eb + f.fb)) (f.fracField c) (1 - f.bias - f.fb)
      else .fin (c.testBit (f.eb + f.fb)) (2 ^ f.fb + f.fracField c) (f.expField c - f.bias - f.fb) := by
  have hdef : f.decode c =
      if f.sp = .ieee && f.expField c = 2 ^ f.eb - 1 then
        (if f.fracField c = 0 then .inf (c.testBit (f.eb + f.fb)) else .nan)
      else if f.sp = .e4m3 && f.expField c = 2 ^ f.eb - 1 && f.fracField c = 2 ^ f.fb - 1 then .nan
      else if f.expField c = 0 then .fin (c.testBit (f.eb + f.fb)) (f.fracField c) (1 - f.bias - f.fb)
      else .fin (c.testBit (f.eb + f.fb)) (2 ^ f.fb + f.fracField c) (f.expField c - f.bias - f.fb) := rfl
  rw [hdef] at h ⊢
  split at h
  next => split at h <;> simp [Fp.isFin] at h
  next hieee =>
    split at h
    next => simp [Fp.isFin] at h
    next he4m3 => exact ⟨by simpa using hieee, by simpa [and_assoc] using he4m3, by rw [if_neg hieee, if_neg he4m3]⟩

/-- The magnitude of a finite code is at most the largest finite code. -/
theorem FmtSpec.fields_le_maxCode (hmax : f.MaxBeforeSpecials) (h : (f.decode c).isFin = true) :
    f.expField c * 2 ^ f.fb + f.fracField c ≤ f.maxCode := by
  obtain ⟨hieee, he4m3, -⟩ := decode_of_isFin h
  have hfr := f.fracField_lt c
  have hex := f.expField_lt c
  -- A code whose exponent field is below n lies below n times the size of the fraction field.
  have hbelow {n : Nat} (hn : f.expField c < n) : f.expField c * 2 ^ f.fb + f.fracField c < n * 2 ^ f.fb :=
    calc _ < (f.expField c + 1) * 2 ^ f.fb := by rw [Nat.succ_mul]; omega
      _ ≤ n * 2 ^ f.fb := Nat.mul_le_mul_right _ hn
  have hall := hbelow hex
  have hfirst (hne : f.expField c ≠ 2 ^ f.eb - 1) := hbelow (n := 2 ^ f.eb - 1) (by omega)
  unfold MaxBeforeSpecials at hmax
  cases hsp : f.sp with
  | ieee =>
    have hlt := hfirst fun e => hieee ⟨hsp, e⟩
    simp only [hsp] at hmax
    omega
  | e4m3 =>
    simp only [hsp] at hmax
    by_cases htop : f.expField c = 2 ^ f.eb - 1
    · have hlast : f.fracField c ≠ 2 ^ f.fb - 1 := fun e => he4m3 ⟨hsp, htop, e⟩
      have hsucc : (f.expField c + 1) * 2 ^ f.fb ≤ 2 ^ f.eb * 2 ^ f.fb := Nat.mul_le_mul_right _ hex
      rw [Nat.succ_mul] at hsucc
      omega
    · have hlt := hfirst htop
      have hle : (2 ^ f.eb - 1) * 2 ^ f.fb + 2 ^ f.fb = 2 ^ f.eb * 2 ^ f.fb := by
        rw [← Nat.succ_mul, Nat.succ_eq_add_one, Nat.sub_add_cancel (Nat.two_pow_pos _)]
      omega
  | none =>
    simp only [hsp] at hmax
    omega

/-! Rounding a value of the target's own grid (R98, R102): the grid is the value's own exponent, so no mode rounds. -/

theorem FmtSpec.roundCode_subnormal (r : Rnd) {m : Nat} (hm : m ≠ 0) (hlt : m < 2 ^ f.fb) :
    f.roundCode r m (1 - f.bias - f.fb) = m := by
  have hlog : Nat.log2 m < f.fb := (Nat.log2_lt hm).mpr hlt
  have hgrid : max ((Nat.log2 m : Int) + (1 - f.bias - f.fb)) (1 - f.bias) - f.fb = 1 - f.bias - f.fb := by omega
  simp [roundCode, hgrid, hlt]

theorem FmtSpec.roundCode_normal (r : Rnd) {ex fr : Nat} (hex : ex ≠ 0) (hfr : fr < 2 ^ f.fb) :
    f.roundCode r (2 ^ f.fb + fr) (ex - f.bias - f.fb) = ex * 2 ^ f.fb + fr := by
  have hpos : 2 ^ f.fb + fr ≠ 0 := by omega
  have hlog : Nat.log2 (2 ^ f.fb + fr) = f.fb := (Nat.log2_eq_iff hpos).mpr (by rw [pow_succ]; omega)
  have hgrid : max ((f.fb : Int) + (ex - f.bias - f.fb)) (1 - f.bias) - f.fb = ex - f.bias - f.fb := by omega
  have hexp : ((ex : Int) - f.bias - f.fb + f.fb + f.bias).toNat = ex := by omega
  obtain ⟨n, rfl⟩ := Nat.exists_eq_succ_of_ne_zero hex
  simp only [roundCode, hlog, hgrid, hexp]
  simp [Nat.succ_mul]
  omega

/-! Conversion of finite values (R81, R98, R99). -/

theorem FmtSpec.convert_zero (sat : Bool) (r : Rnd) (n : Bool) (e : Int) :
    f.convert sat r (.fin n 0 e) = ⟨if n then f.signBit else 0, false⟩ := rfl

theorem FmtSpec.convert_of_le_maxCode (sat : Bool) {r : Rnd} (n : Bool) {m : Nat} {e : Int} (hm : m ≠ 0)
    (h : f.roundCode r m e ≤ f.maxCode) :
    f.convert sat r (.fin n m e) = ⟨f.roundCode r m e + if n then f.signBit else 0, false⟩ := by
  obtain ⟨m, rfl⟩ := Nat.exists_eq_succ_of_ne_zero hm
  exact if_neg (Nat.not_lt.mpr h)

theorem FmtSpec.convert_decode (hmax : f.MaxBeforeSpecials) (sat : Bool) (r : Rnd) (hc : c < 2 ^ (1 + f.eb + f.fb))
    (h : (f.decode c).isFin = true) : f.convert sat r (f.decode c) = ⟨c, false⟩ := by
  have hle := fields_le_maxCode hmax h
  have hcode := code_eq_fields hc
  have hfr := f.fracField_lt c
  obtain ⟨-, -, hdec⟩ := decode_of_isFin h
  rw [hdec]
  by_cases hex : f.expField c = 0
  · rw [if_pos hex]
    rw [hex, Nat.zero_mul, Nat.zero_add] at hle hcode
    by_cases hzero : f.fracField c = 0
    · rw [hzero, Nat.zero_add] at hcode
      rw [hzero, convert_zero, hcode]
    · have hround := roundCode_subnormal r hzero hfr
      rw [convert_of_le_maxCode sat _ hzero (by rwa [hround]), hround, hcode]
  · rw [if_neg hex]
    have hround := roundCode_normal r hex hfr
    rw [convert_of_le_maxCode sat _ (by omega) (by rwa [hround]), hround, hcode]

end

/-- Settles O14: a finite code's value lies on its format's grid, so rounding in either mode gives the code's fields again, and these
are at most the largest finite code. -/
theorem exactValuesUnchanged : Obligations.ExactValuesUnchanged := fun _ _ sat r hf hc h =>
  FmtSpec.convert_decode (FmtSpec.maxBeforeSpecials_of_mem hf) sat r hc h

/-! The codes of MXINT8 (R85, R100, R101). -/

/-- A byte of an integer from -127 to 127 in two's complement. -/
def NegatableByte (c : Nat) : Prop := ∃ i : Int, -127 ≤ i ∧ i ≤ 127 ∧ c = twos 8 i

theorem signed_twos_eight {i : Int} (hlo : -128 ≤ i) (hhi : i < 128) : signed 8 (twos 8 i) = i := by
  unfold signed twos
  split <;> omega

theorem NegatableByte.zero : NegatableByte 0 := ⟨0, by decide⟩

/-- Such a byte is not 0x80, and the byte of the negated integer is its exact negation. -/
theorem NegatableByte.negated {c : Nat} (h : NegatableByte c) :
    c < 256 ∧ c ≠ 0x80 ∧ ∃ d, d < 256 ∧ d ≠ 0x80 ∧ signed 8 d = -signed 8 c := by
  obtain ⟨i, hlo, hhi, rfl⟩ := h
  have hbyte {k : Int} (hlo : -127 ≤ k) (hhi : k ≤ 127) : twos 8 k < 256 ∧ twos 8 k ≠ 0x80 := by
    unfold twos
    omega
  obtain ⟨hlt, hne⟩ := hbyte hlo hhi
  obtain ⟨hlt', hne'⟩ := hbyte (k := -i) (by omega) (by omega)
  refine ⟨hlt, hne, twos 8 (-i), hlt', hne', ?_⟩
  rw [signed_twos_eight (by omega) (by omega), signed_twos_eight (by omega) (by omega)]

/-- An element of a finite value saturates at 127 in magnitude. -/
theorem negatableByte_mxElem {x : Fp} (hx : x.isFin = true) (k : Int) (r : Rnd) : NegatableByte (mxElem .mxint8 k r x).code := by
  cases x with
  | nan => cases hx
  | inf n => cases hx
  | fin n m e =>
    refine ⟨_, ?_, ?_, rfl⟩
    all_goals split <;> omega

theorem isFin_of_isFin_rne32 {x : Fp} (h : (rne32 x).isFin = true) : x.isFin = true := by
  cases x with
  | nan => exact h
  | inf n => exact h
  | fin n m e => rfl

/-- A block that has a scale other than NaN holds finite values only. -/
theorem isFin_of_mxScale {f : Fmt} {xs : List Fp} {s : Nat} (h : mxScale f xs = some s) {x : Fp} (hx : x ∈ xs) :
    x.isFin = true := by
  unfold mxScale at h
  dsimp only at h
  split at h
  next hall => exact isFin_of_isFin_rne32 (List.all_eq_true.mp hall _ (List.mem_map_of_mem hx))
  next => cases h

theorem negatableByte_convBlock (sr : Bool) (j : Nat) (xs : List Fp) (lanes : List Nat) :
    ∀ c ∈ (convBlock .mxint8 sr j xs lanes).codes, NegatableByte c := by
  -- The bytes of a block that is not rounded element by element are 0.
  have hzeros : ∀ c ∈ xs.map fun _ => 0, NegatableByte c := by
    intro c hc
    obtain ⟨-, -, rfl⟩ := List.mem_map.mp hc
    exact NegatableByte.zero
  unfold convBlock
  split
  next => exact hzeros
  next s hs =>
    split
    next => exact hzeros
    next =>
      refine List.foldlRecOn (motive := fun o : RowOut => ∀ c ∈ o.codes, NegatableByte c) _ _ nofun fun o ho p hp c hc => ?_
      rcases List.mem_append.mp hc with hc | hc
      · exact ho c hc
      · rw [List.mem_singleton.mp hc]
        exact negatableByte_mxElem (isFin_of_mxScale hs (List.fst_mem_of_mem_zipIdx hp)) _ _

theorem negatableByte_convRow (sat sr : Bool) (xs : List Fp) (lanes : List Nat) :
    ∀ c ∈ (convRow 11 sat sr xs lanes).codes, NegatableByte c := by
  refine List.foldlRecOn (motive := fun o : RowOut => ∀ c ∈ o.codes, NegatableByte c) (List.range (xs.length / 32)) _ nofun
    fun o ho b _ c hc => ?_
  rcases List.mem_append.mp hc with hc | hc
  · exact ho c hc
  · exact negatableByte_convBlock _ _ _ _ c hc

/-- Settles O15: the byte 0x80 is read as -128 of 64ths; an element saturates at 127 in magnitude and every other byte written is 0. -/
theorem mxint8Symmetric : Obligations.Mxint8Symmetric := fun xs lanes sat sr =>
  ⟨rfl, by decide, fun c hc => (negatableByte_convRow sat sr xs lanes c hc).negated⟩

end Sys2Proof.Machine
end

section
/-! SUPPORT. The instructions that the sequencer carries out at dispatch, and those of the token counters. -/

namespace Sys2Proof.Machine

/-- What `go` does to this tile and word, and to the world with the lines lost poisoned, is the dispatch's effect. -/
theorem dispatches_of_go_eq {s : State} {d : Dispatch} {i : Instr} {mine : Nat → Bool} {go : Tile → Nat → W → W} {eff : W → W}
    (he : exec i s = tileRow d mine go s) (h : canDispatch d mine s = true)
    (hgo : go (s.tileOf d) (s.wordOf d) (s.world.loseLines d.tile d.lost) = eff (s.world.loseLines d.tile d.lost)) :
    Dispatches s d i eff := by
  rw [Dispatches, he, tileRow_go h, hgo]

/-- The shortfall of a WAIT that timed out (R192) stands apart from the token counters. -/
@[simp] theorem Tile.token_shortfall (t : Tile) (l : Tab Nat) (k : Nat) : { t with shortfall := l }.token k = t.token k := rfl

/-- Past the dispatch checks none of these rows has a case to choose: each does what its rule says (R144, R172 to R174, R183, R197,
R198). -/
theorem sequencerInstructions : Clause.SequencerInstructions := by
  intro s d
  refine ⟨?hold, ?glazeDefine, ?mark, ?replay, ?loop, ?endProgram⟩
  all_goals exact fun h => dispatches_of_go_eq rfl h rfl

/-- WAIT chooses by its counter, SIGNAL by its AFTER bit, FENCE by what its classes have in flight (R191, R193, R196). -/
theorem tokenInstructions : Clause.TokenInstructions := by
  intro s d
  refine ⟨fun h hle => ?waitTakes, fun h hlt => ?waitHolds, fun h hafter => ?signal, fun h hfly => ?fence⟩
  case waitTakes => exact dispatches_of_go_eq rfl h (by simp [hle])
  case waitHolds => exact dispatches_of_go_eq rfl h (by simp [Nat.not_le.mpr hlt])
  case signal => exact dispatches_of_go_eq rfl h (by simp [hafter, W.on])
  case fence =>
    have hpass : ((s.tileOf d).inflight.any fun f => bit (s.wordOf d) (16 + f.cls)) = false :=
      List.any_eq_false.mpr fun f hf => ne_true_of_eq_false (hfly f hf)
    exact dispatches_of_go_eq rfl h (if_neg (ne_true_of_eq_false hpass))

/-- Settles O23: the instructions that the sequencer carries out, HOLD, and those of the token counters. -/
theorem sequencerAndTokens : Obligations.SequencerAndTokens := ⟨sequencerInstructions, tokenInstructions⟩

end Sys2Proof.Machine
end

section
/-! SUPPORT. The instructions of the mesh port at dispatch. -/

namespace Sys2Proof.Machine

/-- Settles O25: past the dispatch checks each row enters its unit with what its rule builds from the word (R175, R188) and pumps the
mesh port. LOAD and STORE read their base, key and job from the tile and the controllers, which lines lost in the stores leave alone. -/
theorem meshInstructions : Obligations.MeshInstructions := by
  intro s d
  refine ⟨fun h => ?load, fun h => ?store, fun h => ?send, fun h => ?recv⟩
  all_goals exact dispatches_of_go_eq rfl h rfl

end Sys2Proof.Machine
end

section
/-! SUPPORT. The canonical form of memory through every step. -/

namespace Sys2Proof.Machine

/-- An outcome that leaves memory in canonical form where it is a next state. -/
def KeepsSound (o : Host.Outcome State Fault Refusal) : Prop := ∀ t, o = .next t → t.Sound

theorem ret_keepsSound {ok : Bool} {s : State} (h : s.Sound) : KeepsSound (ret ok s) := by
  intro t ht
  cases ok with
  | true => cases ht; exact h
  | false => cases ht

section
variable {s : State} (hs : s.Sound)
include hs

/-- A meaning that runs over the module keeps the form, whatever its effect: `State.land` changes memory by the effect's list of
operations alone, each of which keeps it. -/
theorem act_keepsSound (ok : Bool) (f : W → W) : KeepsSound (ret ok (s.act f)) := ret_keepsSound (s.act_wf f hs)

/-- A command that stays in its ring while it cannot start changes nothing of memory. -/
theorem ite_mbxRow_keepsSound (b : Prop) [Decidable b] (k : Cmd) (h : Hdr) (args : List Arg) (refs : List Ref) (f : Ctx → W → Res) :
    KeepsSound (if b then ret (hdrOk h) s else mbxRow k h args refs s f) := by
  split
  · exact ret_keepsSound hs
  · exact act_keepsSound hs _ _

/-- A row of the Tally writes no memory before the RC's part of it runs over the module. -/
theorem tallyRow_keepsSound (ok : Bool) (f : Tally → Tally) : KeepsSound (tallyRow ok s f) :=
  act_keepsSound (s := { s with tally := f s.tally }) hs _ _

theorem poweredRow_keepsSound (ok : Bool) (f : Tally → Tally) : KeepsSound (poweredRow ok s f) := tallyRow_keepsSound hs _ _

theorem standbyRow_keepsSound (ok : Bool) (f : W → W) : KeepsSound (standbyRow ok s f) := act_keepsSound hs _ _

/-- Every row is a meaning that runs over the module, a row of the Tally, or a command that can stay in its ring. -/
theorem exec_keepsSound (i : Instr) : KeepsSound (exec i s) := by
  unfold exec
  cases i with
  | sysSessionClose | sysStageWrite | collStart => exact ite_mbxRow_keepsSound hs _ _ _ _ _ _
  | tallyRecordFrame | tallyEnrolment | tallyReadout | tallySample | energyPulseEnd | tallyCommit | tallyTempRead
  | tallyInputLost =>
    exact poweredRow_keepsSound hs _ _
  | lidTamper | gessoRailsOff | railOutOfRange | clockGlitch | alarmInAssert | alarmSourceClear | smbusWrite | smbusRead =>
    exact standbyRow_keepsSound hs _ _
  | tallyPowerUp | tallyMeshBreach => exact tallyRow_keepsSound hs _ _
  | _ => exact act_keepsSound hs _ _

end

/-- An idle step changes nothing of memory. -/
theorem idle_mem (s : State) : (idle s).mem = s.mem := by
  unfold idle
  split <;> rfl

/-- Settles O4: a step idles, which leaves memory alone, or carries out the command at the front of the queue, and every row keeps the
canonical form. -/
theorem stepKeepsMemoryCanonical : Obligations.StepKeepsMemoryCanonical := by
  intro s t hs hstep
  cases hp : s.pending with
  | nil =>
    rw [step_of_pending_nil hp] at hstep
    cases hstep
    exact (congrArg Mem.wf (idle_mem s)).trans hs
  | cons c rest =>
    rw [step_of_pending_cons hp] at hstep
    exact exec_keepsSound (s := { s with pending := rest }) hs c t hstep

end Sys2Proof.Machine
end

section
/-! SUPPORT. The memory stacks: their commands and their events. -/

namespace Sys2Proof.Machine

/-! What taking a command and spoiling symbols leave as they are. -/

@[simp] theorem Ctl.consume_usable (k : Cmd) (h : Hdr) (c : Ctl) (i : Nat) : (c.consume k h).usable i = c.usable i := rfl
@[simp] theorem W.strike_c (st : Nat) (flips : List Flip) (w : W) : (w.strike st flips).c = w.c := rfl

/-! Table 7-9. -/

theorem stackCommands : Clause.StackCommands := by
  intro s h st ch lane hours sp first count
  refine ⟨fun ha => ?scrub, fun hu hlane hcarry hcopy hdead hsp => ?darn, reads_of_ok rfl rfl, reads_of_ok rfl rfl⟩
  case scrub =>
    refine mbxRow_done ha rfl ?_
    exact Ctl.calm_of_eq (by simp) (by simp) (by simp) (by simp) (by simp) (by simp)
  case darn =>
    have hlive : lane ∉ ((s.ctl.stack st).chan ch).deadLanes := by simpa using hdead
    exact lands_of_ok rfl (by simp [hu, hlane, hcarry, hcopy, hlive, hsp])

/-! Patrol, darning and lane training (R218, R219, R222, R223, R225). -/

theorem stackEvents : Clause.StackEvents := by
  intro s st ch p sp flips failed hst hch
  refine ⟨fun hok hserve hband hcopy => ?patrol, fun hok hserve hband hcopy hat => ?copy, fun hcopy hband hlost hserve => ?darned,
    fun hf htrain hfirst hband => ?init⟩
  case patrol => exact acts_of_world_eq rfl (by simp [hst, hch, hok]) (by simp [Nat.not_le.mpr hserve, hband, hcopy])
  case copy => exact acts_of_world_eq rfl (by simp [hst, hch, hok]) (by simp [Nat.not_le.mpr hserve, hband, hcopy, hat, W.copyStep])
  case darned => exact acts_of_world_eq rfl (by simp [hst, hch]) (by simp [Nat.not_le.mpr hserve, hband, hcopy, hlost])
  case init => exact acts_of_world_eq rfl (by simpa [hst] using hf) (by simp [htrain, hfirst, hband])

/-- Settles O27: each command and event takes the branch of its row that the premises name. The lane that a darn's record names and the
copy's pace are the model's reading (log 43), the order of the log's list log 27. -/
theorem stackRows : Obligations.StackRows := ⟨stackCommands, stackEvents⟩

end Sys2Proof.Machine
end

section
/-! SUPPORT. A write of bytes, cut at line boundaries: what each piece does to its line, and what the pieces do together. -/

namespace Sys2Proof.Machine

/-- The n bytes from key k cover line l whole. -/
abbrev CoversLine (k n l : Nat) : Prop := k ≤ 64 * l ∧ 64 * l + 64 ≤ k + n

/-! One piece: bytes that lie in one line. -/

section
variable {m : Mem} {k : Nat} {d : List Byte}

/-- A piece starts where its line starts and is as long, exactly where it covers its line whole. -/
theorem wholeLine_iff (hd : k % 64 + d.length ≤ 64) : (k % 64 = 0 ∧ d.length = 64) ↔ CoversLine k d.length (k / 64) := by
  omega

theorem Mem.isPoisoned_writeBytes (l : Nat) : (m.writeBytes k d).isPoisoned l = m.isPoisoned l := by
  simp [Mem.isPoisoned, Mem.writeBytes_poison]

theorem Mem.isPoisoned_clearPoison (j l : Nat) : (m.clearPoison j).isPoisoned l = true ↔ m.isPoisoned l = true ∧ l ≠ j := by
  simp [Mem.isPoisoned, Mem.clearPoison]

/-- Bytes written read back, and every other byte reads as before. -/
theorem Mem.read_writeBytes_eq (hm : m.wf = true) (i : Nat) :
    (m.writeBytes k d).read i = if k ≤ i ∧ i < k + d.length then d.getD (i - k) 0 else m.read i := by
  split
  next h =>
    obtain ⟨j, rfl⟩ := Nat.exists_eq_add_of_le h.1
    have hj : j < d.length := by omega
    rw [Mem.read_writeBytes d hm hj, Nat.add_sub_cancel_left, List.getD_eq_getElem _ _ hj]
  next h => exact Mem.read_writeBytes_other d hm (by omega)

/-- The poison of its line leaves with a piece that covers it whole, and no other poison does. -/
theorem Mem.isPoisoned_writeInLine (hd : k % 64 + d.length ≤ 64) (l : Nat) :
    (m.writeInLine k d).isPoisoned l = true ↔ m.isPoisoned l = true ∧ ¬ (l = k / 64 ∧ CoversLine k d.length (k / 64)) := by
  rw [← wholeLine_iff hd, Mem.writeInLine]
  by_cases hw : k % 64 = 0 ∧ d.length = 64
  · simp [hw, Mem.isPoisoned_writeBytes, Mem.isPoisoned_clearPoison]
  · by_cases hp : m.isPoisoned (k / 64) = true <;> simp [hw, hp, Mem.isPoisoned_writeBytes]

/-- A piece stores its bytes where it covers its line whole or the line is not poisoned, and else is discarded. -/
theorem Mem.read_writeInLine (hm : m.wf = true) (hd : k % 64 + d.length ≤ 64) (i : Nat) :
    (m.writeInLine k d).read i =
      if (k ≤ i ∧ i < k + d.length) ∧ (CoversLine k d.length (k / 64) ∨ m.isPoisoned (k / 64) = false) then d.getD (i - k) 0
      else m.read i := by
  simp only [← wholeLine_iff hd, Mem.writeInLine]
  by_cases hw : k % 64 = 0 ∧ d.length = 64
  · simp [hw, Mem.read_writeBytes_eq (m.clearPoison_wf (k / 64) hm)]
    rfl
  · by_cases hp : m.isPoisoned (k / 64) = true <;> simp [hw, hp, Mem.read_writeBytes_eq hm]

end

/-! The pieces together. -/

/-- The pieces of a write are written one after another. -/
theorem Buf.write_mem (b : Buf) (k : Nat) (data : List Byte) : (b.write k data).mem = b.mem.writeLines k data := by
  suffices h : ∀ (l : List (Nat × List Byte)) (b : Buf),
      (b.opsAll (l.map fun p => .line p.1 p.2)).mem = l.foldl (fun m p => m.writeInLine p.1 p.2) b.mem from h _ b
  intro l
  induction l with
  | nil => intro b; rfl
  | cons p t ih => intro b; exact ih (b.op (.line p.1 p.2))

/-- Bytes from key k to the end of its line. -/
def lineRoom (k : Nat) : Nat := 64 - k % 64

theorem lineRoom_add_mod (k : Nat) : lineRoom k + k % 64 = 64 := Nat.sub_add_cancel (Nat.mod_lt k (by decide)).le

/-- A byte at key i of a write of n bytes from key k takes its new value: its line is covered whole or not poisoned. -/
abbrev Mem.Takes (m : Mem) (k n i : Nat) : Prop :=
  (k ≤ i ∧ i < k + n) ∧ (CoversLine k n (i / 64) ∨ m.isPoisoned (i / 64) = false)

section
variable {m : Mem} {k n i : Nat}

/-- A line that a write covers whole is its first piece's, or the rest covers it whole. -/
theorem coversLine_cut (k n l : Nat) :
    CoversLine k n l ↔ (l = k / 64 ∧ CoversLine k (min (lineRoom k) n) (k / 64)) ∨ CoversLine (k + lineRoom k) (n - lineRoom k) l := by
  have hroom := lineRoom_add_mod k
  omega

/-- In the line where a write begins, its first piece decides. -/
theorem Mem.takes_of_lt_lineEnd (hi : i < k + lineRoom k) : m.Takes k n i ↔ (k ≤ i ∧ i < k + min (lineRoom k) n) ∧
    (CoversLine k (min (lineRoom k) n) (k / 64) ∨ m.isPoisoned (k / 64) = false) := by
  have hroom := lineRoom_add_mod k
  rw [Mem.Takes, show (k ≤ i ∧ i < k + n) ↔ (k ≤ i ∧ i < k + min (lineRoom k) n) by omega]
  refine and_congr_right fun hk => ?_
  have hline : i / 64 = k / 64 := by omega
  have hrest : ¬ CoversLine (k + lineRoom k) (n - lineRoom k) (k / 64) := by omega
  rw [coversLine_cut, hline]
  simp [hrest]

/-- Behind that line the rest of the write decides, over a memory of the same poison there. -/
theorem Mem.takes_of_lineEnd_le {m' : Mem} (hi : k + lineRoom k ≤ i) (hp : m'.isPoisoned (i / 64) = m.isPoisoned (i / 64)) :
    m.Takes k n i ↔ m'.Takes (k + lineRoom k) (n - lineRoom k) i := by
  have hroom := lineRoom_add_mod k
  have hline : i / 64 ≠ k / 64 := by omega
  rw [Mem.Takes, Mem.Takes, hp, coversLine_cut]
  simp only [hline, false_and, false_or]
  refine and_congr_left' ?_
  omega

end

section
variable {data : List Byte} {k : Nat}

theorem cutLines_succ (hne : data ≠ []) (f : Nat) :
    cutLines (f + 1) k data = (k, data.take (lineRoom k)) :: cutLines f (k + lineRoom k) (data.drop (lineRoom k)) := by
  simp [cutLines, hne, lineRoom]

theorem getD_take_of_lt {i : Nat} (hi : i < k) : (data.take k).getD i 0 = data.getD i 0 := by
  simp [List.getD_eq_getElem?_getD, hi]

theorem getD_drop_of_le {i : Nat} (hi : k ≤ i) : (data.drop k).getD (i - k) 0 = data.getD i 0 := by
  simp [List.getD_eq_getElem?_getD, Nat.add_sub_cancel' hi]

/-- The first piece of a write lies in one line. -/
theorem firstPiece_inLine (data : List Byte) (k : Nat) : k % 64 + (data.take (lineRoom k)).length ≤ 64 := by
  have hroom := lineRoom_add_mod k
  simp only [List.length_take]
  omega

end

/-- Poison leaves exactly the lines that the pieces cover whole between them. -/
theorem isPoisoned_foldl_cutLines (l : Nat) : ∀ (f : Nat) (m : Mem) (k : Nat) (data : List Byte), data.length < f →
    (((cutLines f k data).foldl (fun m p => m.writeInLine p.1 p.2) m).isPoisoned l = true ↔
      m.isPoisoned l = true ∧ ¬ CoversLine k data.length l)
  | f + 1, m, k, data, hf => by
    by_cases hne : data = []
    · have hnone : ¬ CoversLine k 0 l := by omega
      simp [hne, cutLines, hnone]
    · have hpos := List.length_pos_iff.mpr hne
      have hroom := lineRoom_add_mod k
      rw [cutLines_succ hne, List.foldl_cons, isPoisoned_foldl_cutLines l f _ _ _ (by simp; omega),
        Mem.isPoisoned_writeInLine (firstPiece_inLine data k), coversLine_cut k data.length l]
      simp only [List.length_take, List.length_drop]
      tauto

/-- The pieces of a write store its bytes in the lines that take them, and leave every other byte alone. -/
theorem read_foldl_cutLines (i : Nat) : ∀ (f : Nat) (m : Mem) (k : Nat) (data : List Byte), m.wf = true → data.length < f →
    ((cutLines f k data).foldl (fun m p => m.writeInLine p.1 p.2) m).read i =
      if m.Takes k data.length i then data.getD (i - k) 0 else m.read i
  | f + 1, m, k, data, hm, hf => by
    by_cases hne : data = []
    · have hnone : ¬ m.Takes k 0 i := by omega
      simp [hne, cutLines, hnone]
    · have hpos := List.length_pos_iff.mpr hne
      have hroom := lineRoom_add_mod k
      have hin := firstPiece_inLine data k
      have hfirst := Mem.read_writeInLine hm hin i
      have hpois := Mem.isPoisoned_writeInLine (m := m) hin (i / 64)
      rw [cutLines_succ hne, List.foldl_cons, read_foldl_cutLines i f _ _ _ (m.writeInLine_wf _ _ hm) (by simp; omega)]
      simp only [List.length_take, List.length_drop] at hfirst ⊢
      by_cases hi : i < k + lineRoom k
      · -- The byte is none of the rest's.
        rw [if_neg (by omega), hfirst]
        refine if_ctx_congr (Mem.takes_of_lt_lineEnd hi).symm (fun h => getD_take_of_lt (by omega)) fun _ => rfl
      · -- The byte is none of the first piece's, whose line is another.
        have hline : i / 64 ≠ k / 64 := by omega
        rw [hfirst, if_neg (c := _ ∧ (_ ∨ m.isPoisoned (k / 64) = false)) (by omega), Nat.sub_add_eq, getD_drop_of_le (by omega)]
        exact if_congr (Mem.takes_of_lineEnd_le (by omega) (Bool.eq_iff_iff.mpr (by simp [hpois, hline]))).symm rfl rfl

section
variable {m : Mem} (k : Nat) (data : List Byte)

theorem Mem.writeLines_wf (hm : m.wf = true) : (m.writeLines k data).wf = true :=
  List.foldlRecOn (motive := fun m : Mem => m.wf = true) _ _ hm fun m hm _ _ => m.writeInLine_wf _ _ hm

theorem Mem.isPoisoned_writeLines (l : Nat) :
    (m.writeLines k data).isPoisoned l = true ↔ m.isPoisoned l = true ∧ ¬ CoversLine k data.length l :=
  isPoisoned_foldl_cutLines l _ m k data (Nat.lt_succ_self _)

theorem Mem.read_writeLines (hm : m.wf = true) (i : Nat) :
    (m.writeLines k data).read i = if m.Takes k data.length i then data.getD (i - k) 0 else m.read i :=
  read_foldl_cutLines i _ m k data hm (Nat.lt_succ_self _)

end

/-- Settles O10: the two equations of `Mem.writeLines`, one for the bytes and one for the poison, at the places that the statement names. -/
theorem writesActByLine : Obligations.WritesActByLine := by
  intro b k i data hm whole m
  have hread := Mem.read_writeLines k data hm
  have hpois := Mem.isPoisoned_writeLines (m := b.mem) k data
  rw [← Buf.write_mem] at hread hpois
  refine ⟨(congrArg Mem.wf (Buf.write_mem b k data)).trans (Mem.writeLines_wf k data hm), fun hi htake => ?stored, fun hp hpart => ⟨?kept, ?still⟩,
    fun hout => ?outside, hpois i⟩
  case stored => rw [hread, if_pos ⟨by omega, htake⟩, Nat.add_sub_cancel_left]
  case kept => rw [hread, if_neg fun h => h.2.elim hpart (by simp [hp])]
  case still => exact (hpois _).mpr ⟨hp, hpart⟩
  case outside => rw [hread, if_neg (by omega)]

end Sys2Proof.Machine
end

section
/-! SUPPORT. The Palette engines: the turn and the start of a command, the stores to a queue's lines, and the end of a command. -/

namespace Sys2Proof.Machine

/-! The start of a command (R247 to R259). -/

section
variable {s : State} {st q op : Nat} {x : PalQueue} {cmd : List Byte} {rest : List (List Byte)}

/-- A row of the nine commands starts its queue's next command where that is of the row's opcode and comes next in the rotation. -/
theorem palRow_starts {i : Instr} (he : exec i s = palRow op st q s) (hst : st < 8) (hq : q < 32) (hx : s.ctl.palQueue st q = some x)
    (hcmd : x.waiting = cmd :: rest) (hnext : s.ctl.palNext st = some q) (hop : palOp cmd = op) : Acts s i (W.palStart st q x cmd) :=
  acts_of_world_eq he (by simp [hst, hq]) (by simp [hx, hcmd, hnext, hop])

end

theorem paletteStarts : Clause.PaletteStarts := by
  intro s st q x cmd rest hst hq hx hcmd hnext
  refine ⟨?_, ?_, ?_, ?_, ?_, ?_, ?_, ?_, ?_⟩
  all_goals exact palRow_starts rfl hst hq hx hcmd hnext

/-! The rotation (R240, R247). -/

theorem Ctl.palReady_iff (c : Ctl) (st q : Nat) : c.palReady st q = true ↔
    ∃ x cmd rest, c.palQueue st q = some x ∧ x.waiting = cmd :: rest ∧ (c.stack st).band ≠ 4 ∧
      (c.stateOf (7 + st) = 2 ∨ c.stateOf (7 + st) = 3 ∨ c.stateOf (7 + st) = 4) ∧
      ((c.stack st).execs.filter (·.started)).length < 8 ∧
      (palOrdered cmd = true → ∀ e ∈ (c.stack st).execs, e.queue ≠ q) ∧ ∀ b, palBank cmd = some b → 0 < (c.stack st).credits b := by
  unfold Ctl.palReady
  cases hx : c.palQueue st q with
  | none => simp
  | some x =>
    cases hw : x.waiting with
    | nil => simp [hw]
    | cons cmd rest =>
      have horder : (palOrdered cmd = false ∨ ∀ e ∈ (c.stack st).execs, ¬ e.queue = q) ↔
          (palOrdered cmd = true → ∀ e ∈ (c.stack st).execs, ¬ e.queue = q) := by
        rw [← Bool.not_eq_true, ← imp_iff_not_or]
      simp [hw, horder, Option.all_eq_true]
      tauto

theorem Ctl.palNext_eq_some {c : Ctl} {st q : Nat} (h : c.palNext st = some q) : ∃ i < 32, ((c.stack st).turn + 1 + i) % 32 = q ∧
    c.palReady st q = true ∧ ∀ j < i, c.palReady st (((c.stack st).turn + 1 + j) % 32) = false := by
  rw [Ctl.palNext, List.find?_map, Option.map_eq_some_iff] at h
  obtain ⟨i, hfind, rfl⟩ := h
  obtain ⟨hready, hi, hbefore⟩ := List.find?_range_eq_some.mp hfind
  exact ⟨i, List.mem_range.mp hi, rfl, hready, fun j hj => by simpa using hbefore j hj⟩

theorem paletteTurn : Clause.PaletteTurn := by
  intro c st q
  refine ⟨fun hnext => ?_, c.palReady_iff st q⟩
  obtain ⟨i, hi, hq, hready, hbefore⟩ := Ctl.palNext_eq_some hnext
  have hplace : i = (q + 31 - (c.stack st).turn % 32) % 32 := by omega
  exact ⟨by omega, hready, hplace ▸ hbefore⟩

theorem paletteRuns : Clause.PaletteRuns := by
  intro w st q x cmd c hstate hc hcheck f r
  subst hc
  rw [W.palStart]
  simp only
  rw [if_neg, if_neg]
  · rfl
  · simpa using hcheck
  · exact hstate

/-! At the home: how a request that is admitted goes on (R245, R246, R411). -/

section
variable {s : State} {p : Pkt} {r : W × List Pkt}

/-- An admitted request is applied to its fresh entries. -/
theorem strike_atHome_of_admits {flips : List Flip} {type : Nat} (h : s.Admits p flips r) (htype : p.type = type) (go : List Pkt → W → W) :
    (s.world.strike (stackOf p.offset) flips).atHome type p go = go r.2 r.1 := by
  obtain ⟨⟨-, -, harr, hcrc⟩, hway, hrec, hent, hfresh, ⟨n, hall⟩, hfree⟩ := h
  have hin := List.contains_iff_mem.mp harr
  simp only [W.atHome, W.strike_c, State.world_c, hrec]
  simp [htype, hin, hway, hcrc, hent, hfresh, hall, hfree]

theorem atHome_of_admits {type : Nat} (h : s.Admits p [] r) (htype : p.type = type) (go : List Pkt → W → W) :
    s.world.atHome type p go = go r.2 r.1 :=
  strike_atHome_of_admits h htype go

end

theorem paletteEvents : Clause.PaletteEvents := by
  intro s st q idx n p r c e h
  refine ⟨fun htype hsp hbit huse hoff hacc => ?cmd, fun htype hsp hbit huse hhead => ?head, fun hn hcomp => ?complete⟩
  case cmd =>
    refine acts_of_world_eq rfl h.whole.1 ?_
    simp [hsp, hbit, atHome_of_admits h htype, W.windowStore, huse, hoff, hacc]
  case head =>
    refine acts_of_world_eq rfl h.whole.1 ?_
    simp [hsp, hbit, atHome_of_admits h htype, W.windowStore, huse, hhead]
  case complete => exact acts_of_world_eq rfl (by simp [hn]) (by simp [hcomp])

/-- A queue that does not exist, is closing, or is given less than a whole line refuses a command with QUEUE_REFUSED, and one without a
free slot with QUEUE_FULL (R245); each is counted. -/
theorem Ctl.palAccept_refused {c : Ctl} {st q : Nat} {cmd : List Byte} (hopen : (c.locked || c.alarms.gesso) = false)
    (hwhy : ∀ x, c.palQueue st q = some x → (x.closing || cmd.length != 64) = true ∨ 64 ≤ Ctl.slotsUsed x) :
    c.palAccept st q cmd = (.error (if (c.palQueue st q).all (fun x => x.closing || cmd.length != 64) then 0x050A else 0x0509),
      c.updStack st fun y => { y with rejects := inc32 y.rejects }) := by
  unfold Ctl.palAccept
  cases hx : c.palQueue st q with
  | none => rfl
  | some x =>
    by_cases hbad : (x.closing || cmd.length != 64) = true
    · simp only [hopen, hbad, Option.all_some]
      rfl
    · have hfull : 64 ≤ Ctl.slotsUsed x := (hwhy x hx).resolve_left hbad
      simp only [hopen, hbad, hfull, Option.all_some]
      rfl

/-- The bytes of a store to a CMD line are a whole line where it starts the line and carries its 64 bytes behind the 8 of its head. -/
theorem cmdBytes_length_bne (p : Pkt) :
    ((if p.offset % 64 = 0 then p.payload.drop 8 else []).length != 64) = (p.offset % 64 != 0 || p.payload.length != 72) := by
  by_cases hoff : p.offset % 64 = 0
  · rw [Bool.eq_iff_iff]
    simp [hoff]
    omega
  · simp [hoff]

theorem paletteRefusals : Clause.PaletteRefusals := by
  intro s st q code p r h htype hsp hbit huse hopen hwhy hcode
  have hrefused := Ctl.palAccept_refused (st := st) (q := q) (cmd := if p.offset % 64 = 0 then p.payload.drop 8 else []) hopen
    fun x hx => by simpa [cmdBytes_length_bne, or_assoc] using hwhy x hx
  simp only [cmdBytes_length_bne, ← Bool.or_assoc, ← hcode] at hrefused
  refine acts_of_world_eq rfl h.whole.1 ?_
  simp only [hsp, hbit, atHome_of_admits h htype, W.windowStore, huse, hrefused]
  rfl

/-- Settles O29: the turn, the start and what it computes, the stores to a queue's lines, and the end of a command. That one credit stands
for a command's line operations is the model's reading (log 44). -/
theorem paletteEngineRows : Obligations.PaletteEngineRows :=
  ⟨paletteStarts, paletteTurn, paletteRuns, paletteEvents, paletteRefusals⟩

end Sys2Proof.Machine
end

section
/-! SUPPORT. A step that is late under CARRY or DROP, on a table of collectives that lists one number twice. -/

namespace Sys2Proof.Machine

/-- An ALL_REDUCE DIRECT of two elements, whose late policy is CARRY. -/
def carryArgs : CollArgs :=
  { id := 0, job := 1, op := 1, algorithm := 1, dimMask := 1, root := 0, count := 2, fmt := 3, bufIn := 0, out0 := 0, out1 := 0
    work0 := none, work1 := none, carry0 := none, carry1 := none, commitMode := 0, stepTimeout := 10000, policy := 1, fallback := 2
    genFirst := 0, ring := none, tile := 0, token := 0, cmds := [] }

/-- Its member 0 of two, in the midst of a step that awaits member 1 and is late; a hold keeps it from going on to the next. -/
def lateColl (step : Nat) : Coll :=
  { a := carryArgs, session := 0, start := 0, dims := [⟨0, 2, 0, false⟩], members := [3, 4], st := .running, gen := 0, step
    begun := true, stepDue := some 0, hold := some 0, policy := 1, policyNext := 1, stepTimeout := 10000, timeoutNext := 10000 }

/-- Collective 0 is listed twice, once at step 0 and once at step 1. -/
def twiceListed : State := { State.reset with ctl := { colls := { colls := [(0, lateColl 0), (0, lateColl 1)] } } }

/-- The step that the first is at: it sends block 1 to member 1 and awaits block 0 from it. -/
def lateStep : CStep :=
  { type := 0x20, phase := 0, sends := [([1], [1], none)], await := [(1, [0])], own := [0], reducing := true }

/-- What the collectives of a next state have released: steps and members. -/
def releasedIn : Host.Outcome State Fault Refusal → List (List (Nat × Nat))
  | .next t => t.ctl.colls.colls.vals.map (·.released)
  | _ => []

/-- The row releases member 1 in each of the two at the step that it is in. -/
theorem releasedIn_exec_twiceListed : releasedIn (exec (.stepTimeoutExpire 0) twiceListed) = [[(0, 1)], [(1, 1)]] := by decide

/-- Refutes O45: under CARRY and DROP the statement of the late step releases its members at the step of the collective that the number
finds first, while the row releases them in every entry of that number at the entry's own step. The statement speaks of every state,
and on one whose table lists the number twice, at two steps, the second entry tells the two apart. -/
theorem not_engineLinesAndTimers : ¬ Obligations.EngineLinesAndTimers := by
  rintro ⟨-, htimers, -⟩
  obtain ⟨hcoll, -⟩ := htimers twiceListed 0 1 0 0 0 (lateColl 0) lateStep { tiles := [] }
    { who := .record, pkt := Ctl.reqPkt 2 1 0 0 0 [] } (by decide)
  obtain ⟨hlate, -⟩ := hcoll rfl
  obtain ⟨-, hrelease⟩ := hlate rfl (by decide) rfl rfl (by decide) (by decide)
  have hsaid := congrArg releasedIn (hrelease rfl (by decide))
  rw [releasedIn_exec_twiceListed] at hsaid
  exact absurd hsaid (by decide)

end Sys2Proof.Machine
end

section
/-! SUPPORT. The mailbox commands of the serving engine: the model, its pools and its tokeniser tables, and the contracts. -/

namespace Sys2Proof.Machine

/-- A mailbox command that starts and then waits lands its effect and the wait. -/
theorem waits_of_wait {s : State} {i : Instr} {k : Cmd} {h : Hdr} {args : List Arg} {refs : List Ref} {f : Ctx → W → Res} {eff : W → W}
    {x : WaitFor} (he : exec i s = mbxRow k h args refs s f) (hf : f (s.ctl.ctxOf h.pair) (s.taken k h) = .wait x (eff (s.taken k h))) :
    Waits s k h args refs i eff x :=
  fun ha => he.trans (mbxRow_wait ha hf)

section
variable {c : Ctl} {x : Ctx} {cid : Nat} {y : Contract}

theorem needServe_of_usable (h : c.usable 19 = true) : needServe c = none := by simp [needServe, h]

theorem contractFor_of_owns (hy : c.contract? cid = some y) (ho : x.owns y.job = true) (args : List Arg) :
    contractFor c x cid args = .ok y := by
  simp [contractFor, hy, ho]

end

/-! Taking a command out of its ring leaves the serving engine as it was. -/

section
variable (k : Cmd) (h : Hdr) (c : Ctl)

@[simp] theorem Ctl.consume_contract? (cid : Nat) : (c.consume k h).contract? cid = c.contract? cid := rfl
@[simp] theorem Ctl.consume_residents : (c.consume k h).residents = c.residents := rfl
@[simp] theorem Ctl.consume_intake : (c.consume k h).intake = c.intake := rfl
@[simp] theorem poolLimitsFail_consume (m : Model) (limits : List Nat) :
    poolLimitsFail (c.consume k h) m limits = poolLimitsFail c m limits := rfl

end

theorem serveModel : Clause.ServeModel := by
  intro s h a m slot block table limits pools c
  dsimp only
  refine ⟨fun hfail hpois hopen => ?load, fun hm ho => ⟨?unload, fun hu hlim => ⟨fun hnone => ?shrunk, fun hmore => ?shrinking⟩⟩,
    fun hu hok hfree => ?tokeniser⟩
  case load => exact lands_of_ok rfl (by simp [hfail, hpois, hopen])
  case unload => exact lands_of_ok rfl (by simp [hm, ho])
  case shrunk => exact lands_of_ok rfl (by simp [needServe_of_usable, hm, ho, hlim, hu, hnone])
  case shrinking => exact waits_of_wait rfl (by simp [needServe_of_usable, hm, ho, hlim, hu, hmore])
  case tokeniser => exact lands_of_ok rfl (by simpa [needServe_of_usable, hu, hok] using hfree)

theorem serveContracts : Clause.ServeContracts := by
  intro s h a0 m cid seq b step ctx key y r
  dsimp only
  refine ⟨fun hm => ⟨fun hfail => ?create, fun ho hctx => ?floor⟩, fun hy ho => ⟨?key, fun hopen => ⟨fun hstay => ?closing, fun hgone => ?closed⟩,
    ?status, fun hr => ?window⟩⟩
  case create => exact lands_of_ok rfl (by simp [hm, hfail]; rfl)
  case floor => exact reads_of_ok rfl (by simp [hm, ho, Nat.not_lt.mpr hctx])
  case key => exact lands_of_ok rfl (by simp [contractFor_of_owns, hy, ho])
  case closing => exact waits_of_wait rfl (by simp [contractFor_of_owns, hy, ho, hopen, hstay])
  case closed => exact lands_of_ok rfl (by simp [contractFor_of_owns, hy, ho, hopen, hgone])
  case status => exact reads_of_ok rfl (by simp [contractFor_of_owns, hy, ho])
  case window => exact reads_of_ok rfl (by simp [contractFor_of_owns, hy, ho, hr])

/-- Settles O46: each clause is the row on an accepted command with its refusals ruled out by the clause's own premises. The digest of
several weight regions (log 54) and the stretch defaults and MAX_RESIDENT (log 53) are the model's choices. -/
theorem serveCommands : Obligations.ServeCommands := ⟨serveModel, serveContracts⟩

end Sys2Proof.Machine
end

section
/-! SUPPORT. The mailbox commands of the Palette engines: a queue is created, destroyed and read. -/

namespace Sys2Proof.Machine

/-! Taking a command out of its ring leaves the queues, and what a new one is checked against, as they were. -/

section
variable (k : Cmd) (h : Hdr) (c : Ctl) (x : Ctx) (st q job : Nat)

@[simp] theorem Ctl.consume_palQueue : (c.consume k h).palQueue st q = c.palQueue st q := rfl
@[simp] theorem Ctl.consume_queueBusy : (c.consume k h).queueBusy st q = c.queueBusy st q := rfl
@[simp] theorem jobCheck_consume (detail : Nat) : jobCheck (c.consume k h) x job detail = jobCheck c x job detail := rfl
@[simp] theorem palRegionsFail_consume (regions : List Nat) :
    palRegionsFail (c.consume k h) x st job regions = palRegionsFail c x st job regions := rfl

end

theorem palQueueFor_of_owns {c : Ctl} {x : Ctx} {st q : Nat} {p : PalQueue} (hp : c.palQueue st q = some p) (ho : x.owns p.job = true)
    (args : List Arg) : palQueueFor c x st q args = .ok p := by
  simp [palQueueFor, hp, ho]

/-- Settles O28: each command takes the branch of its row that the premises name. In PALETTE_QUEUE_CREATE the place of the list of regions
in the message is the model's reading (log 7); there `Nat.reducePow` is off so that the window's base keeps the form that `hadd` speaks of. -/
theorem paletteCommands : Obligations.PaletteCommands := by
  intro s h st q job n k regions ring c p
  dsimp only
  refine ⟨fun hjob hu hregions hlen hfree hadd => ?create,
    fun hp ho hopen => ⟨fun hdone => ?destroyed, fun hbusy => ?destroying⟩, fun hp ho => ?queueStatus, reads_of_ok rfl rfl⟩
  case create => exact lands_of_ok rfl (by simp [-Nat.reducePow, hjob, hu, hregions, Nat.not_lt.mpr hlen, hfree, hadd])
  case destroyed => exact lands_of_ok rfl (by simp [palQueueFor_of_owns, hp, ho, hopen, hdone])
  case destroying => exact waits_of_wait rfl (by simp [palQueueFor_of_owns, hp, ho, hopen, hbusy])
  case queueStatus => exact reads_of_ok rfl (by simp [palQueueFor_of_owns, hp, ho])

end Sys2Proof.Machine
end

section
/-! SUPPORT. Flow records and tags: a number entered in a record is a copy there, and a response that no transaction awaits is stray. -/

namespace Sys2Proof.Machine

/-! Flow records (R280). -/

section
variable (c : Ctl) {key : Nat} (seq : Nat) (r : FlowRes)

/-- The entries that a mark keeps are of other numbers, so the new one is found. -/
theorem Ctl.seen_mark_same : (c.mark key seq r).seen key seq = .copy r := by
  have hkept (l : List (Nat × FlowRes)) (q : Nat × FlowRes → Bool) :
      (l.filter fun y => y.1 != seq && q y).find? (·.1 = seq) = none :=
    List.find?_eq_none.mpr fun y hy => by simp_all
  simp [-List.find?_filter, Ctl.seen, Ctl.mark, List.find?_append, hkept]

theorem Ctl.seen_mark_other {key2 : Nat} (h : key2 ≠ key) (seq2 : Nat) : (c.mark key seq r).seen key2 seq2 = c.seen key2 seq2 := by
  simp [Ctl.seen, Ctl.mark, Tab.get?_set_other _ _ h]

end

/-! The engine's receiver on a packet that came whole, from a module that is not expelled, and that finds a flow record (R280, R383). -/

section
variable {w : W} {type cls : Nat} {p : Pkt} {f : W → Take} (htype : p.type = type) (harr : w.c.fabric.arrivals.contains p = true)
  (hcrc : p.crcOk = true) (htrust : ((w.c.jobs.get? p.job).any fun j => j.expelled.contains p.src) = false)
  (hrec : w.c.noRecord (4 * p.src + cls) = false)
include htype harr hcrc htrust hrec

theorem W.engineTake_of_below (h : w.c.seen (4 * p.src + cls) p.flowSeq = .below) :
    w.engineTake type cls p f = (w.on (Ctl.takeArrival p)).on (Ctl.countCopy (4 * p.src + cls)) := by
  simp [-List.contains_eq_mem, W.engineTake, htype, harr, hcrc, htrust, hrec, h]

theorem W.engineTake_of_copy {x : FlowRes} (h : w.c.seen (4 * p.src + cls) p.flowSeq = .copy x) :
    w.engineTake type cls p f = ((w.on (Ctl.takeArrival p)).on (Ctl.countCopy (4 * p.src + cls))).on (Ctl.sendAck p) := by
  simp [-List.contains_eq_mem, W.engineTake, htype, harr, hcrc, htrust, hrec, h]

theorem W.engineTake_of_act {g : W → W} (h : w.c.seen (4 * p.src + cls) p.flowSeq = .fresh) (hf : f w = .act g) :
    w.engineTake type cls p f = ackedThen cls p g w := by
  simp [-List.contains_eq_mem, W.engineTake, ackedThen, htype, harr, hcrc, htrust, hrec, h, hf]

end

/-- Settles O11: the entry of a number stands in its record behind what the window keeps, other records keep theirs, and the engine's
receiver answers by what its record says before it asks what the packet does. -/
theorem flowRecordsApplyOnce : Obligations.FlowRecordsApplyOnce := by
  intro c w key key2 seq cls type r x p f
  refine ⟨c.seen_mark_same seq r, fun hkey => c.seen_mark_other seq r hkey seq, fun htype harr hcrc htrust hrec => ?receiver⟩
  case receiver =>
    have htrust' : ((w.c.jobs.get? p.job).any fun j => j.expelled.contains p.src) = false := by
      rw [Option.any_eq_false]
      simpa using htrust
    exact ⟨W.engineTake_of_copy htype harr hcrc htrust' hrec, W.engineTake_of_below htype harr hcrc htrust' hrec⟩

/-! Stray responses (R282). -/

theorem Ctl.markFull_tags (c : Ctl) :
    c.markFull.fabric.txns = c.fabric.txns ∧ c.markFull.fabric.lingering = c.fabric.lingering := by
  simp only [Ctl.markFull, Ctl.onFabric]
  split <;> split <;> exact ⟨rfl, rfl⟩

/-- A packet leaves the arrivals, and another may come in for it; no tag is concerned. -/
theorem Ctl.takeArrival_tags (p : Pkt) (c : Ctl) :
    (c.takeArrival p).fabric.txns = c.fabric.txns ∧ (c.takeArrival p).fabric.lingering = c.fabric.lingering := by
  unfold Ctl.takeArrival
  dsimp only
  split
  · exact Ctl.markFull_tags _
  · exact ⟨rfl, rfl⟩

section
variable {c : Ctl} {tag seq : Nat} (src : Nat)

theorem Ctl.takeResp_of_free (ht : c.fabric.txns.get? tag = none) (hl : c.fabric.lingering.get? tag = none) :
    c.takeResp tag seq src = (none, c.countDup (tagUnit tag)) := by
  have hl' : (c.countDup (tagUnit tag)).fabric.lingering.get? tag = none := hl
  simp only [Ctl.takeResp, ht, hl']

theorem Ctl.takeResp_of_other {t : Txn} (ht : c.fabric.txns.get? tag = some t) (hseq : t.pkt.flowSeq ≠ seq) :
    c.takeResp tag seq src = (none, c.countDup (tagUnit tag)) := by
  simp [Ctl.takeResp, ht, hseq]

theorem Ctl.takeResp_of_stray (hl : c.fabric.lingering.get? tag = none)
    (ht : ∀ t, c.fabric.txns.get? tag = some t → t.pkt.flowSeq ≠ seq) :
    c.takeResp tag seq src = (none, c.countDup (tagUnit tag)) := by
  cases h : c.fabric.txns.get? tag with
  | none => exact takeResp_of_free src h hl
  | some t => exact takeResp_of_other src h (ht t h)

end

/-- A response that came whole and that no transaction awaits is counted, and what waits for its tag may go on. -/
theorem W.respond_of_stray {w : W} {type seq : Nat} {p : Pkt} (htype : p.type = type) (harr : w.c.fabric.arrivals.contains p = true)
    (hcrc : p.crcOk = true) (hl : w.c.fabric.lingering.get? p.tag = none)
    (ht : ∀ t, w.c.fabric.txns.get? p.tag = some t → t.pkt.flowSeq ≠ seq) (res : Except Nat (List Byte × Nat)) :
    w.respond type p seq res = ((w.on (Ctl.takeArrival p)).on (Ctl.countDup (tagUnit p.tag))).tagFreed p.tag := by
  obtain ⟨htxns, hlinger⟩ := Ctl.takeArrival_tags p w.c
  have hstray := Ctl.takeResp_of_stray (c := w.c.takeArrival p) p.src (hlinger ▸ hl) (htxns ▸ ht)
  have hin := List.contains_iff_mem.mp harr
  simp [W.respond, W.on, htype, hin, hcrc, hstray]

/-- Settles O12: a tag that is free, or held under another number, completes nothing and counts, for a response of every kind. -/
theorem strayResponsesDiscarded : Obligations.StrayResponsesDiscarded :=
  ⟨fun _ _ hok htype harr hcrc hl ht => acts_of_world_eq rfl hok (W.respond_of_stray htype harr hcrc hl ht _),
    fun _ _ _ src => ⟨Ctl.takeResp_of_free src, fun _ => Ctl.takeResp_of_other src, rfl, by simp [Ctl.countDup, Ctl.countReq, inc32]⟩⟩

end Sys2Proof.Machine
end

section
/-! SUPPORT. A channel of the DMA engine: its doorbell, its window, and the descriptors that it begins. -/

namespace Sys2Proof.Machine

/-! Changes of one channel. -/

theorem Ctl.updChan_chans_get? (n m : Nat) (f : DmaChan → DmaChan) (c : Ctl) :
    (c.updChan n f).chans.get? m = if m = n then (c.chans.get? m).map f else c.chans.get? m := by
  simp only [Ctl.updChan]
  induction c.chans with
  | nil => simp [Tab.get?]
  | cons x t ih =>
    obtain ⟨k, y⟩ := x
    by_cases hk : k = n <;> by_cases hm : m = k <;> simp_all [Tab.get?]

/-- The bits of CHAN_STATUS are the channel's own; the group bit that follows them is the function's (R336). -/
theorem Ctl.setChanBit_chans_get? (n b m : Nat) (c : Ctl) : (c.setChanBit n b).chans.get? m =
    if m = n then (c.chans.get? m).map fun x => { x with status := x.status ||| 2 ^ b, count := inc8 x.count } else c.chans.get? m := by
  unfold Ctl.setChanBit
  split
  next hnone => split <;> simp_all
  next => dsimp only; split <;> simp [Ctl.updChan_chans_get?]

/-- Settles O34: the two outcomes of a doorbell are the branches of its one comparison, and each changes channel n alone. There
`Nat.reducePow` is off so that the step keeps the form that the premises speak of. -/
theorem dmaDoorbell : Obligations.DmaDoorbell := by
  intro c n v x hx
  refine ⟨fun hfits => ?moved, fun hover => ?refused, fun m hm => ?frame⟩
  case moved => simp [-Nat.reducePow, Ctl.doorbell, hx, hfits, Ctl.updChan_chans_get?, Nat.pos_iff_ne_zero]
  case refused => simp [-Nat.reducePow, Ctl.doorbell, hx, Nat.not_le.mpr hover, Ctl.setChanBit_chans_get?, Ctl.updChan_chans_get?]
  case frame =>
    simp only [Ctl.doorbell, hx]
    split <;> simp [Ctl.setChanBit_chans_get?, Ctl.updChan_chans_get?, hm]

/-! The window of a channel (R550, Tables 11-4 to 11-6). -/

section
variable {s : State} {i : Instr} {fn n : Nat} {f : Ctl → Ctl} (he : exec i s = windowRow fn n f s) (hfn : fn < 2) (hn : n < 64)
include he hfn hn

theorem windowRow_acts (h : s.ctl.windowLive fn n = true) : Acts s i (W.on f) :=
  acts_of_ret he (by simp [hfn, hn]) (if_pos h)

theorem windowRow_stays (h : s.ctl.windowLive fn n = false) : Stays s i :=
  moves_of_ret he (by simp [hfn, hn]) (if_neg (by simp [h])) (g := id) (Ctl.calm_of_eq rfl rfl rfl rfl rfl rfl)

end

theorem dmaWindow : Clause.DmaWindow := by
  intro s fn n v hfn hn
  refine ⟨fun h => ?live, fun h => ?dead⟩
  case live =>
    have acts {i : Instr} {f : Ctl → Ctl} (he : exec i s = windowRow fn n f s) : Acts s i (W.on f) := windowRow_acts he hfn hn h
    exact ⟨acts rfl, acts rfl, acts rfl, acts rfl, acts rfl⟩
  case dead =>
    have stays {i : Instr} {f : Ctl → Ctl} (he : exec i s = windowRow fn n f s) : Stays s i := windowRow_stays he hfn hn h
    exact ⟨stays rfl, stays rfl, stays rfl, stays rfl, stays rfl⟩

/-! The start of a descriptor (R323 to R326). -/

theorem beginRow_acts {s : State} {i : Instr} {op n : Nat} {fetched raw : List Byte} {x : DmaChan}
    (he : exec i s = beginRow op n fetched s) (hn : n < 64) (hx : (s.world.fetchAhead n 8).c.chans.get? n = some x)
    (hmay : mayBegin x = true) (hraw : nextRaw x fetched = some raw) (hop : dOp raw = op ∨ descBad raw x.ports = true) :
    Acts s i fun w => (w.fetchAhead n 8).beginDesc n raw :=
  acts_of_world_eq he (decide_eq_true hn) (by simp [hx, hraw, hmay, hop])

theorem dmaBegins : Clause.DmaBegins := fun _ _ _ _ _ hn hx hmay hraw =>
  ⟨beginRow_acts rfl hn hx hmay hraw, beginRow_acts rfl hn hx hmay hraw, beginRow_acts rfl hn hx hmay hraw⟩

/-- Settles O35: a write to the window is its register's effect exactly while the window is live, and the three rows begin the next
descriptor alike. The moment of its fetch is the model's reading (log 84). -/
theorem dmaStarts : Obligations.DmaStarts := ⟨dmaWindow, dmaBegins⟩

end Sys2Proof.Machine
end

section
/-! SUPPORT. The packets of the collective engine: what is taken, and where a contribution goes. -/

namespace Sys2Proof.Machine

/-- A packet that arrives and that its object takes is acknowledged and acts. -/
theorem acts_of_arrives {s : State} {i : Instr} {type cls : Nat} {p : Pkt} {f : W → Take} {g : W → W} (h : s.Arrives type cls p)
    (hf : f s.world = .act g) (he : exec i s = ret (pktOk p) (s.act (W.engineTake type cls p f))) : Acts s i (ackedThen cls p g) := by
  obtain ⟨⟨hok, htype, harr, hcrc⟩, htrust, hrec, hfresh⟩ := h
  exact acts_of_world_eq he hok (W.engineTake_of_act htype harr hcrc htrust hrec hfresh hf)

/-- Settles O43: each row hands the engine's receiver what its object makes of the packet. That a credit waits for the buffer of the send
that it lets go is the model's reading (log 78). -/
theorem enginePackets : Obligations.EnginePackets := by
  intro s p g
  refine ⟨fun htake => ⟨?contrib, ?gather, ?exchange, ?bcast, ?vote⟩, fun htake h => acts_of_arrives h htake rfl,
    fun k h hk hjob hdir hpeer hbusy hgo => ?credit, fun h hlen => ⟨fun hall htake => ?frogAll, fun hall hpipe htake => ?frogColl,
      fun hall hpipe htake => ?frogPipe⟩⟩
  case contrib => exact fun h => acts_of_arrives h htake rfl
  case gather => exact fun h => acts_of_arrives h htake rfl
  case exchange => exact fun h => acts_of_arrives h htake rfl
  case bcast => exact fun h => acts_of_arrives h htake rfl
  case vote => exact fun h => acts_of_arrives h htake rfl
  case credit =>
    refine acts_of_arrives h ?_ rfl
    have hwait : (!k.waiting.isEmpty && s.ctl.pipeBlocked (bits p.typeArg 5 0)) = false := by simpa [← or_iff_not_imp_left] using hgo
    simp [-List.contains_eq_mem, hk, hjob, hdir, hpeer, hbusy, hwait]
  case frogAll => exact acts_of_arrives h (by simp [hlen, hall, htake]) rfl
  case frogColl => exact acts_of_arrives h (by simp [hlen, hall, frogOneTake, hpipe, htake]) rfl
  case frogPipe => exact acts_of_arrives h (by simp [hlen, hall, frogOneTake, hpipe, htake]) rfl

theorem attemptAfter_self (a : Nat) : attemptAfter a a = false := by simp [attemptAfter]

/-- Settles O44: the place of a contribution is the first of the comparisons of its generation and its attempt that holds.
`Nat.reducePow` is off so that the next generation keeps the form that the premises speak of. -/
theorem contributionPlaces : Obligations.ContributionPlaces := by
  intro w p k
  dsimp only
  intro hk hjob htype
  refine ⟨fun hgen hnext hatt hst hin hgo => ?applied, fun hnext => ?kept, fun hgen hnext hpast => ?pastGeneration,
    fun hgen hnext hatt hpast => ?pastAttempt⟩
  case applied =>
    obtain ⟨hfailed, hidle, habort⟩ : k.st ≠ .failed ∧ k.st ≠ .idle ∧ k.st ≠ .aborted := by rcases hst with h | h <;> simp [h]
    rw [hgen] at hnext
    simp [-Nat.reducePow, collTake, hk, hjob, hgen, hnext, hatt, attemptAfter_self, hfailed, hidle, habort, htype, hin, hgo]
  case kept => simp [collTake, hk, hjob, hnext]
  case pastGeneration => simp [-Nat.reducePow, collTake, hk, hjob, hgen, hnext, hpast, htype]
  case pastAttempt =>
    rw [hgen] at hnext
    simp [-Nat.reducePow, collTake, hk, hjob, hgen, hnext, hatt, hpast]

end Sys2Proof.Machine
end

section
/-! SUPPORT. The refill of the gauges, and the events of the power stage. -/

namespace Sys2Proof.Machine

theorem gaugesRefill : Clause.GaugesRefill := by
  intro s n
  dsimp only
  refine ⟨fun hn => ⟨?steps, ?lanes⟩, fun hn => ?bursts, ?guest⟩
  case steps => exact acts_of_ret rfl (by simp [hn]) rfl
  case lanes => exact acts_of_ret rfl (by simp [hn]) rfl
  case bursts => exact acts_of_ret rfl (by simp [hn]) rfl
  case guest => exact moves_of_ret rfl rfl rfl (Ctl.calm_of_eq rfl rfl rfl rfl rfl rfl)

theorem powerEvents : Clause.PowerEvents := by
  intro s r current power core sensor k selfTest hstandby
  refine ⟨fun hr => ?round, acts_of_ret rfl rfl rfl, ?input, fun hsensor => ?trip, fun hdue => ?seated, fun hdue hrun => ?railsOn,
    acts_of_world_eq rfl rfl rfl, fun hk htraining hlink => ?canvas⟩
  case round => exact acts_of_world_eq rfl (by simpa [and_assoc] using hr) (by simp [hstandby])
  case input => exact acts_of_world_eq rfl rfl (by simp [hstandby])
  case trip => exact acts_of_world_eq rfl (by simp [hsensor]) (by simp [hstandby])
  case seated => exact acts_of_ret rfl rfl (by simp [hdue])
  case railsOn => exact acts_of_ret rfl rfl (by rcases hrun with hrun | hrun <;> simp [hdue, hrun])
  case canvas => exact acts_of_world_eq rfl (by simp [hk]) (by simp [htraining, hlink])

/-- Settles O49: every gauge has its own branch of the one refill row, and each event of the power stage is its row where standby power is
present. -/
theorem gaugesAndPowerEvents : Obligations.GaugesAndPowerEvents := ⟨gaugesRefill, powerEvents⟩

end Sys2Proof.Machine
end

section
/-! SUPPORT. The teardown of a job: the two commands that begin it, and its completion. -/

namespace Sys2Proof.Machine

/-- JOB_TEARDOWN_COMPLETE acts where the job ends, nothing of it is busy and a command waits for it. -/
theorem teardownComplete_not_held {c : Ctl} {job : Nat} (hend : c.jobEnding job = true) (hidle : c.jobBusy job = false)
    (hwaits : ∃ x ∈ c.rc.waits, x.what = .job job false ∨ x.what = .job job true) :
    ¬ (!c.jobEnding job || c.jobBusy job ||
      !(c.rc.waits.any fun x => decide (x.what = .job job false) || decide (x.what = .job job true))) = true := by
  simpa [hend, hidle, ← or_iff_not_imp_left] using hwaits

/-- Settles O55: a command on a live job waits, having stopped the job unless that is done already, and the completion, once nothing of
the job is busy and a command waits for it, runs the row's steps. That a job stays ending until JOB_DESTROY, that the event names
destination 0xFFFF, and that the completion acts only while a command waits are the model's choices (log 50). -/
theorem jobTeardown : Obligations.JobTeardown := by
  intro s h job hlive
  dsimp only
  refine ⟨fun hend => ⟨?teardown, ?destroy⟩, fun hend hnone => ?destroyEnding, fun hlo hhi hend hidle =>
    ⟨fun hlast hwaits => ?tornDown, fun hwaiting hwaits => ?destroyed⟩⟩
  case teardown => exact waits_of_wait rfl (by simp [hlive, hend])
  case destroy => exact waits_of_wait rfl (by simp [hlive, hend])
  case destroyEnding => exact waits_of_wait rfl (by simpa [hlive, hend] using hnone)
  case tornDown =>
    have hact := teardownComplete_not_held hend hidle (hwaits.imp fun _ hx => hx.imp_right .inl)
    refine acts_of_world_eq rfl (by simp [hlo, hhi]) ((if_neg hact).trans (if_neg ?_))
    simpa only [List.any_eq_true, decide_eq_true_eq, not_exists, not_and] using hlast
  case destroyed =>
    have hact := teardownComplete_not_held hend hidle (hwaits.imp fun _ hx => hx.imp_right .inr)
    refine acts_of_world_eq rfl (by simp [hlo, hhi]) ((if_neg hact).trans (if_pos ?_))
    simpa only [List.any_eq_true, decide_eq_true_eq] using hwaiting

end Sys2Proof.Machine
end

section
/-! SUPPORT. The hop protocol of the network ports, and the retraining of links. -/

namespace Sys2Proof.Machine

/-! Ports and links under a change. -/

section
variable (n : Nat) (c : Ctl)

@[simp] theorem Ctl.port_updPort (f : RPort → RPort) : (c.updPort n f).port n = f (c.port n) := by simp [Ctl.port, Ctl.updPort]

theorem Ctl.updPort_congr {f g : RPort → RPort} (h : f (c.port n) = g (c.port n)) : c.updPort n f = c.updPort n g := by
  simp only [Ctl.port] at h
  simp [Ctl.updPort, Tab.upd, h]

theorem Ctl.updLink_congr {f g : D2dLink → D2dLink} (h : f (c.link n) = g (c.link n)) : c.updLink n f = c.updLink n g := by
  simp only [Ctl.link] at h
  simp [Ctl.updLink, Tab.upd, h]

end

@[simp] theorem LinkRx.free_next (vc n : Nat) (x : LinkRx) : (x.free vc n).next = x.next := rfl

/-- A receive slot that fails is only noted, for the far transmitter to hear of (R362). -/
theorem Ctl.failSlot_rx_tick (f j st : Nat) (c : Ctl) : (c.failSlot f 1 j st).tick = c.tick := by
  simp only [Ctl.failSlot]
  split
  · contradiction
  · split <;> rfl

theorem Ctl.countErrors_tick (q : Nat) (symbols : List (List Nat)) (c : Ctl) : (c.countErrors q symbols).tick = c.tick := by
  unfold Ctl.countErrors
  split
  · rfl
  · refine foldl_keeps Ctl.tick (fun a x => ?_) _ c
    dsimp only
    split
    · rfl
    · split
      · exact Ctl.failSlot_rx_tick ..
      · rfl

/-! The events of a hop (R346, R376 to R379, R399, R405). -/

theorem hopEvents : Clause.HopEvents := by
  intro s q serial module peer major minor quads f hq
  dsimp only
  refine ⟨fun hok hlen hrails hmatch hlo hhi => ⟨fun hbad hrun => ?lost, fun hwhole hfec hnak hdata hseq hrun hd => ?accepted⟩,
    fun hrun hun hdue => ?timeout, fun hser hmod hpeer hmaj hmin hsw hrails hquads => ?identity, fun hper hdue => ?snapshot⟩
  case lost =>
    refine acts_of_ret rfl (by simp [hq, hok, hlen])
      ((if_neg (by simp [hrails])).trans ((if_neg ?_).trans ((if_pos ?_).trans (if_neg ?_))))
    · simp [hmatch, hlo, hhi]
    · simpa using hbad
    · simp [hrun]
  case accepted =>
    refine acts_of_ret rfl (by simp [hq, hok, hlen]) ((if_neg (by simp [hrails])).trans ((if_neg ?_).trans ((if_neg ?_).trans ?_)))
    · simp [hmatch, hlo, hhi]
    · simp [hwhole, hfec]
    · -- The flit is the next in sequence, so it is accepted; outside retrain the port hears of it what the statement names.
      generalize hc1 : Ctl.countErrors q f.symbols _ = c1 at *
      have htick : c1.tick = s.ctl.tick := hc1 ▸ Ctl.countErrors_tick ..
      refine congrArg (Ctl.drainAll q) ((if_neg hdata).trans ((if_pos ?_).trans
        (congrArg (Ctl.hopAccept q f) ((if_neg ?_).trans (Ctl.updPort_congr q c1 ?_)))))
      · simp [hnak, hseq]
      · simp [hnak]
      · simp [hrun, hdata, hd, htick]
  case timeout => exact acts_of_ret rfl (by simp [hq]) (by simp [hrun, hun, hdue])
  case identity => exact acts_of_ret rfl (by simpa [hq, hmod, hpeer, hmaj, hmin] using ⟨hser, hquads⟩) (by simp [hsw, hrails])
  case snapshot => exact acts_of_ret rfl rfl (by simp [hper, hdue])

/-! Retrain (Table 9-3). -/

@[simp] theorem trainLanes_nil : trainLanes [] = [] := rfl

theorem Ctl.audit_of_full {vcs : Nat} {bv : Nat → Nat} {free : List Nat} (h : Ctl.auditBad vcs bv free = []) (link : Nat) (c : Ctl) :
    c.audit link vcs bv free = c := by
  rw [Ctl.auditBad] at h
  rw [Ctl.audit, h]
  rfl

/-- After step 7 the sender holds every credit (R277). -/
@[simp] theorem auditBad_credits_restore (vcs : Nat) (bv : Nat → Nat) (lseq tick : Nat) (t : LinkTx) :
    Ctl.auditBad vcs bv ((t.restore lseq tick).credits vcs bv) = [] := by
  simp +contextual [Ctl.auditBad, LinkTx.credits, LinkTx.restore, Tab.getD, Tab.get?]

theorem slots_getD_cleared (t : Tab Part) (vc : Nat) :
    (Tab.getD (t.map fun (w : Nat × Part) => (w.1, { w.2 with slots := 0 })) vc {}).slots = 0 := by
  simp only [Tab.getD]
  induction t with
  | nil => rfl
  | cons x t ih => by_cases h : vc = x.1 <;> simp_all [Tab.get?]

/-- A receiver that has drained, and whose packets in progress give their slots up, has every slot free (R278). -/
theorem auditBad_drained {x : RPort} {t : Tab Part} (hin : x.inq = [])
    (hpart : x.part = t.map fun (w : Nat × Part) => (w.1, { w.2 with slots := 0 })) (vcs : Nat) (bv : Nat → Nat) :
    Ctl.auditBad vcs bv ((List.range vcs).map fun v => bv v - Ctl.slotsHeld x v) = [] := by
  simp +contextual [Ctl.auditBad, Ctl.slotsHeld, hin, hpart, slots_getD_cleared]

theorem retrainEvents : Clause.RetrainEvents := by
  intro s l p d lseq free hl hd hp hlseq
  dsimp only
  have hlink : ¬ 32 ≤ l := by omega
  have hport : 32 + p < 64 := by omega
  refine ⟨fun hst htr hdead => ⟨fun hrun => ?linkUp, fun hre => ?linkTrained⟩, fun hre hlight => ?portTrained,
    fun hre htr hsent => ?linkMarkSent, fun hre htr hin hsent => ?portMarkSent, fun hre hsent htaken hseq hfree => ?linkMark,
    fun hre htr htaken => ⟨fun hfree => ?portMark, fun hbad => ?portMarkBad⟩⟩
  case linkUp => exact acts_of_ret rfl (by simp [hl]) (by simp [hlink, hst, htr, hdead, hrun])
  case linkTrained => exact acts_of_ret rfl (by simp [hl]) (by simp [hlink, hst, htr, hdead, hre])
  case portTrained => exact acts_of_ret rfl (by simp [hport]) (by simp [hre, hlight])
  case linkMarkSent => exact acts_of_ret rfl (by simp [hl, hd]) (by simp [hlink, hre, htr, hsent])
  case portMarkSent =>
    refine acts_of_ret rfl (by simp [hport]) ?_
    simp only [Nat.le_add_right, Nat.add_sub_cancel_left, if_true]
    refine (if_pos (by simp [hre, htr, hin, hsent])).trans (if_pos ?_)
    rw [auditBad_drained (by simpa using hin) (by rw [Ctl.port_updPort])]
    rfl
  case linkMark =>
    refine acts_of_ret rfl (by simp [hl, hd, hlseq]) ((if_neg hlink).trans ((if_pos ?_).trans ((if_pos ?_).trans ?_)))
    · simp [hre, hsent, htaken, ← hseq]
    · simp [hfree]
    · exact congrArg (Ctl.endLinkRetrain l) (Ctl.updLink_congr l _ rfl)
  case portMark =>
    refine acts_of_ret rfl (by simp [hport, hlseq]) ?_
    simp only [Nat.le_add_right, Nat.add_sub_cancel_left, if_true]
    refine (if_pos (by simp [hre, htr, htaken])).trans ((if_pos (by simp [hfree])).trans ?_)
    exact congrArg (Ctl.endPortRetrain p) (Ctl.updPort_congr p _ rfl)
  case portMarkBad =>
    refine acts_of_ret rfl (by simp [hport, hlseq]) ?_
    simp only [Nat.le_add_right, Nat.add_sub_cancel_left, if_true]
    refine (if_pos (by simp [hre, htr, htaken])).trans ((if_neg (by simp [hbad])).trans ?_)
    -- The sender holds every credit, so the second audit reports nothing.
    rw [Ctl.audit_of_full (auditBad_credits_restore ..)]
    exact congrArg (fun c => ((c.updPort p fun z => { z with dead := 0x13 }).audit (32 + p) 8 hopB free).settlePort p)
      (Ctl.updPort_congr p _ rfl)

/-- Settles O38: each event takes the branch of its row that the premises name. That number 32 + p is the hop of port Pp, whose direction 0
this module sends and direction 1 it receives (log 13), and that the VC of a destroyed flit comes with the command and packets are
forwarded whole (log 81), are the model's choices. -/
theorem hopAndRetrainEvents : Obligations.HopAndRetrainEvents := ⟨hopEvents, retrainEvents⟩

end Sys2Proof.Machine
end

section
/-! SUPPORT. The die-to-die links, and the guest site behind its firewall. -/

namespace Sys2Proof.Machine

/-! A link and its two directions under a change. -/

@[simp] theorem Ctl.link_updLink (n : Nat) (f : D2dLink → D2dLink) (c : Ctl) : (c.updLink n f).link n = f (c.link n) := by
  simp [Ctl.link, Ctl.updLink]

/-- Nothing follows from a change of a link alone: its entries are posted apart. -/
theorem Ctl.calm_updLink (n : Nat) (f : D2dLink → D2dLink) (c : Ctl) : c.calm (c.updLink n f) = true :=
  Ctl.calm_of_eq rfl rfl rfl rfl rfl rfl

section
variable (d : Nat) (f : D2dDir → D2dDir) (x : D2dLink)

@[simp] theorem D2dLink.dir_updDir_same : (x.updDir d f).dir d = f (x.dir d) := by
  simp only [D2dLink.dir, D2dLink.updDir, D2dLink.setDir]
  split <;> rfl

/-- The other direction of the two is numbered 1 - d. -/
theorem D2dLink.dir_updDir_other (hd : d < 2) : (x.updDir (1 - d) f).dir d = x.dir d := by
  obtain rfl | rfl : d = 0 ∨ d = 1 := by omega
  all_goals rfl

end

/-! Darning (R302 to R304). -/

theorem mem_insNat_self (k : Nat) (l : List Nat) : k ∈ insNat k l := by
  induction l with
  | nil => simp [insNat]
  | cons j t ih =>
    simp only [insNat]
    split
    · simp
    · split <;> simp [*]

/-- A number that a list takes in is the one that it did not have. -/
theorem find?_insNat_new {k : Nat} {l : List Nat} (h : k ∉ l) : (insNat k l).find? (fun j => !l.contains j) = some k := by
  have hsome : ((insNat k l).find? fun j => !l.contains j).isSome = true :=
    List.find?_isSome.mpr ⟨k, mem_insNat_self k l, by simpa using h⟩
  obtain ⟨j, hj⟩ := Option.isSome_iff_exists.mp hsome
  have hnew : j ∉ l := by simpa using List.find?_some (p := fun j => !l.contains j) hj
  rwa [(insNat_mem (List.mem_of_find?_eq_some hj)).resolve_right hnew] at hj

theorem Ctl.freeDarn_unused {l k : Nat} {y : D2dDir} (h : Ctl.freeDarn l y = some k) : k ∉ y.usedDarn := by
  have hfree := List.find?_some h
  simp only [Bool.and_eq_true, Bool.not_eq_true', List.contains_eq_mem, decide_eq_false_iff_not] at hfree
  exact hfree.1

/-- Of a lane in service that fails, the lowest free darning lane becomes a used one, and no group retires (R302, R303). -/
theorem Ctl.declareD2d_of_freeDarn {l d lane data sp : Nat} {c : Ctl} {y z : D2dDir} (hd : d < 2) (hy : (c.link l).dir d = y)
    (hz : ((c.declareD2d l d lane).link l).dir d = z) (hlive : y.failed.contains lane = false)
    (hcarry : Ctl.carries l y lane = some data) (hsp : Ctl.freeDarn l { y with failed := insNat lane y.failed } = some sp) :
    (z.usedDarn.find? fun k => !y.usedDarn.contains k) = some sp ∧ (z.retired.find? fun g => !y.retired.contains g) = none := by
  subst hy
  suffices h : z.usedDarn = insNat sp ((c.link l).dir d).usedDarn ∧ z.retired = ((c.link l).dir d).retired by
    obtain ⟨hused, hretired⟩ := h
    have hunused := Ctl.freeDarn_unused hsp
    exact ⟨hused ▸ find?_insNat_new hunused, by simp [hretired]⟩
  rw [← hz, Ctl.declareD2d, if_neg (ne_true_of_eq_false hlive)]
  dsimp only
  split
  next hnone =>
    -- The lane carries a data lane's bits: those of a DARN on its way, or the ones that it is in service for.
    split at hnone
    next hsome => exact absurd hsome (by rw [hnone]; decide)
    next => exact nomatch hnone.symm.trans hcarry
  next =>
    simp only [Ctl.link_updLink, D2dLink.dir_updDir_same]
    split
    next k hk =>
      obtain rfl : k = sp := Option.some.inj (hk.symm.trans hsp)
      simp [D2dLink.dir_updDir_other _ _ _ hd]
    next hk => exact nomatch hk.symm.trans hsp

/-! The rows of the links (R296, R299 to R303, R307). -/

@[simp] theorem Ctl.putFlit_tick (l d : Nat) (f : Flit) (c : Ctl) : (c.putFlit l d f).tick = c.tick := by
  unfold Ctl.putFlit
  split <;> rfl

/-- A flit on its way leaves what its receiver has taken. -/
theorem Ctl.putFlit_next {d : Nat} (hd : d < 2) (l : Nat) (f : Flit) (c : Ctl) :
    (((c.putFlit l d f).link l).dir d).rx.next = ((c.link l).dir d).rx.next := by
  unfold Ctl.putFlit
  split
  · rfl
  · simp [D2dLink.dir_updDir_other, hd]

theorem linkRows : Clause.LinkRows := by
  intro s h l d lane sp f hl hd
  dsimp only
  have hruns (h : (s.ctl.link l).st = 2 ∨ (s.ctl.link l).st = 3) :
      (decide ((s.ctl.link l).st = 2) || decide ((s.ctl.link l).st = 3)) = true := by simpa using h
  refine ⟨reads_of_ok rfl rfl, fun hst hlive hcarry hsp => ?darn,
    fun hok hvc hcr hlen hst htr hwire => ⟨fun hlost hkind => ?lost, fun hwhole hnak hkind hseq => ?accepted⟩,
    fun hst hun hdue => ?timeout, fun hlane hst => ?lockLoss, fun hpair hlane hst => ?clock, fun hasked => ?asked,
    fun t hacked => ?acked⟩
  case darn =>
    obtain ⟨hspare, hkept⟩ :=
      Ctl.declareD2d_of_freeDarn (c := s.ctl.consume { op := 0x0421, roles := [0] } h) hd rfl rfl hlive hcarry hsp
    have hmay : ¬ ((!(decide ((s.ctl.link l).st = 2) || decide ((s.ctl.link l).st = 3)) ||
        ((s.ctl.link l).dir d).failed.contains lane) = true) := by simp [-List.contains_eq_mem, hruns hst, hlive]
    refine lands_of_ok rfl ((if_neg hmay).trans ?_)
    simp only [State.taken_c, W.on_c, hspare, hkept]
    rfl
  case lost =>
    refine acts_of_ret rfl (by simp [hl, hd, hok, hvc, hcr, hlen])
      ((if_neg (by simp [hruns hst, hwire])).trans ((if_pos hlost).trans ?_))
    simp [hkind]
  case accepted =>
    -- The flit is the next in sequence of its direction, whatever it tells the sender of the other.
    refine acts_of_ret rfl (by simp [hl, hd, hok, hvc, hcr, hlen])
      ((if_neg (by simp [hruns hst, hwire])).trans ((if_neg (by simp [hwhole])).trans ?_))
    simp [htr, hnak, hkind, D2dLink.dir_updDir_other, hd, hseq, Ctl.putFlit_next]
  case timeout => exact acts_of_ret rfl (by simp [hl, hd]) (by simp [hst, hun, hdue])
  case lockLoss => exact acts_of_ret rfl (by simp [hl, hd, hlane]) (by simp [hst])
  case clock => exact acts_of_ret rfl (by simp [hl, hd, hpair, hlane]) (by simp [hst])
  case asked => exact moves_of_ret rfl (by simp [hl, hd]) (if_pos hasked) (Ctl.calm_updLink ..)
  case acked => exact moves_of_ret rfl (by simp [hl, hd]) (by simp only [hacked]) (Ctl.calm_updLink ..)

/-! The guest site (R312 to R317). -/

section
variable {s : State} {i : Instr} {g : GuestReq}

/-- What the firewall makes of a request is what GUEST_READ does, or GUEST_WRITE, as its opcode says. -/
theorem acts_of_guestRow {eff : W → W} (hok : guestOk g = true) (ht : g.tag < 1024) (hopen : s.ctl.guestOpen g.tag = true)
    (hrow : s.world.guestRow g = eff s.world) :
    (g.opcode ≠ 2 → Acts s (.guestRead g) eff) ∧ (g.opcode = 2 → Acts s (.guestWrite g) eff) :=
  ⟨fun hop => acts_of_world_eq rfl (by simp [hok, ht, hop]) ((if_pos hopen).trans hrow),
    fun hop => acts_of_world_eq rfl (by simp [hok, ht, hop]) ((if_pos hopen).trans hrow)⟩

/-- A guest command that changes the guest site alone, and succeeds. -/
theorem guestCmd_does {op : Nat} {lock : Bool} {h : Hdr} {args : List Arg} {f : W → Res} {F : Ctl → Ctl} {body : List Byte}
    (he : exec i s = guestCmd op lock h args s f) (hu : s.ctl.usable 16 = true) (hF : ∀ c, F c = { c with guest := (F c).guest })
    (hf : f (s.taken { op, roles := [0], lock } h) = .ok body ((s.taken { op, roles := [0], lock } h).on F)) :
    Does s { op, roles := [0], lock } h args [] i F body := by
  refine fun ha => he.trans (mbxRow_done ha ((if_pos hu).trans hf) ?_)
  rw [hF]
  exact Ctl.calm_of_eq (by simp) (by simp) (by simp) (by simp) (by simp) (by simp)

end

theorem guestRows : Clause.GuestRows := by
  intro s h g r n access rate threshold code
  dsimp only
  refine ⟨fun hok htag hopen => ⟨fun hr hgo => ?admitted, fun he => ?refused, fun hr hwait => ?waits⟩,
    fun hn hfind hr hgo => ?waiter, fun hok hup => ⟨fun hmatch => ?matched, fun hstray => ?stray⟩,
    fun hu => ⟨fun hreg hz hspace => ?grant, fun hgrant => ⟨fun hidle => ?revoked, fun hbusy => ?revoking⟩, ?gauge, ?enable,
      ?status⟩⟩
  case admitted => exact acts_of_guestRow hok htag hopen (by simp [W.guestRow, hr, hgo])
  case refused => exact acts_of_guestRow hok htag hopen (by simp [W.guestRow, he])
  case waits => exact acts_of_guestRow hok htag hopen (by simp [W.guestRow, hr, hwait])
  case waiter =>
    have htoken : s.ctl.guest.tokens ≠ 0 := by
      intro h0
      simp [Ctl.guestWaits, h0] at hgo
    exact acts_of_world_eq rfl (by simp [hn]) (by simp [hfind, hr, hgo, htoken])
  case matched =>
    exact moves_of_ret rfl hok ((if_neg (by simp [hup])).trans (if_pos hmatch)) (Ctl.calm_of_eq rfl rfl rfl rfl rfl rfl)
  case stray => exact acts_of_ret rfl hok ((if_neg (by simp [hup])).trans (if_neg (ne_true_of_eq_false hstray)))
  case grant =>
    have hgrantable : ¬ (((r.space != 1 && r.space != 2) || decide (r.space = 1) && decide (0xA000000 ≤ r.base)) = true) := by
      obtain ⟨hhub, hpublic⟩ | hstack := hspace
      · simp [hhub, hpublic]
      · simp [hstack]
    refine guestCmd_does rfl hu (fun _ => rfl) ?_
    simp only [State.taken_c, Ctl.consume_fabric, hreg, hz]
    exact if_neg hgrantable
  case revoked =>
    exact guestCmd_does rfl hu (fun _ => rfl) ((if_neg (by simp [hgrant])).trans (if_neg (ne_true_of_eq_false hidle)))
  case revoking =>
    exact waits_of_wait rfl ((if_pos hu).trans ((if_neg (by simp [hgrant])).trans (if_pos hbusy)))
  case gauge => exact guestCmd_does rfl hu (fun _ => rfl) rfl
  case enable => exact guestCmd_does rfl hu (fun _ => rfl) rfl
  case status => exact reads_of_ok rfl (if_pos hu)

/-- Settles O37: each row takes the branch that the premises name. What a flit carries and the layout of the links' status are the
model's (log 15), as are the corners of the guest's firewall (log 37) and that its list of the Easel's tags stays empty (log 83). -/
theorem linkAndGuestRows : Obligations.LinkAndGuestRows := ⟨linkRows, guestRows⟩

end Sys2Proof.Machine
end

section
/-! SUPPORT. The mailbox commands of DMA channels and completion queues, and the events of the DMA engine. -/

namespace Sys2Proof.Machine

/-! The commands of Table 11-8 and the two rebinds (R319, R323, R338, R553). -/

section
variable {s : State} {i : Instr} {k : Cmd} {h : Hdr} {args : List Arg} {refs : List Ref} {f : Ctx → W → Res}

/-- A mailbox command that changes the tables of channels and queues alone, and succeeds. -/
theorem does_of_dmaTables {g : Ctl → Ctl} {body : List Byte} (he : exec i s = mbxRow k h args refs s f)
    (hf : f (s.ctl.ctxOf h.pair) (s.taken k h) = .ok body ((s.taken k h).on g))
    (hg : ∀ c, g c = { c with chans := (g c).chans, cqs := (g c).cqs }) : Does s k h args refs i g body := by
  refine fun ha => he.trans (mbxRow_done ha hf ?_)
  rw [hg]
  exact Ctl.calm_of_eq (by simp) (by simp) (by simp) (by simp) (by simp) (by simp)

end

@[simp] theorem Ctl.consume_headOf (k : Cmd) (h : Hdr) (c : Ctl) (q : Nat) : (c.consume k h).headOf q = c.headOf q := rfl

theorem chanFor_of_owns {c : Ctl} {x : Ctx} {n : Nat} {ch : DmaChan} (hn : c.chans.get? n = some ch) (ho : x.owns ch.job = true)
    (args : List Arg) : chanFor c x n args = .ok ch := by
  simp [chanFor, hn, ho]

/-- The number that a creation takes, where the one asked is free or any will do. -/
theorem asked_free_and_chosen_eq {α : Type} {t : Tab α} {asked n limit : Nat} (hlimit : limit < 0xFF)
    (h : (asked = n ∧ n < limit ∧ t.has n = false) ∨ (asked = 0xFF ∧ t.firstFree 0 limit = some n)) :
    (asked != 0xFF && t.has asked) = false ∧ (if asked = 0xFF then t.firstFree 0 limit else some asked) = some n := by
  obtain ⟨rfl, hn, hfree⟩ | ⟨rfl, hfree⟩ := h
  · exact ⟨by simp [hfree], if_neg (by omega)⟩
  · exact ⟨rfl, hfree⟩

/-- Each command of Table 11-8 takes the branch that its premises name. `W.on_c` and, in the rebinds, `Ctl.consume_tick` are off so that the
channel keeps the form in which the premises ask whether it is settled. -/
theorem dmaCommands : Clause.DmaCommands := by
  intro s h queue job n q share pi loc a cq ch
  dsimp only
  refine ⟨fun hjob hu hq => ?cqCreate, fun hq ho hunused => ?cqDestroy, fun hjob hu hq ho hsame hn => ?create,
    fun hn ho => ⟨fun hopen => ⟨fun hgone => ?destroyed, fun hstays => ?destroying⟩, ?share, ?kick, ?status⟩⟩
  case cqCreate =>
    obtain ⟨hfree, htaken⟩ := asked_free_and_chosen_eq (by decide) hq
    refine does_of_dmaTables rfl ?_ fun _ => rfl
    simp only [State.taken_c, jobCheck_consume, hjob]
    simp [hu, hfree, htaken]
  case cqDestroy => exact does_of_dmaTables rfl (by simpa [hq, ho] using hunused) fun _ => rfl
  case create =>
    obtain ⟨hfree, htaken⟩ := asked_free_and_chosen_eq (by decide) hn
    refine does_of_dmaTables rfl ?_ fun _ => rfl
    simp only [State.taken_c, jobCheck_consume, hjob]
    simp [hu, hq, hsame ▸ ho, hsame, hfree, htaken]
  case destroyed => exact lands_of_ok rfl (by simp [-W.on_c, chanFor_of_owns, hn, ho, hopen, hgone])
  case destroying => exact waits_of_wait rfl (by simp [-W.on_c, chanFor_of_owns, hn, ho, hopen, hstays])
  case share => exact does_of_dmaTables rfl (by simp [chanFor_of_owns, hn, ho]) fun _ => rfl
  case kick => exact lands_of_ok rfl (by simp [chanFor_of_owns, hn, ho])
  case status => exact reads_of_ok rfl (by simp [chanFor_of_owns, hn, ho])

theorem dmaRebinds : Clause.DmaRebinds := by
  intro s h n fn q loc cq ch
  dsimp only
  refine ⟨fun hn ho hst hopen hre => ⟨fun hdone => ?rebound, fun hpending => ?rebinding⟩, fun hq ho hidle => ?cqRebind⟩
  case rebound => exact lands_of_ok rfl (by simp [-Ctl.consume_tick, chanFor_of_owns, hn, ho, hst, hopen, hre, hdone])
  case rebinding =>
    obtain ⟨r, hr⟩ := Option.isSome_iff_exists.mp hpending
    exact waits_of_wait rfl (by simp [-Ctl.consume_tick, chanFor_of_owns, hn, ho, hst, hopen, hre, hr])
  case cqRebind => exact does_of_dmaTables rfl (by simpa [hq, ho] using hidle) fun _ => rfl

/-- Settles O33: on an accepted command the premises rule out each refusal of its row; a destruction and a rebind answer at once or wait
as the channel is settled by then or not. -/
theorem dmaObjectCommands : Obligations.DmaObjectCommands := ⟨dmaCommands, dmaRebinds⟩

/-! The turn of a channel (R321). -/

/-- The turn goes to the first channel of the rotation that can have a burst, so none before it can. -/
theorem Ctl.dmaNext_skips {c : Ctl} {n i j : Nat} (hi : i < 64) (hj : j < i) (hin : (c.fabric.dmaTurn + 1 + i) % 64 = n)
    (hnext : c.dmaNext = some n) :
    (c.chans.get? ((c.fabric.dmaTurn + 1 + j) % 64)).any (c.dmaReady ((c.fabric.dmaTurn + 1 + j) % 64)) = false := by
  rw [Ctl.dmaNext, List.find?_map, Option.map_eq_some_iff] at hnext
  obtain ⟨first, hfirst, hn⟩ := hnext
  obtain ⟨-, hlt, hbefore⟩ := List.find?_range_eq_some.mp hfirst
  -- Within one round each channel has one place.
  obtain rfl : first = i := by
    have := List.mem_range.mp hlt
    omega
  simpa using hbefore j hj

/-! The rows of the engine's events. -/

section
variable {s : State} {n : Nat} {x : DmaChan} {d : DescRun} (hn : n < 64)
include hn

/-- With no data held for its tag, the channel whose turn it is issues its next burst (R320 to R322, R327). -/
theorem dmaBurstIssue_acts {tag : Nat} {clear : Bool} (host : HostRead) (hx : s.ctl.chans.get? n = some x)
    (hheld : ∀ y ∈ x.begun, ∀ z ∈ y.flying, ∀ data mask, z.at_ = .ready data mask → z.err ≠ none)
    (hturn : s.ctl.dmaNext = some n) (hdesc : nextDesc x = some (d, clear)) (htag : s.ctl.dmaTag n = some tag) :
    Acts s (.dmaBurstIssue n host) (W.issueBurst n tag x d host) := by
  refine acts_of_world_eq rfl (decide_eq_true hn) ?_
  simp only [State.world_c, hx]
  split
  next hsome =>
    obtain ⟨y, hy, hburst⟩ := List.exists_of_findSome?_eq_some hsome
    obtain ⟨z, hz, hdata⟩ := List.exists_of_findSome?_eq_some hburst
    split at hdata
    next data mask hready => simp [hheld y hy z hz data mask hready] at hdata
    next => exact nomatch hdata
  next => simp [hturn, hdesc, htag]

/-- The record of a channel's only descriptor waits first for the read of the port that the descriptor has written (R328). -/
theorem dmaDescriptorComplete_flushes {cq : DmaCq} (hx : s.ctl.chans.get? n = some x) (hbegun : x.begun = [d])
    (hrec : d.recorded = false) (hfly : d.flying = []) (hdone : d.allDone = true) (hfinal : d.final = none)
    (hloud : d.carried = true ∨ dQuiet d.raw = false) (hrecords : x.noRecords = false) (hq : s.ctl.cqs.get? x.queue = some cq)
    (hroom : cq.records - cq.head < cq.loc.size) (hflush : needsFlush d cq = true) :
    Acts s (.dmaDescriptorComplete n) (W.on fun c =>
      (c.updDesc n d.idx fun y => { y with flying := [flushRun y] }).settleChan n) := by
  have hlanded : d.landed = true := by simp [DescRun.landed, hfly]
  have hrecord : ¬ (d.carried = false ∧ dQuiet d.raw = true) := by
    obtain h | h := hloud <;> simp [h]
  have hstep : s.world.recordStep n = s.world.on (Ctl.updDesc n d.idx fun y => { y with flying := [flushRun y] }) := by
    simp [W.recordStep, hx, hbegun, hrec, hlanded, hdone, hfinal, hrecord, hrecords, hq, Nat.not_le.mpr hroom, hfly, hflush]
  exact acts_of_world_eq rfl (decide_eq_true hn) (congrArg (W.on (Ctl.settleChan n)) hstep)

/-- A burst that has met an error is a bus error of its descriptor (R332). -/
theorem dmaBusError_acts {b : BurstRun} {e : BusErr} {status dir addr : Nat} (hx : s.ctl.chans.get? n = some x)
    (hbegun : x.begun = [d]) (hfly : d.flying = [b]) (hpos : b.pos = e.burst) (herr : b.err = some (e.kind, status, dir, addr)) :
    Acts s (.dmaBusError n e) (W.on (Ctl.dmaFault n d.idx b.pos (addr % 2 ^ 64) (errInfo e.kind status 0 dir))) :=
  acts_of_ret rfl (decide_eq_true hn) (by simp [-Nat.reducePow, hx, hbegun, hfly, hpos, herr])

/-- A fetch that has failed here, or that the command says has failed in a host, halts its channel (R649). -/
theorem descriptorFetchFail_acts {e : BusErr} {kind status : Nat} {rest : List Fetched}
    (hx : (s.world.fetchAhead n 8).c.chans.get? n = some x) (hmay : mayBegin x = true) (hlo : 1 ≤ e.kind) (hhi : e.kind ≤ 3)
    (hstatus : e.status < 65536)
    (hfail : x.ahead = .bad kind status :: rest ∨ x.ahead = .host :: rest ∧ e.kind ≠ 1 ∧ kind = e.kind ∧ status = 0) :
    Acts s (.descriptorFetchFail n e) fun w => (w.fetchAhead n 8).on fun c =>
      (c.updChan n fun y => { y with
        busErrors := inc32 y.busErrors
        errAddr := fetchAddr y y.next
        errInfo := errInfo kind status (if kind = 2 then x.ring.kind - 1 else 0) 0
        errDesc := y.next
        failed := true
        fetchFailed := true
        st := .halted }).setChanBit n 1 := by
  refine acts_of_world_eq rfl (by simp [hn, hlo, hhi, hstatus]) ?_
  obtain hbad | ⟨hhost, hkind, rfl, rfl⟩ := hfail
  · simp [hx, hmay, hbad]
  · simp [hx, hmay, hhost, hkind]

end

/-- DMA_RECORD_DEFERRED names the first channel of the queue whose record waited for room (R330). -/
theorem dmaRecordDeferred_acts {s : State} {q idx : Nat} {x : DmaChan} (hq : q < 16)
    (hfirst : (s.ctl.chans.find? fun y => y.2.queue = q && (y.2.begun.find? (!·.recorded)).any (·.stalled)) = some (idx, x)) :
    Acts s (.dmaRecordDeferred q) (W.recordNext idx) :=
  acts_of_world_eq rfl (decide_eq_true hq) (by simp only [State.world_c, hfirst])

/-- Settles O36: each row takes the branch that the premises name, and the turn goes round from the channel served last. That the rotation
begins at channel 0, and that DMA_DESCRIPTOR_COMPLETE makes the read that a record waits for, are the model's reading (log 84). -/
theorem dmaEvents : Obligations.DmaEvents := by
  intro s n tag q idx host x d b e clear cq hn
  exact ⟨dmaBurstIssue_acts hn host,
    fun _ _ hi hj hin hnext => Ctl.dmaNext_skips hi hj hin hnext,
    acts_of_world_eq rfl (decide_eq_true hn) rfl,
    dmaDescriptorComplete_flushes hn,
    fun hq _ hfirst => dmaRecordDeferred_acts hq hfirst,
    fun _ _ _ => dmaBusError_acts hn,
    fun _ _ _ => descriptorFetchFail_acts hn⟩

end Sys2Proof.Machine
end

section
/-! SUPPORT. The commands of the cabling plan, the routing tables, the router's counters and the optical edge. -/

namespace Sys2Proof.Machine

/-! Taking a command out of its ring leaves the plan and the tables as they were. -/

section
variable (k : Cmd) (h : Hdr) (c : Ctl)

@[simp] theorem Ctl.consume_planEntry (p : Nat) : (c.consume k h).planEntry p = c.planEntry p := rfl
@[simp] theorem Ctl.consume_isNormal : (c.consume k h).isNormal = c.isNormal := rfl
@[simp] theorem Ctl.consume_tableRoom (job : Nat) : (c.consume k h).tableRoom job = c.tableRoom job := rfl

end

theorem planCommands : Clause.PlanCommands := by
  intro s h block plan old t table entries p job k args judge
  refine ⟨fun hver hself hentries hports hback => ?load, fun hplan hlen hentries hnodup => ?amend, ?rejudge,
    fun hplan hfits hroom => ?set, fun hhas => ?clear⟩
  case load =>
    refine lands_of_ok rfl ((if_neg ?_).trans (if_neg ?_))
    · simpa [-Nat.reducePow, -List.all_eq_true, hentries, hports] using ⟨hver, Nat.le_of_lt_succ hself⟩
    · simp [hback]
  case amend =>
    intro new amended moved opened hback htable hstrand
    have hnew : new = { old with entries := old.entries.map fun e => (entries.find? (·.port = e.port)).getD e } := rfl
    have hamended : amended = Ctl.onRouter fun r => { r with plan := some new } := rfl
    have hfits : (table.bind fun u => tableFail u (amended s.ctl).selfModule (amended s.ctl).isNormal) = none :=
      Option.bind_eq_none_iff.mpr fun u hu => (htable u hu).1
    -- The command has left its ring by the time that it is judged, which none of these asks about.
    have hnormal : (amended (s.ctl.consume (k 0x0401) h)).isNormal = (amended s.ctl).isNormal := rfl
    have hself : (amended (s.ctl.consume (k 0x0401) h)).selfModule = (amended s.ctl).selfModule := rfl
    have hroom (job : Nat) : (amended (s.ctl.consume (k 0x0401) h)).tableRoom job = s.ctl.tableRoom job := rfl
    refine lands_of_ok rfl ?_
    simp only [State.taken_c, Ctl.consume_router, Ctl.consume_planEntry, hplan, ← hnew, W.on_c, ← hamended, hnormal, hself, hfits]
    refine (if_neg ?entries).trans ((if_neg ?backups).trans ((if_neg ?strands).trans ((if_neg ?full).trans ?installs)))
    case entries => simp [-List.all_eq_true, hentries, hnodup, hlen]
    case backups => simpa using hback
    case strands =>
      -- Each port that a table in force uses, but the amendment's own, stays NORMAL.
      simp only [List.any_eq_true, Bool.and_eq_true, Bool.not_eq_true']
      rintro ⟨u, hu, hother, m, hm, q, hq, hclosed⟩
      refine Bool.false_ne_true (hclosed.symm.trans (hstrand u hu (fun v hv hjob => ?_) m hm q hq))
      simp [hv, hjob] at hother
    case full =>
      simp only [hroom, Option.any_eq_true_iff_get, Bool.not_eq_true']
      rintro ⟨hsome, hfull⟩
      exact Bool.false_ne_true (hfull.symm.trans (htable _ (Option.some_get hsome).symm).2)
    case installs =>
      cases table with
      | none => rfl
      | some u =>
        simp only [List.isEmpty_iff]
        rfl
  case rejudge => exact lands_of_ok rfl (by simp [k])
  case set =>
    have hfree : s.ctl.tableRoom t.job = true := by simpa [Ctl.tableRoom, or_comm] using hroom
    refine lands_of_ok rfl ((if_neg (by simp [hplan])).trans ?_)
    simp only [State.taken_c, Ctl.consume_selfModule, Ctl.consume_isNormal, hfits, Ctl.consume_tableRoom, hfree]
    rfl
  case clear => exact lands_of_ok rfl (if_neg (by simp [hhas]))

theorem routerReads : Clause.RouterReads := by
  intro s h p job i ms t b
  dsimp only
  refine ⟨reads_of_ok rfl rfl, fun ht ho => ?table, reads_of_ok rfl rfl, fun hi hb => ?kept, fun hb => ?taken, lands_of_ok rfl rfl⟩
  case table => exact reads_of_ok rfl (by simp [ht, ho])
  case kept =>
    have hne : i ≠ 0xFF := by omega
    exact reads_of_ok rfl (by simp [hne, hb])
  case taken => exact lands_of_ok rfl (by simp [hb])

theorem opticCommands : Clause.OpticCommands := by
  intro s h p dir j m interval places
  refine ⟨reads_of_ok rfl rfl, reads_of_ok rfl rfl, fun hclash => ?steer, fun hone => ?interval, fun hrails => ?swatch, ?retire⟩
  case steer => exact waits_of_wait rfl (if_neg (ne_true_of_eq_false hclash))
  case interval => exact lands_of_ok rfl (by rw [if_neg hone]; rfl)
  case swatch => exact waits_of_wait rfl (if_neg (by simp [hrails]))
  case retire =>
    intro k args f old c new hold
    have hfound : ¬ old.isNone = true := by simpa using Option.isSome_iff_ne_none.mp hold
    exact ⟨fun hstays => waits_of_wait rfl ((if_neg hfound).trans (if_pos hstays)),
      fun hmoved => lands_of_ok rfl ((if_neg hfound).trans (if_neg hmoved))⟩

/-- Settles O39: each accepted command takes the branch of its row that the premises name. That the tables of PLAN_LOAD, PLAN_AMEND and
ROUTE_TABLE_SET come as one reference (log 8), that snapshot 0 is the newest and 0xFF takes a new one (log 17), and that a steer is answered
when its ports' retrains end (log 45), are the model's choices. -/
theorem networkCommands : Obligations.NetworkCommands := ⟨planCommands, routerReads, opticCommands⟩

end Sys2Proof.Machine
end

section
/-! SUPPORT. The events of the optical edge. -/

namespace Sys2Proof.Machine

/-! A fibre's direction and its grid slots under a change. -/

section
variable (f dir w : Nat) (c : Ctl)

@[simp] theorem Ctl.oport_updOPort (g : OPort → OPort) : (c.updOPort f g).oport f = g (c.oport f) := by
  simp [Ctl.oport, Ctl.updOPort]

@[simp] theorem Ctl.fibre_updFibre (g : FibreDir → FibreDir) : (c.updFibre f dir g).fibre f dir = g (c.fibre f dir) := by
  simp only [Ctl.fibre, Ctl.updFibre, Ctl.oport_updOPort]
  split <;> rfl

theorem Ctl.updFibre_congr {g k : FibreDir → FibreDir} (h : g (c.fibre f dir) = k (c.fibre f dir)) :
    c.updFibre f dir g = c.updFibre f dir k := by
  simp only [Ctl.fibre, Ctl.oport] at h
  split at h <;> simp [Ctl.updFibre, Ctl.updOPort, Tab.upd, *]

/-- The turn of a direction's calibration passes on by the interval that the direction has (R357). -/
theorem Ctl.updFibre_turn (next tick : Nat) :
    (c.updFibre f dir fun d => { d with
      calNext := next
      calDue := tick + d.interval }) =
    c.updFibre f dir fun d => { d with
      calNext := next
      calDue := tick + (c.fibre f dir).interval } :=
  Ctl.updFibre_congr f dir c rfl

@[simp] theorem Ctl.gridSlot_updGrid (g : Grid → Grid) :
    ((c.updGrid f dir w g).fibre f dir).grid.getD w {} = g ((c.fibre f dir).grid.getD w {}) := by
  simp [Ctl.updGrid]

/-- The tick of a port's light is no part of its fibres. -/
theorem Ctl.fibre_updOPort_lightAt (p tick : Nat) : (c.updOPort p fun o => { o with lightAt := tick }).fibre f dir = c.fibre f dir := by
  by_cases h : f = p
  · subst h
    simp [Ctl.fibre]
  · simp [Ctl.fibre, Ctl.oport, Ctl.updOPort, Tab.getD_upd_other _ _ _ _ h]

/-- What a filter ring finds of light does not unlock it (R356, R371). -/
theorem Ctl.out_setLit (lit : Bool) : (((c.setLit f w lit).fibre f 1).grid.getD w {}).out = ((c.fibre f 1).grid.getD w {}).out := by
  unfold Ctl.setLit
  split
  · rfl
  · refine (foldl_keeps (fun c : Ctl => ((c.fibre f 1).grid.getD w {}).out) (fun c p => ?_) _ _).trans (by simp)
    split
    · rfl
    · rw [Ctl.fibre_updOPort_lightAt]

end

/-! One reading of a laser's monitor (R359). -/

section
variable {p0 power : Int} {g : Grid}

/-- Above the floor, a reading that brings no average of 100 to the warning threshold changes no latch. -/
theorem Grid.take_of_quiet (hpower : p0 - 300 < power)
    (hquiet : g.warned = true ∨ (lastN 100 (g.reads ++ [power])).length < 100 ∨
      100 * (p0 - 150) < (lastN 100 (g.reads ++ [power])).sum) :
    g.take p0 power = { g with power := power, reads := lastN 100 (g.reads ++ [power]), low := false } := by
  have hwarned : (g.warned || decide ((lastN 100 (g.reads ++ [power])).length = 100) &&
      decide ((lastN 100 (g.reads ++ [power])).sum ≤ 100 * (p0 - 150))) = g.warned := by
    obtain h | h | h := hquiet
    · simp [h]
    · simp [Nat.ne_of_lt h]
    · simp [Int.not_le.mpr h]
  simp [Grid.take, Int.not_le.mpr hpower, hwarned]

/-- Above the floor, an average of 100 at the warning threshold latches the warning. -/
theorem Grid.take_of_average (hpower : p0 - 300 < power) (hlen : (lastN 100 (g.reads ++ [power])).length = 100)
    (hsum : (lastN 100 (g.reads ++ [power])).sum ≤ 100 * (p0 - 150)) :
    g.take p0 power = { g with power := power, reads := lastN 100 (g.reads ++ [power]), low := false, warned := true } := by
  simp [Grid.take, Int.not_le.mpr hpower, hlen, hsum]

/-- The second reading running at the floor latches it. -/
theorem Grid.take_of_floor (hpower : power ≤ p0 - 300) (hlow : g.low = true) (hwarned : g.warned = true) :
    g.take p0 power = { g with power := power, reads := lastN 100 (g.reads ++ [power]), floored := true } := by
  simp [Grid.take, hpower, hlow, hwarned]

end

/-- A reading that latches no warning is kept; one that latches the floor fails its grid slot too (R359 to R361). -/
theorem laserMonitorRead_acts {s : State} {f w : Nat} {power : Int} {g new : Grid} (hf : f < 32) (hw : w < 18)
    (hg : (s.ctl.fibre f 0).grid.getD w {} = g) (htake : g.take (Config.laserP0 f w) power = new) (hwarned : new.warned = g.warned) :
    (new.floored = g.floored → Acts s (.laserMonitorRead f w power []) (W.on (Ctl.updGrid f 0 w fun _ => new))) ∧
    (new.floored = true → g.floored = false →
      Acts s (.laserMonitorRead f w power []) (W.on fun c => (c.updGrid f 0 w fun _ => new).failGrid f 0 w 5)) := by
  have hdomain : (decide (f < 32) && decide (w < 18)) = true := by simp [hf, hw]
  -- Whether the laser carries a data slot matters to a new warning alone.
  refine ⟨fun hkept => acts_of_ret rfl hdomain ?_, fun hnow hold => acts_of_ret rfl hdomain ?_⟩
  · cases (s.ctl.fibre f 0).map.find? (fun x => decide (x.2 = w)) with
    | none | some x => simp [hg, htake, hwarned, hkept]
  · cases (s.ctl.fibre f 0).map.find? (fun x => decide (x.2 = w)) with
    | none | some x => simp [hg, htake, hwarned, hnow, hold]

/-- A changeover that has tried no spare yet takes the lowest free one (R360). -/
theorem Ctl.nextSpare_nil (d : FibreDir) : Ctl.nextSpare d [] = Ctl.freeSlot d := by simp [Ctl.nextSpare, Ctl.freeSlot]

theorem opticSlots : Clause.OpticSlots := by
  intro s f dir w j heater margin sp power r m g k verified hf hdir hw hj
  dsimp only
  refine ⟨fun hheater hnear => ⟨?txLocked, ?rxLocked, ?outOfRange⟩, fun hheater hfar hout => ?unlocked,
    fun hg hpower => ⟨fun hquiet => ?reading, fun hwarned hlen hsum hslot => ?warning⟩, fun hg hpower hlow hwarned hfloored => ?floor,
    fun hcopy hwarn hquiet hslot hsp => ?changeover, fun hcopy hcal hgrid hver => ?verified, fun hm => ?move, ?report,
    fun hmargin hcopy hcal => ?calEnd, fun hmargin hcopy hint hdue hturn => ⟨fun hre hmap hsp => ?calBegin, fun hre hgood => ?back⟩⟩
  -- A ring at most 10 GHz off counts from 0 again, and the tenth update running that finds it further off unlocks it.
  case txLocked => exact acts_of_ret rfl (by simp [hf, hw, hheater]) (by simp [Nat.not_lt.mpr hnear])
  case rxLocked => exact acts_of_ret rfl (by simp [hf, hw, hheater]) (by simp [Nat.not_lt.mpr hnear, Ctl.out_setLit])
  case outOfRange => exact acts_of_ret rfl (by simp [hf, hw, hheater]) (by simp [Nat.not_lt.mpr hnear])
  case unlocked => exact acts_of_ret rfl (by simp [hf, hw, hheater]) (by simp [hfar, hout])
  case reading => exact (laserMonitorRead_acts hf hw hg (Grid.take_of_quiet hpower hquiet) rfl).1 rfl
  case warning =>
    exact acts_of_ret rfl (by simp [hf, hw]) (by simp [hg, Grid.take_of_average hpower hlen hsum, hwarned, hslot])
  case floor => exact (laserMonitorRead_acts hf hw hg (Grid.take_of_floor hpower hlow hwarned) rfl).2 rfl hfloored
  case changeover =>
    obtain ⟨t, ht⟩ := Option.isSome_iff_exists.mp hwarn
    refine acts_of_ret rfl (by simp [hf, hw]) ?_
    simp [hcopy, ht, hquiet, Ctl.beginChangeover, hslot, Ctl.nextSpare_nil, hsp]
  case verified =>
    refine acts_of_ret rfl (by simpa [hf, hw] using hver) ?_
    simp [hcopy, hcal, hgrid]
  case move => exact acts_of_ret rfl (by simp [hf, hj, hm]) rfl
  case report => exact acts_of_ret rfl (by simp [hf, hj]) rfl
  case calEnd => exact acts_of_ret rfl (by simp [hf, hdir, hmargin]) (by simp [hcopy, hcal])
  case calBegin =>
    exact acts_of_ret rfl (by simp [hf, hdir, hmargin])
      (by simp [hcopy, hint, Nat.not_lt.mpr hdue, hturn, hre, hmap, hsp, Ctl.updFibre_turn])
  case back =>
    exact acts_of_ret rfl (by simp [hf, hdir, hmargin])
      (by simp [hcopy, hint, Nat.not_lt.mpr hdue, hturn, hre, hgood, Ctl.updFibre_turn])

theorem opticLight : Clause.OpticLight := by
  intro s p m due id tx rx places rest hp hm
  dsimp only
  refine ⟨fun htx hrx hturn hin => ?swatch, fun hsw hdark hdue => ?noLight,
    fun hrails hlit hdue => ⟨fun hsw => ?testing, fun hsw hno => ?again⟩,
    fun hrails hdark hdue hsw hno hloss hdead h4 h6 => ?loss, fun hloss hdue => ?lost, fun hsteer hready hidle => ?steer⟩
  case swatch => exact acts_of_ret rfl (by simp [hp, htx, hrx]) (by simp [hturn, hin])
  case noLight => exact acts_of_ret rfl (decide_eq_true hp) (by simp [hsw, hdark, hdue])
  case testing => exact acts_of_ret rfl (decide_eq_true hp) (by simp [hsw, hrails, hlit, hdue])
  case again => exact acts_of_ret rfl (decide_eq_true hp) (by simp [hsw, hrails, hlit, hdue, hno])
  case loss => exact acts_of_ret rfl (decide_eq_true hp) (by simp [hsw, hrails, hdark, hdue, hno, hloss, hdead, h4, h6])
  case lost => exact acts_of_ret rfl (decide_eq_true hp) (by simp [hloss, hdue])
  case steer => exact acts_of_ret rfl (decide_eq_true hm) (by simp [hsteer, hready, hidle])

/-- Settles O40: each event takes the branch of its row that the premises name. What the far receiver finds comes with the command, and the
corners of copies and calibrations are the model's (log 85), as is the moment at which lasers settle, the margins that two agreeing sweeps
give, and the lit slots that a port with steered quads counts (log 86). -/
theorem opticRows : Obligations.OpticRows := ⟨opticSlots, opticLight⟩

end Sys2Proof.Machine
end

section
/-! SUPPORT. The Tally through every step: only its own inputs change it. -/

namespace Sys2Proof.Machine

/-- An outcome that leaves the Tally of `s` whole where it is a next state. -/
def KeepsTally (s : State) (o : Host.Outcome State Fault Refusal) : Prop := ∀ t, o = .next t → t.tally = s.tally

section
variable {s : State}

theorem ret_keepsTally {ok : Bool} {t : State} (h : t.tally = s.tally) : KeepsTally s (ret ok t) := by
  intro u hu
  cases ok with
  | true => cases hu; exact h
  | false => cases hu

/-- A meaning that runs over the module leaves the Tally whole, whatever its effect: `State.land` takes the controllers and memory from
it and nothing else. -/
theorem act_keepsTally (ok : Bool) (f : W → W) : KeepsTally s (ret ok (s.act f)) := ret_keepsTally rfl

/-- A command that stays in its ring while it cannot start changes nothing of the Tally. -/
theorem ite_mbxRow_keepsTally (b : Prop) [Decidable b] (k : Cmd) (h : Hdr) (args : List Arg) (refs : List Ref) (f : Ctx → W → Res) :
    KeepsTally s (if b then ret (hdrOk h) s else mbxRow k h args refs s f) := by
  split
  · exact ret_keepsTally rfl
  · exact act_keepsTally _ _

theorem standbyRow_keepsTally (ok : Bool) (f : W → W) : KeepsTally s (standbyRow ok s f) := act_keepsTally _ _

/-- Every row but the Tally's own inputs is a meaning that runs over the module, or a command that can stay in its ring. -/
theorem exec_keepsTally {i : Instr} (hi : tallyOwnRow i = false) : KeepsTally s (exec i s) := by
  unfold exec
  cases i with
  | tallyRecordFrame | tallyEnrolment | tallyReadout | tallySample | energyPulseEnd | tallyCommit | tallyTempRead | tallyPowerUp
  | tallyInputLost | tallyMeshBreach => cases hi
  | sysSessionClose | sysStageWrite | collStart => exact ite_mbxRow_keepsTally _ _ _ _ _ _
  | lidTamper | gessoRailsOff | railOutOfRange | clockGlitch | alarmInAssert | alarmSourceClear | smbusWrite | smbusRead =>
    exact standbyRow_keepsTally _ _
  | _ => exact act_keepsTally _ _

end

/-- An idle step changes nothing of the Tally. -/
theorem idle_tally (s : State) : (idle s).tally = s.tally := by
  unfold idle
  split <;> rfl

/-- Settles O5: a step idles, or carries out the command at the front of the queue, and no row but the Tally's own inputs writes the
Tally. -/
theorem onlyTallyRowsChangeTally : Obligations.OnlyTallyRowsChangeTally := by
  refine ⟨fun s t c rest hp hc hstep => ?front, fun s t hp hstep => ?idle⟩
  case front =>
    rw [step_of_pending_cons hp] at hstep
    exact exec_keepsTally (s := { s with pending := rest }) hc t hstep
  case idle =>
    rw [step_of_pending_nil hp] at hstep
    cases hstep
    exact idle_tally s

end Sys2Proof.Machine
end

section
/-! SUPPORT. The checks of a mailbox command in their order, and where its response goes. -/

namespace Sys2Proof.Machine

/-! The first failed check (R523). -/

section
variable {c : Ctl} {k : Cmd} {h : Hdr} {args : List Arg} {refs : List Ref}

/-- The first check: the length that the header counts is that of the message and one that the pair takes. -/
def Ctl.lengthBad (c : Ctl) (h : Hdr) (args : List Arg) (refs : List Ref) : Prop :=
  h.units ≠ unitsOf (max (argEnd args) (Ctl.inlineEnd refs)) ∨ c.unitLimit h.pair < h.units

/-- The second check: the number is the one that the pair expects. -/
def Ctl.sequenceBad (c : Ctl) (k : Cmd) (h : Hdr) : Prop :=
  if k.op = 0x0100 then h.seq ≠ 0 else h.seq ≠ (c.pair h.pair).expSeq

theorem Ctl.lengthBad_iff : (h.units != unitsOf (max (argEnd args) (Ctl.inlineEnd refs)) || decide (c.unitLimit h.pair < h.units)) = true ↔
    c.lengthBad h args refs := by
  simp [Ctl.lengthBad]

theorem Ctl.sequenceBad_iff : (if k.op = 0x0100 then h.seq != 0 else h.seq != (c.pair h.pair).expSeq) = true ↔ c.sequenceBad k h := by
  unfold Ctl.sequenceBad
  split <;> simp

theorem Ctl.refusal_of_lengthBad (hl : c.lengthBad h args refs) : c.refusal k h args refs = some (0x0104, 0) :=
  if_pos (lengthBad_iff.mpr hl)

theorem Ctl.refusal_of_sequenceBad (hl : ¬ c.lengthBad h args refs) (hs : c.sequenceBad k h) :
    c.refusal k h args refs = some (0x0106, 0) :=
  (if_neg (mt lengthBad_iff.mp hl)).trans (if_pos (sequenceBad_iff.mpr hs))

/-- A command that is framed well is refused by the first of the later checks that fails. -/
theorem Ctl.refusal_of_framed (hl : ¬ c.lengthBad h args refs) (hs : ¬ c.sequenceBad k h) : c.refusal k h args refs =
    let p := c.pair h.pair
    if p.st = .bound && k.op != 0x0100 then some (0x0201, 0)
    else if c.alarms.gesso && !k.gesso then some (0x0407, 0)
    else if p.session.isNone && !k.any && !(c.alarms.gesso && k.gesso) then some (if p.ended then 0x0401 else 0x0202, 0)
    else if c.locked && !k.lock then some (0x0407, 0)
    else if !k.any && !(c.alarms.gesso && k.gesso) && !(p.session.any fun s => k.roles.contains s.role) then some (0x0403, 0)
    else argFail args h.rsvdAt :=
  (if_neg (mt lengthBad_iff.mp hl)).trans (if_neg (mt sequenceBad_iff.mp hs))

end

/-- Settles O7: the checks of `Ctl.refusal` stand in R523's order, and a refused command changes nothing but its ring. -/
theorem mailboxChecksInOrder : Obligations.MailboxChecksInOrder := by
  intro s k h args refs f hpair
  have hh : hdrOk h = true := decide_eq_true hpair
  refine ⟨mbxRow_notReady hh, fun hr => ⟨fun hl => ?length, fun hl hs => ?sequence, fun hl hs hb ho => ?bound, fun hl hs hnb =>
    ⟨fun hg hk => ?gesso, fun hg => ⟨fun hn ha => ?noSession, fun hsome => ⟨fun hlk hk => ?locked, fun hlk =>
      ⟨fun x hx ha hrole => ?role, fun hrole e he => ?items⟩⟩⟩⟩⟩⟩
  case length => exact mbxRow_refused hh hr (Ctl.refusal_of_lengthBad hl)
  case sequence => exact mbxRow_refused hh hr (Ctl.refusal_of_sequenceBad hl hs)
  all_goals
    refine mbxRow_refused hh hr ((Ctl.refusal_of_framed hl hs).trans ?_)
    dsimp only
  case bound => simp [hb, ho]
  all_goals rw [if_neg (by simpa using hnb)]
  case gesso => simp [hg, hk]
  case noSession => simp [hg, hn, ha]
  case locked =>
    rcases hsome with hs | ha
    · simp [hg, hs, hlk, hk]
    · simp [hg, ha, hlk, hk]
  case role =>
    rcases hlk with hlk | hlk
    · simp [hg, hx, ha, hlk, hrole]
    · simp [hg, hx, ha, hlk, hrole]
  case items =>
    have hlk : (s.ctl.locked && !k.lock) = false := by rcases hlk with hlk | hlk <;> simp [hlk]
    rcases hrole with ha | ⟨x, hx, hrole⟩
    · simp [hg, ha, hlk, he]
    · simp [hg, hx, hrole, hlk, he]

/-! Pairs under a change. -/

section
variable (c : Ctl) (n : Nat)

@[simp] theorem Ctl.pair_setPair (p : Pair) : (c.setPair n p).pair n = p := by simp [Ctl.pair, Ctl.setPair]

@[simp] theorem Ctl.pair_updPair (f : Pair → Pair) : (c.updPair n f).pair n = f (c.pair n) := by simp [Ctl.updPair]

theorem Ctl.pair_updPair_other {m : Nat} (h : m ≠ n) (f : Pair → Pair) : (c.updPair n f).pair m = c.pair m :=
  Tab.getD_set_other _ _ _ h

@[simp] theorem Ctl.pair_updFn (m : Nat) (f : Fn → Fn) : (c.updFn m f).pair n = c.pair n := by simp [Ctl.pair]

end

/-- Settles O8: on a PCIe pair a response is `Ctl.rspToRing`, which writes it at the producer index where nothing is held and it fits,
and else holds it behind the others. -/
theorem responsesKeepOrder : Obligations.ResponsesKeepOrder := by
  intro c n m op seq corr status detail body hremote
  have hring : c.respond n op seq corr status detail body = c.rspToRing n ⟨false, op, seq, corr, status, detail, c.tick, body, 0⟩ := by
    simp [Ctl.respond, hremote]
  rw [hring]
  refine ⟨fun hheld hfits => ?written, fun hfull => ?held, fun hm => ?other⟩
  case written => simp [Ctl.rspToRing, hheld, hfits, Ctl.add32, Ctl.phaseOf]
  case held =>
    rw [Ctl.rspToRing, if_neg (by simpa [imp_iff_not_or] using hfull)]
    simp
  case other =>
    unfold Ctl.rspToRing
    dsimp only
    split
    · simp [Ctl.pair_updPair_other _ _ hm]
    · exact Ctl.pair_updPair_other _ _ hm _

end Sys2Proof.Machine
end

section
/-! SUPPORT. The state before the first cold start, the blocks of a collective's vector, and the readiness entries. -/

namespace Sys2Proof.Machine

/-- Settles O3: at reset every table is empty and every field has its default; that memory reads its default everywhere is log 4. -/
theorem resetState : Obligations.ResetState := by
  refine ⟨?sound, rfl, rfl, fun i => rfl, rfl, rfl, rfl, fun k => rfl⟩
  case sound => exact show Mem.empty.wf = true by decide

/-! The blocks of a vector (Table 15-1). -/

section
variable {n c p q : Nat}

/-- A block begins where the one before it ends. -/
theorem blockLo_add_blockLen (n c p : Nat) : blockLo n c p + blockLen n c p = blockLo n c (p + 1) :=
  Nat.add_sub_cancel' (Nat.div_le_div_right (Nat.mul_le_mul_right n p.le_succ))

theorem sum_blockLen (n c m : Nat) : ((List.range m).map (blockLen n c)).sum = blockLo n c m := by
  induction m with
  | zero => simp [blockLo]
  | succ m ih => simp [List.range_succ, ih, blockLo_add_blockLen]

/-- A block holds the quotient of the cut, or one element more. -/
theorem blockLen_bounds (hc : 0 < c) (n p : Nat) : n / c ≤ blockLen n c p ∧ blockLen n c p ≤ n / c + 1 := by
  have hstep := blockLo_add_blockLen n c p
  have hcut : (p + 1) * n = p * n + n := by ring
  have hlow : p * n / c + n / c ≤ (p * n + n) / c := Nat.div_add_div_le_add_div
  have hup : (p * n + n) / c ≤ p * n / c + n / c + 1 := by
    have hp := Nat.lt_div_mul_add hc (a := p * n)
    have hn := Nat.lt_div_mul_add hc (a := n)
    refine Nat.le_of_lt_succ ((Nat.div_lt_iff_lt_mul hc).mpr ?_)
    calc p * n + n < (p * n / c * c + c) + (n / c * c + c) := Nat.add_lt_add hp hn
      _ = (p * n / c + n / c + 1 + 1) * c := by ring
  simp only [blockLo, hcut] at hstep
  omega

theorem blockLen_of_dvd (hc : 0 < c) (hd : c ∣ n) (p : Nat) : blockLen n c p = n / c := by
  obtain ⟨m, rfl⟩ := hd
  have hlo (p : Nat) : blockLo (c * m) c p = p * m := by
    rw [blockLo, Nat.mul_left_comm, Nat.mul_div_cancel_left _ hc]
  rw [blockLen, hlo, hlo, Nat.succ_mul, Nat.add_sub_cancel_left, Nat.mul_div_cancel_left _ hc]

end

/-- Settles O16: block p is what lies between the cuts p * n / c and (p + 1) * n / c; the uneven cut is the model's choice, log 29. -/
theorem blocksPartitionVector : Obligations.BlocksPartitionVector := by
  intro n c p q hc _ _
  have hp := blockLen_bounds hc n p
  have hq := blockLen_bounds hc n q
  have hlast : blockLo n c c = n := Nat.mul_div_cancel_left n hc
  exact ⟨by simp [blockLo], hlast, blockLo_add_blockLen n c p, fun hd => blockLen_of_dvd hc hd p, by omega,
    (sum_blockLen n c c).trans hlast⟩

/-! INT_STATUS of the two functions (R65): a message to a pair leaves it. -/

@[simp] theorem Fn.setMbx_intStatus (n : Nat) (f : Fn) : (f.setMbx n).intStatus = f.intStatus := by
  unfold Fn.setMbx
  dsimp only
  split <;> simp

/-- INT_STATUS of both functions. -/
def Ctl.intStatuses (c : Ctl) : Nat × Nat := (c.fnA.intStatus, c.fnB.intStatus)

section
variable (c : Ctl) (n : Nat)

theorem Ctl.intStatuses_eq_of_fns {c d : Ctl} (ha : c.fnA = d.fnA) (hb : c.fnB = d.fnB) : c.intStatuses = d.intStatuses := by
  rw [Ctl.intStatuses, Ctl.intStatuses, ha, hb]

theorem Ctl.updFn_setMbx_intStatuses (f : Nat) : (c.updFn f (Fn.setMbx n)).intStatuses = c.intStatuses := by
  unfold Ctl.updFn Ctl.intStatuses
  split <;> simp

theorem Ctl.evtToRing_intStatuses (m : Msg) : (c.evtToRing n m).intStatuses = c.intStatuses := by
  unfold Ctl.evtToRing
  dsimp only
  split
  · rw [Ctl.updFn_setMbx_intStatuses]
    rfl
  · rfl

theorem Ctl.evtWrite_intStatuses (code : Nat) (body : List Byte) : (c.evtWrite n code body).intStatuses = c.intStatuses := by
  unfold Ctl.evtWrite
  dsimp only
  split
  · exact Ctl.intStatuses_eq_of_fns (by simp) (by simp)
  · rw [Ctl.evtToRing_intStatuses]
    rfl

/-- An event sets MBX_STATUS bits alone. -/
theorem Ctl.event_intStatuses (code : Nat) (body : List Byte) (t : To) : (c.event code body t).intStatuses = c.intStatuses := by
  unfold Ctl.event
  refine (foldl_keeps Ctl.intStatuses ?_ _ _).trans ?_
  · rintro d ⟨m, p⟩
    dsimp only
    split
    · split
      · exact Ctl.evtWrite_intStatuses ..
      · rfl
    · rfl
  · exact Ctl.intStatuses_eq_of_fns (by simp) (by simp)

theorem Ctl.event_fnA_intStatus (code : Nat) (body : List Byte) (t : To) :
    (c.event code body t).fnA.intStatus = c.fnA.intStatus := congrArg Prod.fst (c.event_intStatuses code body t)

theorem Ctl.event_fnB_intStatus (code : Nat) (body : List Byte) (t : To) :
    (c.event code body t).fnB.intStatus = c.fnB.intStatus := congrArg Prod.snd (c.event_intStatuses code body t)

end

/-! Readiness entries under a change (R563, R564). -/

section
variable (c : Ctl) (i : Nat)

@[simp] theorem Ctl.entry_setEntry (e : Entry) : (c.setEntry i e).entry i = e := by simp [Ctl.entry, Ctl.setEntry]

theorem Ctl.entry_setEntry_other {j : Nat} (h : j ≠ i) (e : Entry) : (c.setEntry i e).entry j = c.entry j :=
  Tab.getD_set_other _ _ _ h

@[simp] theorem Ctl.entry_intBoth (b : Nat) : (c.intBoth b).entry i = c.entry i := rfl

@[simp] theorem Ctl.entry_event (code : Nat) (body : List Byte) (t : To) : (c.event code body t).entry i = c.entry i := by
  simp [Ctl.entry]

variable {c i}

theorem Ctl.shown_of_unsealed (h : (c.entry i).sealed = 0) : c.shown i = ((c.entry i).st, (c.entry i).reason) := by
  simp [Ctl.shown, h]

theorem Ctl.shown_of_sealed (h : (c.entry i).sealed ≠ 0) : c.shown i = (5, (c.entry i).sealed) := by
  simp [Ctl.shown, h]

end

section
variable {c : Ctl} {i : Nat} {old new : Nat × Nat}

/-- A change of the shown STATE counts. -/
theorem Ctl.changed_entry_of_state (h : old.1 ≠ new.1) : (c.changed i old new).entry i = { c.entry i with count := inc8 (c.entry i).count } := by
  have hne : old ≠ new := fun he => h (congrArg Prod.fst he)
  simp [Ctl.changed, h, hne]

/-- A change of the shown STATE sets READINESS in both functions. -/
theorem Ctl.changed_intStatus_of_state (h : old.1 ≠ new.1) :
    (c.changed i old new).fnA.intStatus.testBit 0 = true ∧ (c.changed i old new).fnB.intStatus.testBit 0 = true := by
  have hne : old ≠ new := fun he => h (congrArg Prod.fst he)
  simp [Ctl.changed, h, hne, Ctl.event_fnA_intStatus, Ctl.event_fnB_intStatus, Ctl.intBoth, Fn.setInt_reg]

/-- Without a change of the shown STATE no entry changes. -/
theorem Ctl.changed_entry_of_same (h : old.1 = new.1) (j : Nat) : (c.changed i old new).entry j = c.entry j := by
  unfold Ctl.changed
  split <;> simp [h]

theorem Ctl.changed_entry_other {j : Nat} (h : j ≠ i) : (c.changed i old new).entry j = c.entry j := by
  by_cases hs : old.1 = new.1
  · exact Ctl.changed_entry_of_same hs j
  · have hne : old ≠ new := fun he => hs (congrArg Prod.fst he)
    simp [Ctl.changed, hs, hne, Ctl.entry_setEntry_other _ _ h]

/-- What a change sends leaves every entry's state, reason and seal. -/
theorem Ctl.changed_entry_shows : ((c.changed i old new).entry i).st = (c.entry i).st ∧
    ((c.changed i old new).entry i).reason = (c.entry i).reason ∧ ((c.changed i old new).entry i).sealed = (c.entry i).sealed := by
  by_cases hs : old.1 = new.1
  · simp [Ctl.changed_entry_of_same hs]
  · simp [Ctl.changed_entry_of_state hs]

end

/-- Settles O9: `Ctl.postNow` sets the entry and then sends what `Ctl.changed` makes of the shown values before and after. -/
theorem entryChanges : Obligations.EntryChanges := by
  intro c i st reason e d
  let set := c.setEntry i { e with st, reason }
  have hset : set.entry i = { e with st, reason } := Ctl.entry_setEntry ..
  obtain ⟨hst, hreason, hsealed⟩ : (d.entry i).st = st ∧ (d.entry i).reason = reason ∧ (d.entry i).sealed = e.sealed := by
    have hd := Ctl.changed_entry_shows (c := set) (i := i) (old := c.shown i) (new := set.shown i)
    rwa [hset] at hd
  refine ⟨⟨hst, hreason⟩, fun hopen hne => ?counts, fun hopen heq => ?same, fun hseal => ?sealed, fun j hj => ?other⟩
  case counts =>
    have hshown : (c.shown i).1 ≠ (set.shown i).1 := by
      rw [Ctl.shown_of_unsealed hopen, Ctl.shown_of_unsealed (by rw [hset]; exact hopen), hset]
      exact hne
    obtain ⟨hA, hB⟩ := Ctl.changed_intStatus_of_state (c := set) (i := i) hshown
    refine ⟨?_, hA, hB, ?_⟩
    · rw [show d.entry i = _ from Ctl.changed_entry_of_state hshown, hset]
      rfl
    · rw [Ctl.shown_of_unsealed (hsealed.trans hopen), hst, hreason]
  case same =>
    have hshown : (c.shown i).1 = (set.shown i).1 := by
      rw [Ctl.shown_of_unsealed hopen, Ctl.shown_of_unsealed (by rw [hset]; exact hopen), hset]
      exact heq
    rw [show d.entry i = _ from Ctl.changed_entry_of_same hshown i, hset]
  case sealed =>
    have hshown : c.shown i = set.shown i := by
      rw [Ctl.shown_of_sealed hseal, Ctl.shown_of_sealed (by rw [hset]; exact hseal), hset]
    constructor
    · rw [Ctl.shown_of_sealed (by rwa [hsealed]), hsealed]
    · rw [show d.entry i = _ from Ctl.changed_entry_of_same (congrArg Prod.fst hshown) i, hset]
  case other => exact (Ctl.changed_entry_other hj).trans (Ctl.entry_setEntry_other _ _ hj _)

end Sys2Proof.Machine
end

section
/-! SUPPORT. The commands that read the system and the host's ports, the management bus, and the sealed Tally. -/

namespace Sys2Proof.Machine

/-- Settles O17: each command answers from the state that it finds and writes nothing. The layout of JOB_STATUS, one byte a tile behind
the bitmap, is the model's reading (log 7), the order and the truncation of lists its choice (log 27). -/
theorem systemReadsAnswer : Obligations.SystemReadsAnswer := by
  intro s h first count job j
  refine ⟨reads_of_ok rfl rfl, reads_of_ok rfl rfl, reads_of_ok rfl rfl, reads_of_ok rfl rfl, fun hj ho => ?job⟩
  case job => exact reads_of_ok rfl (by simp [hj, ho])

/-- Settles O21: each command answers from the state that it finds and writes nothing. -/
theorem hostReadsAnswer : Obligations.HostReadsAnswer := fun _ _ _ =>
  ⟨reads_of_ok rfl rfl, reads_of_ok rfl rfl, reads_of_ok rfl rfl, reads_of_ok rfl rfl⟩

/-! The management bus (R639, Table 23-6). -/

theorem length_leBytes (n x : Nat) : (leBytes n x).length = n := by
  induction n generalizing x with
  | zero => rfl
  | succ n ih => simp [leBytes, ih]

theorem length_smbusRecord : smbusRecord.length = 256 := by
  have hname : (asciiBytes "TK90-M640-OA    ").length = 16 := by decide
  simp only [smbusRecord, smbusBody, List.length_append, List.length_replicate, List.length_singleton, length_leBytes, hname]

/-- The byte behind a list that `checkByte` gives brings its sum to 0. -/
theorem sum_checkByte (l : List Byte) : (l ++ [checkByte l]).foldl (· + ·) 0 = 0 := by
  rw [List.foldl_append, checkByte]
  simp

/-- An event of the standby island acts while there is standby power. -/
theorem acts_of_standbyRow {s : State} {i : Instr} {ok : Bool} {f : W → W} (hs : s.ctl.power.standby = true)
    (he : exec i s = standbyRow ok s f) (hok : ok = true) : Acts s i f :=
  acts_of_world_eq he hok (if_pos hs)

/-- Settles O54: both rows are events of the standby island, and the record's last byte is the check of the others. That a read leaves
the offset is the model's reading (log 30). -/
theorem managementBus : Obligations.ManagementBus := fun _ _ _ _ hs =>
  ⟨acts_of_standbyRow hs rfl rfl, acts_of_standbyRow hs rfl rfl, length_smbusRecord, sum_checkByte smbusBody⟩

/-! The rows of the Tally (R571, R610). -/

section
variable {s : State} {i : Instr} {ok : Bool} {f g : Tally → Tally}

theorem meters_of_tallyRow (he : exec i s = tallyRow ok s f) (hok : ok = true) (hf : f s.tally = g s.tally) : Meters s i g := by
  rw [Meters, he, tallyRow, hok, hf]
  rfl

theorem meters_of_poweredRow (hp : s.tally.powered = true) (he : exec i s = poweredRow ok s f) (hok : ok = true)
    (hf : f s.tally = g s.tally) : Meters s i g :=
  meters_of_tallyRow he hok ((if_pos hp).trans hf)

end

theorem tallyRows : Clause.TallyRows := by
  intro s frame nonce kind arg mV mA mReturn temp checks
  refine ⟨fun hp => ?powered, fun hp => ?powerUp, fun hp => ?breach, fun hp => ?breachOff⟩
  case powered =>
    have row {i : Instr} {ok : Bool} {f : Tally → Tally} (he : exec i s = poweredRow ok s f) (hok : ok = true) : Meters s i f :=
      meters_of_poweredRow hp he hok rfl
    refine ⟨row rfl rfl, row rfl rfl, fun hlo hhi => ?readout, row rfl rfl, fun hage => ?pulse, row rfl rfl, row rfl rfl, row rfl rfl⟩
    case readout => exact row rfl (by simp [hlo, hhi])
    case pulse =>
      exact meters_of_poweredRow (f := fun t => if 19000 ≤ t.pulseAge then { t with pulseOn := false, pulseAge := 0 } else t) hp rfl rfl
        (if_pos hage)
  case powerUp =>
    exact meters_of_tallyRow (f := fun t => if t.powered then t else t.powerUp checks) rfl rfl (by simp [hp])
  case breach => exact meters_of_tallyRow (f := Tally.meshBreach) rfl rfl (by simp [Tally.meshBreach, hp])
  case breachOff => exact meters_of_tallyRow (f := Tally.meshBreach) rfl rfl (by simp [Tally.meshBreach, hp])

/-- The Tally's commands (Table 22-7). -/
theorem tallyCommands : Clause.TallyCommands := by
  intro s h rid kind arg offset len nonce reading
  refine ⟨reads_of_ok rfl rfl, reads_of_ok rfl rfl, fun hwho hp => ?read, fun hf => ?fetch⟩
  case read =>
    refine lands_of_ok rfl ?_
    rcases hwho with hrole | ⟨rfl, y, hy, hown⟩
    · simp [hrole, hp]
    · simp [hy, hown, hp]
  case fetch =>
    have he : exec (.tallyReadingFetch h rid offset len) s = mbxRow { op := 0x0903, roles := [0, 1, 3], lock := true, gesso := true } h
        (Arg.num 4 true :: pieceArgs s.ctl h.pair reading.length offset len 56) [] s
        fun _ w => .ok (encode [.raw 1 (bytesAt reading offset len)]) w := by
      change execTallyReadingFetch h rid offset len s = _
      simp [execTallyReadingFetch, hf]
    exact reads_of_ok he rfl

/-- Settles O56: a row of the Tally changes it by its function and lets the RC follow its entry, and the commands answer from it. The
seal's cause 1 for the mesh and the rules of frames (log 62) and the codes of TALLY_STATUS and TALLY_READ (log 63) are the model's choices. -/
theorem tallyInputsAndCommands : Obligations.TallyInputsAndCommands := ⟨tallyRows, tallyCommands⟩

end Sys2Proof.Machine
end

section
/-! SUPPORT. The levels of an alarm, the current-limit step, and the Tally's counters and checks. -/

namespace Sys2Proof.Machine

/-! Alarms (R602, R603, R606). -/

/-- Settles O52: `W.raise` records the alarm and then branches on its level and on what stands already. -/
theorem alarmLevels : Obligations.AlarmLevels := by
  intro w src detail
  refine ⟨?a1, fun hg ha2 => ?a2, fun hg => ?a3, fun hg level => ?after, fun level => ?log, fun level f hf => ?interrupt⟩
  case a1 => simp [W.raise]
  case a2 => simp [W.raise, hg, ha2]
  case a3 => simp [W.raise, hg]
  case after => simp [W.raise, hg]
  case log => simp [W.on, Ctl.alarm, Ctl.intBoth, Ctl.onAlarms]
  case interrupt =>
    have hset (g : Fn) : bit (g.setInt 2).intStatus 2 = true := by
      rw [(g.setInt_reg 2).1, bit, Nat.testBit_or, Nat.testBit_two_pow_self, Bool.or_true]
    unfold Ctl.fn
    split
    · exact (congrArg (bit · 2) (Ctl.event_fnA_intStatus ..)).trans (hset _)
    · exact (congrArg (bit · 2) (Ctl.event_fnB_intStatus ..)).trans (hset _)

/-! The current-limit step (R582, Table 20-3). -/

section
variable (p : Power)

/-- A junction of the channels lo to hi is above t. -/
def Power.Hot (p : Power) (lo hi : Nat) (t : Int) : Prop := ∃ k v, lo ≤ k ∧ k ≤ hi ∧ junction p k = some v ∧ t < v

theorem anyAbove_iff_hot {l : List Nat} {lo hi : Nat} (hl : ∀ k, k ∈ l ↔ lo ≤ k ∧ k ≤ hi) (t : Int) :
    anyAbove p l t = true ↔ p.Hot lo hi t := by
  simp [anyAbove, Power.Hot, hl, Option.any_eq_true, and_assoc]

/-- One of D1 to D6 of Table 20-3. -/
def Power.Down (p : Power) (power foldback : Nat) : Prop :=
  2400 < power ∨ p.Hot 0 7 999 ∨ p.Hot 8 9 999 ∨ ((∃ v, p.readings.get? 53 = some v ∧ 450 < v) ∨ p.coolantLow = true) ∨
    200 < foldback ∨ p.step < p.cap

theorem b2n_eq_zero {b : Bool} : b2n b = 0 ↔ b = false := by cases b <;> simp [b2n]

theorem downConditions_ne_zero (power foldback : Nat) : downConditions p power foldback ≠ 0 ↔ p.Down power foldback := by
  have hinlet : (p.readings.get? 53).any (fun v => decide (450 < v)) = true ↔ ∃ v, p.readings.get? 53 = some v ∧ 450 < v := by
    simp [Option.any_eq_true]
  rw [ne_eq, not_iff_comm, Power.Down, ← anyAbove_iff_hot p (l := List.range 8) (by simp; omega),
    ← anyAbove_iff_hot p (l := [8, 9]) (by simp; omega), ← hinlet]
  simp only [downConditions, Nat.add_eq_zero_iff, Nat.mul_eq_zero, b2n_eq_zero, not_or, Bool.or_eq_false_iff, decide_eq_false_iff_not,
    Bool.not_eq_true]
  tauto

theorem quietRound_iff (power : Nat) : quietRound p 0 power = true ↔
    power ≤ 2300 ∧ ¬ p.Hot 0 9 950 ∧ ∃ v, p.readings.get? 53 = some v ∧ v ≤ 450 := by
  rw [← anyAbove_iff_hot p (l := List.range 10) (by simp; omega)]
  simp [quietRound, Option.any_eq_true, and_assoc]

/-- The conditions of a quiet round. -/
def Power.Quiet (p : Power) (power foldback : Nat) : Prop :=
  ¬ p.Down power foldback ∧ power ≤ 2300 ∧ ¬ p.Hot 0 9 950 ∧ ∃ v, p.readings.get? 53 = some v ∧ v ≤ 450

end

section
variable {p : Power} {power foldback : Nat}

theorem stepRound_of_down (hstep : p.step ≤ 15) (h : p.Down power foldback) :
    (stepRound power foldback p).step = min 15 (p.step + 1) ∧ (stepRound power foldback p).quiet = 0 := by
  have hd : (downConditions p power foldback != 0) = true := bne_iff_ne.mpr ((downConditions_ne_zero p _ _).mpr h)
  simp only [stepRound, hd, if_true]
  split
  · exact ⟨by dsimp only; omega, rfl⟩
  · exact ⟨by dsimp only; omega, rfl⟩

/-- Without a condition to step down the quiet conditions decide. -/
theorem stepRound_of_not_down (h : ¬ p.Down power foldback) : stepRound power foldback p =
    let p := { p with downCause := 0 }
    if quietRound p 0 power then
      if p.quiet + 1 < 4 then { p with quiet := p.quiet + 1 }
      else if p.step = p.cap then { p with quiet := 0 }
      else { p with step := p.step - 1, stepUps := p.stepUps + 1, quiet := 0 }
    else { p with quiet := 0 } := by
  have hd : downConditions p power foldback = 0 := not_not.mp (mt (downConditions_ne_zero p _ _).mp h)
  simp [stepRound, hd]

theorem quietRound_of_quiet (h : p.Quiet power foldback) : quietRound { p with downCause := 0 } 0 power = true :=
  (quietRound_iff p power).mpr h.2

theorem quietRound_of_not_quiet (hd : ¬ p.Down power foldback) (h : ¬ p.Quiet power foldback) :
    quietRound { p with downCause := 0 } 0 power = false :=
  Bool.eq_false_iff.mpr fun hq => h ⟨hd, (quietRound_iff p power).mp hq⟩

/-- Nothing else that a step depends on changes. -/
theorem stepRound_keeps (power foldback : Nat) (p : Power) :
    let q := stepRound power foldback p
    q.cap = p.cap ∧ q.vcoreSet = p.vcoreSet ∧ q.rails = p.rails ∧ q.readings = p.readings := by
  dsimp only [stepRound]
  repeat' split
  all_goals exact ⟨rfl, rfl, rfl, rfl⟩

theorem stepRound_step_le (hstep : p.step ≤ 15) : (stepRound power foldback p).step ≤ 15 := by
  dsimp only [stepRound]
  repeat' split
  all_goals
    dsimp only
    omega

end

/-- Settles O50: the branches of `stepRound` are the conditions of Table 20-3. That a round without an inlet reading is not quiet is the
model's choice (log 28). -/
theorem powerStep : Obligations.PowerStep := by
  intro p power foldback hstep q hot down quiet
  refine ⟨fun hd => stepRound_of_down hstep hd, fun hq hfew => ?counts, fun hq hfour => ?rises, fun hd hq => ?restless,
    stepRound_step_le hstep, stepRound_keeps power foldback p⟩
  case counts =>
    have hfew : p.quiet + 1 < 4 := by omega
    simp [q, stepRound_of_not_down hq.1, quietRound_of_quiet hq, hfew]
  case rises =>
    have hfour : ¬ p.quiet + 1 < 4 := by omega
    by_cases hcap : p.step = p.cap <;> simp [q, stepRound_of_not_down hq.1, quietRound_of_quiet hq, hfour, hcap]
  case restless => simp [q, stepRound_of_not_down hd, quietRound_of_not_quiet hd hq]

end Sys2Proof.Machine
end

section
/-! SUPPORT. The Tally's counters, and the order of its checks. -/

namespace Sys2Proof.Machine

/-! Counters (R616). -/

section
variable (n : Nat) (c : TCount)

@[simp] theorem TCount.total_add : (c.add n).total = c.total + n := by simp [TCount.add, TCount.total, Nat.add_assoc]
@[simp] theorem TCount.total_commit : c.commit.total = c.total := rfl
@[simp] theorem TCount.pending_commit : c.commit.pending = 0 := rfl
@[simp] theorem TCount.committed_commit : c.commit.committed = c.total := rfl

end

section
variable (t : Tally)

/-- A log entry leaves every counter but that of the entries dropped (R623). -/
theorem Tally.note_keeps (kind detail : Nat) :
    let u := t.note kind detail
    (u.energy = t.energy ∧ u.frac = t.frac ∧ u.pulses = t.pulses) ∧
    (u.accepted = t.accepted ∧ u.decode = t.decode ∧ u.prefill = t.prefill ∧ u.refused = t.refused ∧ u.contracts = t.contracts) := by
  dsimp only [Tally.note]
  repeat' split
  all_goals exact ⟨⟨rfl, rfl, rfl⟩, rfl, rfl, rfl, rfl, rfl⟩

theorem Tally.seal_meter (src : Nat) :
    (t.seal_ src).energy = t.energy ∧ (t.seal_ src).frac = t.frac ∧ (t.seal_ src).pulses = t.pulses := by
  unfold Tally.seal_
  split
  · exact ⟨rfl, rfl, rfl⟩
  · exact (Tally.note_keeps { t with sealAlarm := true } 9 src).1

/-! The meter (R611 to R614). A sample first meters, then compares the two currents; `Tally.sample_eq` ties the two parts to the model. -/

/-- Energy in hand below the millijoule after a sample: voltage times current counts at or above 20 mA. -/
def Tally.inHand (mV mA : Nat) (t : Tally) : Nat := t.frac + if 20 ≤ mA then mV * mA else 0

/-- The metering of a sample: time, energy and pulses. -/
def Tally.meter (mV mA : Nat) (t : Tally) : Tally :=
  let usec := t.usec + 1
  let energy := t.energy.add (t.inHand mV mA / 1000000000)
  let n := energy.total / 360000 - t.energy.total / 360000
  let u := { t with
    usec := usec % 1000, tMs := t.tMs + usec / 1000, pulseAge := if t.pulseOn then t.pulseAge + 1 else t.pulseAge
    frac := t.inHand mV mA % 1000000000, energy }
  if n = 0 then u else { u with pulses := t.pulses.add n, pulseOn := true, pulseAge := 0 }

/-- The comparison of the two currents (R628). -/
def Tally.compare (mA mReturn : Nat) (t : Tally) : Tally :=
  let gap := if mA ≤ mReturn then mReturn - mA else mA - mReturn
  let apart := if 10000 < mA && mA < 20 * gap then t.apart + 1 else 0
  if apart = 10000000 then { t with apart := 0 }.seal_ 2 else { t with apart }

theorem Tally.sample_eq (mV mA mReturn : Nat) : t.sample mV mA mReturn = (t.meter mV mA).compare mA mReturn := rfl

theorem Tally.compare_meter (mA mReturn : Nat) : (t.compare mA mReturn).energy = t.energy ∧ (t.compare mA mReturn).frac = t.frac ∧
    (t.compare mA mReturn).pulses = t.pulses := by
  unfold Tally.compare
  dsimp only
  generalize (if (10000 < mA && _ : Bool) = true then _ else _ : Nat) = apart
  split
  · exact Tally.seal_meter { t with apart := 0 } 2
  · exact ⟨rfl, rfl, rfl⟩

theorem Tally.meter_energy (mV mA : Nat) : (t.meter mV mA).energy = t.energy.add (t.inHand mV mA / 1000000000) := by
  unfold Tally.meter
  dsimp only
  split <;> rfl

theorem Tally.meter_frac (mV mA : Nat) : (t.meter mV mA).frac = t.inHand mV mA % 1000000000 := by
  unfold Tally.meter
  dsimp only
  split <;> rfl

/-- A pulse for every 0.1 Wh that the energy passes. -/
theorem Tally.meter_pulses (mV mA : Nat) : (t.meter mV mA).pulses.total =
    t.pulses.total + ((t.meter mV mA).energy.total / 360000 - t.energy.total / 360000) := by
  rw [Tally.meter_energy]
  unfold Tally.meter
  dsimp only
  split
  next hn => simp only [hn, Nat.add_zero]
  next => rw [TCount.total_add]

/-! Records (R619). -/

/-- An accepted record of a contract that the Tally has seen. -/
theorem Tally.accept_counts (rec_ : List Byte) :
    (t.accept rec_).accepted = t.accepted.add 1 ∧ (t.accept rec_).decode = t.decode.add (fieldAt rec_ 8 8) ∧
    (t.accept rec_).prefill = t.prefill.add (fieldAt rec_ 16 8) := by
  unfold Tally.accept
  dsimp only
  repeat' split
  all_goals simp only [Tally.note_keeps, and_self]

theorem Tally.accept_contract {rec_ : List Byte} {k : TContract} (hk : t.contracts.get? (fieldAt rec_ 0 4) = some k) :
    (t.accept rec_).contracts.get? (fieldAt rec_ 0 4) = some { k with
      closed := fieldAt rec_ 40 1 = 2, next := fieldAt rec_ 4 4 + 1
      decode := k.decode.add (fieldAt rec_ 8 8), prefill := k.prefill.add (fieldAt rec_ 16 8) } := by
  have hold (d : TContract) : t.contracts.getD (fieldAt rec_ 0 4) d = k := by simp [Tab.getD, hk]
  unfold Tally.accept
  dsimp only
  repeat' split
  all_goals simp only [Tally.note_keeps, hold, Tab.get?_set_same]

/-- A refusal adds to no counter but its code's. -/
theorem Tally.refuse_counts (code : Nat) :
    (t.refuse code).accepted = t.accepted ∧ (t.refuse code).decode = t.decode ∧ (t.refuse code).prefill = t.prefill ∧
    (t.refuse code).contracts = t.contracts ∧ (t.refuse code).refused = Tab.upd code {} (TCount.add 1) t.refused := by
  unfold Tally.refuse
  dsimp only
  split
  · simp only [Tally.note_keeps, and_self]
  · simp only [and_self]

/-! The commit (R616). -/

/-- A commit, which writes nothing while writes are inhibited, keeps every total. -/
theorem Tally.commit_totals : t.commit.energy.total = t.energy.total ∧ t.commit.pulses.total = t.pulses.total ∧
    t.commit.accepted.total = t.accepted.total ∧ t.commit.decode.total = t.decode.total ∧ t.commit.prefill.total = t.prefill.total := by
  unfold Tally.commit
  split
  · exact ⟨rfl, rfl, rfl, rfl, rfl⟩
  · exact ⟨rfl, rfl, rfl, rfl, rfl⟩

theorem Tally.commit_energy (h : t.inhibit = false) : t.commit.energy = t.energy.commit := by
  simp [Tally.commit, h, Tally.mapCounts]

end

/-! The checks of a record (Table 22-4). -/

section
variable {t : Tally} {body key : List Byte}

/-- The fields of a record are in range. -/
def recordFieldsOk (r : List Byte) : Prop :=
  bytesAt r 41 3 = List.replicate 3 0 ∧ bytesAt r 48 16 = List.replicate 16 0 ∧ fieldAt r 40 1 ≤ 4 ∧ fieldAt r 8 8 ≤ 2 ^ 24

theorem fieldsBad_iff (r : List Byte) : (false || bytesAt r 41 3 != List.replicate 3 0 || bytesAt r 48 16 != List.replicate 16 0
    || decide (4 < fieldAt r 40 1) || decide (2 ^ 24 < fieldAt r 8 8)) = true ↔ ¬ recordFieldsOk r := by
  simp only [recordFieldsOk, Bool.false_or, Bool.or_eq_true, bne_iff_ne, decide_eq_true_eq, not_and_or, not_le, or_assoc,
    ne_eq]

/-- While the seal alarm stands no record is judged against its contract. -/
theorem Tally.recordCheck_le_five {code : Nat} (hs : t.sealAlarm = true) (h : t.recordCheck true body = some code) : code ≤ 5 := by
  simp only [Tally.recordCheck, hs, if_true] at h
  split at h
  · cases h
    decide
  · repeat' split at h
    all_goals
      cases h
      decide

section
variable (hk : t.enrolled = some key) (hself : t.selfTestFail = false) (hhome : t.foreign = false)
  (hv : Config.mldsaVerify key (sha3 (body.take 128)) (body.drop 128) = true)
include hk hself hhome hv

/-! What a Tally with a key, in order and at home, makes of a record whose signature verifies. -/

theorem Tally.recordCheck_of_fieldsBad (hbad : ¬ recordFieldsOk (body.take 128)) : t.recordCheck true body = some 4 := by
  simp only [Tally.recordCheck, hk, hself, hhome, hv, (fieldsBad_iff _).mpr hbad, Bool.or_self, Bool.not_true, if_true]
  rfl

variable (hok : recordFieldsOk (body.take 128))
include hok

theorem Tally.recordCheck_of_sealed (hs : t.sealAlarm = true) : t.recordCheck true body = some 5 := by
  have hgood := Bool.eq_false_iff.mpr (mt (fieldsBad_iff _).mp (not_not.mpr hok))
  simp only [Tally.recordCheck, hk, hself, hhome, hv, hgood, hs, Bool.or_self, Bool.not_true, if_true]
  rfl

theorem Tally.recordCheck_of_contract {k : TContract} (hs : t.sealAlarm = false)
    (hc : t.contracts.get? (fieldAt (body.take 128) 0 4) = some k) : t.recordCheck true body =
      if k.closed then some 6 else if fieldAt (body.take 128) 4 4 < k.next then some 7
      else if k.next < fieldAt (body.take 128) 4 4 then some 8 else none := by
  have hgood := Bool.eq_false_iff.mpr (mt (fieldsBad_iff _).mp (not_not.mpr hok))
  simp only [Tally.recordCheck, hk, hself, hhome, hv, hgood, hs, hc, Bool.or_self, Bool.not_true, Bool.false_eq_true, if_false]

end

end

/-- Settles O57: the meter adds the sample's product exactly, a record's acceptance and refusal each change the counters they name, and a
commit moves what is pending. -/
theorem tallyAccumulates : Obligations.TallyAccumulates := by
  intro t mV mA mReturn code cid body rec_ k fits
  obtain ⟨henergy, hfrac, hpulses⟩ := (t.meter mV mA).compare_meter mA mReturn
  rw [← t.sample_eq] at henergy hfrac hpulses
  rw [t.meter_energy] at henergy
  rw [t.meter_frac] at hfrac
  refine ⟨fun hmA => ?adds, fun hmA hlt => ?starts, ?pulses, fun hcid hk => ?accepts, fun hcode hs => ?sealed, ?refuses, ?commits, fun hi => ?written⟩
  case adds =>
    rw [henergy, hfrac, TCount.total_add, Tally.inHand, if_pos hmA]
    omega
  case starts =>
    rw [henergy, TCount.total_add, Tally.inHand, if_neg (by omega), Nat.add_zero, Nat.div_eq_of_lt hlt, Nat.add_zero]
  case pulses => rw [hpulses, t.meter_pulses, t.meter_energy, henergy]
  case accepts =>
    subst hcid
    obtain ⟨hacc, hdec, hpre⟩ := t.accept_counts rec_
    refine ⟨?_, ?_, ?_, _, t.accept_contract hk, rfl, rfl, TCount.total_add .., TCount.total_add ..⟩
    · rw [hacc, TCount.total_add]
    · rw [hdec, TCount.total_add]
    · rw [hpre, TCount.total_add]
  case sealed =>
    have hle := Tally.recordCheck_le_five hs hcode
    omega
  case refuses =>
    obtain ⟨hacc, hdec, hpre, hcon, href⟩ := t.refuse_counts code
    exact ⟨hacc, hdec, hpre, hcon, by rw [href, Tab.getD_upd_same, TCount.total_add]⟩
  case commits => exact ⟨t.commit_totals.1.ge, t.commit_totals⟩
  case written => rw [t.commit_energy hi]; exact ⟨rfl, rfl⟩

/-- Settles O58: the checks of `Tally.recordCheck` stand in the order of Table 22-4; the code of a Tally bound to another module is the
model's reading (log 62). -/
theorem tallyChecksOrder : Obligations.TallyChecksOrder := by
  intro t body key k r seq good
  refine ⟨fun hk => ?noKey, fun hk hforeign => ?foreign, fun hk hself hhome => ⟨fun hv => ?unsigned, fun hv => ⟨fun hbad => ?fields,
    fun hok hs => ?sealed, fun hok hs hc => ?contract⟩⟩⟩
  case noKey => simp [Tally.recordCheck, hk]
  case foreign => simp [Tally.recordCheck, hk, hforeign]
  case unsigned => simp [Tally.recordCheck, hk, hself, hhome, show Config.mldsaVerify key (sha3 (body.take 128)) (body.drop 128) = false from hv]
  case fields => exact Tally.recordCheck_of_fieldsBad hk hself hhome hv hbad
  case sealed => exact Tally.recordCheck_of_sealed hk hself hhome hv hok hs
  case contract =>
    rw [Tally.recordCheck_of_contract hk hself hhome hv hok hs hc]
    refine ⟨fun hclosed => ?_, fun hopen hlt => ?_, fun hopen hlt => ?_, fun hopen heq => ?_⟩
    · simp [hclosed]
    · rw [if_neg (by simp [hopen]), if_pos hlt]
    · rw [if_neg (by simp [hopen]), if_neg (Nat.not_lt.mpr hlt.le), if_pos hlt]
    · rw [if_neg (by simp [hopen]), if_neg heq.not_lt, if_neg heq.not_gt]

end Sys2Proof.Machine
end

section
/-! SUPPORT. The mailbox commands of sessions, credentials and jobs, and the doorbells of a pair. -/

namespace Sys2Proof.Machine

/-! How a row that succeeds lands. -/

section
variable {s : State} {i : Instr} {k : Cmd} {h : Hdr} {args : List Arg} {refs : List Ref} {f : Ctx → W → Res} {body : List Byte}

/-- A mailbox command that changes the controllers by g, from which nothing follows, and answers. -/
theorem does_of_ok {g : Ctl → Ctl} (he : exec i s = mbxRow k h args refs s f)
    (hf : f (s.ctl.ctxOf h.pair) (s.taken k h) = .ok body ((s.taken k h).on g))
    (hc : s.ctl.calm (g (s.ctl.consume k h)) = true) : Does s k h args refs i g body :=
  fun ha => he.trans (mbxRow_done ha hf (by simpa [Ctl.calm] using hc))

/-- A mailbox command that answers and then has an effect on the controllers. -/
theorem lands_of_okThen {eff : W → W} {g : Ctl → Ctl} (he : exec i s = mbxRow k h args refs s f)
    (hf : f (s.ctl.ctxOf h.pair) (s.taken k h) = .okThen body (eff (s.taken k h)) g) : Lands s k h args refs i eff body (W.on g) :=
  fun ha => he.trans (mbxRow_okThen ha hf)

end

/-! The life of a session (R509, R515 to R519, R541). -/

theorem versionAndChallenge : Clause.VersionAndChallenge := by
  intro s h a b c d
  refine ⟨fun hst hlow hhigh => ?version, fun hst => ?challenge⟩
  case version =>
    refine does_of_ok rfl ?_ (Ctl.calm_of_eq (by simp) (by simp) (by simp) (by simp) (by simp) (by simp))
    rcases hlow with hlow | ⟨rfl, rfl⟩
    · simp [hst, hlow, hhigh, W.on, Ctl.updPair]
    · simp [hst, hhigh, W.on, Ctl.updPair]
  case challenge =>
    refine does_of_ok rfl ?_ (Ctl.calm_of_eq (by simp) (by simp) (by simp) (by simp) (by simp) (by simp))
    simp only [State.taken_c, Ctl.consume_pair_st, hst]
    rfl

section
variable {c : Ctl} {n wire cred role m due : Nat} {nonceC proof : List Byte} {k : Cred}
  (hm : (c.pair n).challenge = some (m, due)) (hk : c.rc.creds.get? cred = some k)
  (hstop : ¬ c.tick < (c.rc.credFails.getD cred (0, 0)).2)
include hm hk

/-- What an open must show while its challenge lives (R519). -/
theorem Ctl.openOk_iff (hdue : c.tick < due) : c.openOk n wire cred role nonceC proof = true ↔
    k.role = role ∧ bit k.access (if (c.pair n).remote.isSome then 2 else (c.pair n).fn) = true ∧
      proof = sessionProof k.key m nonceC wire cred role "OLM" := by
  simp [Ctl.openOk, hm, hk, hdue, and_assoc]

include hstop

/-- An open that shows it gets the next session number. -/
theorem Ctl.tryOpen_of_openOk (ho : c.openOk n wire cred role nonceC proof = true) : c.tryOpen n wire cred role nonceC proof =
    (some (encode [.n 4 c.rc.nextSession, .raw 8 (sessionProof k.key m nonceC wire cred role "OLK")]),
      (((c.updPair n fun p => { p with challenge := none }).onRc fun r => { r with
        credFails := Tab.del cred r.credFails }).openSession n cred role k.jobs).2) := by
  simp [Ctl.tryOpen, hm, hk, hstop, ho, Ctl.openSession]

omit hm hk in
/-- An open that does not uses its challenge up and counts against its credential. -/
theorem Ctl.tryOpen_of_not_openOk (ho : c.openOk n wire cred role nonceC proof = false) : c.tryOpen n wire cred role nonceC proof =
    (none, (c.updPair n fun p => { p with challenge := none }).openFailed cred) := by
  simp [Ctl.tryOpen, hstop, ho]

end

theorem sessionOpens : Clause.SessionOpens := by
  intro s h cred role m due nonce proof k hst hm hdue hk hstop
  dsimp only
  let kc : Cmd := { op := 0x0102, any := true, lock := true }
  have hm' : ((s.ctl.consume kc h).pair h.pair).challenge = some (m, due) := by rw [Ctl.consume_pair_challenge, hm]
  have hok := Ctl.openOk_iff (c := s.ctl.consume kc h) (n := h.pair) (wire := h.pair) (role := role) (nonceC := nonce) (proof := proof) hm' hk hdue
  refine ⟨fun hgood => ?opens, fun hbad ha => ?fails⟩
  case opens =>
    have ht := Ctl.tryOpen_of_openOk hm' hk hstop (hok.mpr hgood)
    refine lands_of_okThen rfl ?_
    simp only [State.taken_c, Ctl.consume_pair_st, hst, bne_self_eq_false, Bool.false_eq_true, if_false]
    rw [ht]
    rfl
  case fails =>
    have ht := Ctl.tryOpen_of_not_openOk (c := s.ctl.consume kc h) hstop (Bool.eq_false_iff.mpr (mt hok.mp hbad))
    refine (mbxRow_accepted ha).trans ?_
    simp only [State.taken_c, Ctl.consume_pair_st, hst, bne_self_eq_false, Bool.false_eq_true, if_false]
    rw [ht]
    rfl

theorem sessionEnds : Clause.SessionEnds := by
  intro s h
  refine ⟨fun hstarted => ?close, lands_of_okThen rfl rfl⟩
  case close =>
    have he : exec (.sysSessionClose h) s = mbxRow { op := 0x0103, lock := true } h [] [] s fun _ w =>
      .okThen [] w fun c => if (c.pair h.pair).remote.isSome then c.unbind h.pair else c.endSession h.pair := if_neg (by simp [hstarted])
    exact lands_of_okThen he rfl

/-- Settles O18: each row takes the branch that the premises name. Session numbers that rise by 1 and wrap to 1, and what an open makes
of the failure count, are the model's choices (log 11). -/
theorem sessionCommands : Obligations.SessionCommands := ⟨versionAndChallenge, sessionOpens, sessionEnds⟩

/-! Credentials, the remote mailbox's settings and jobs (R518, R520, R521, R533). -/

/-- A number of a credential is not the wildcard. -/
theorem ne_wildcard_of_credOk {cred : Nat} (h : credOk cred = true) : cred ≠ 0xFFFF := by
  simp only [credOk, Bool.and_eq_true, decide_eq_true_eq] at h
  omega

/-- Settles O19: each row takes the branch that the premises name, and nothing follows from what it changes. The session number that
SYS_OWNER_CLAIM answers (log 11) and the lowest free CRED_ID that it takes are the model's choices. -/
theorem systemWrites : Obligations.SystemWrites := by
  intro s h cred role access n e0 e1 port job key jobs tiles k
  refine ⟨fun hc hnew hrole hlen hjobs => ?create, fun hk hlast => ?revoke, fun hst hremote hnone hfree => ?claim, ?remote,
    fun hnew htiles hlen => ?job⟩
  case create =>
    have hrole : (role != 1 && !jobs.isEmpty) = false := by simpa [or_iff_not_imp_left] using hrole
    have hjobs : (decide (16 < jobs.length) || !(jobs.all fun j => 1 ≤ j && j < 65536)) = false := by simpa [hlen] using hjobs
    have hcred := ne_wildcard_of_credOk hc
    refine does_of_ok rfl ?_ (Ctl.calm_of_eq rfl rfl rfl rfl rfl rfl)
    simp only [hrole, hjobs, State.taken_c, Ctl.consume_rc, hnew, hcred, Bool.and_false, Bool.false_eq_true, if_false]
  case revoke =>
    have hlast : (decide (k.role = 0) && decide ((s.ctl.rc.creds.vals.filter (·.role = 0)).length ≤ 1)) = false := by
      simpa [or_iff_not_imp_left, Nat.lt_iff_add_one_le] using hlast
    refine lands_of_okThen rfl ?_
    simp only [State.taken_c, Ctl.consume_rc, hk, hlast, Bool.false_eq_true, if_false]
  case claim =>
    have hnone : s.ctl.rc.creds.vals.any (fun k => decide (k.role = 0)) = false := by simpa using hnone
    refine does_of_ok rfl ?_ (Ctl.calm_of_eq rfl rfl rfl rfl rfl rfl)
    simp [hst, hremote, hnone, hfree]
    exact ⟨rfl, rfl⟩
  case remote => exact does_of_ok rfl rfl (Ctl.calm_of_eq rfl rfl rfl rfl rfl rfl)
  case job =>
    have htiles : tiles.any (fun t => (s.ctl.jobOfTile t).isSome) = false := by simpa using htiles
    refine does_of_ok rfl ?_ (Ctl.calm_of_eq rfl rfl rfl rfl rfl rfl)
    simp [Ctl.jobLive, hnew, htiles, hlen]

/-! The doorbells of a pair (R510 to R512, R527, R536). -/

theorem Ctl.boundTo_of_bound {c : Ctl} {fn n : Nat} (hn : n < 224) (hst : (c.pair n).st ≠ .unbound) (hfn : (c.pair n).fn = fn) :
    c.boundTo fn n = true := by
  simp [Ctl.boundTo, hn, hst, hfn]

theorem Ctl.calm_updPair (n : Nat) (f : Pair → Pair) (c : Ctl) : c.calm (c.updPair n f) = true := Ctl.calm_of_eq rfl rfl rfl rfl rfl rfl

/-- Settles O20: each row takes the branch that the premises name, and nothing follows from a change of pairs and of what is sent on
them. -/
theorem mailboxDoorbells : Obligations.MailboxDoorbells := by
  intro s fn n addr v k m due b hfn
  refine ⟨fun hn hst hrun haddr hb => ?setup, fun hn hst hbound => ?bound, fun hn hm hdue => ?expire⟩
  case setup =>
    refine moves_of_ret rfl (by simp [hfn]; omega) ?_ (Ctl.calm_of_eq rfl rfl rfl rfl rfl rfl)
    simp [hn, hst, hrun, Ctl.setup, haddr, hb]
  case bound =>
    have hok : (decide (fn < 2) && decide (n < 256)) = true := by simp [hfn]; omega
    have hto := Ctl.boundTo_of_bound hn hst hbound
    refine ⟨fun hahead hroom => ?advances, fun hfull => ?refused, fun hk => ?rsp, fun hk => ?evt⟩
    case advances =>
      refine moves_of_ret rfl hok ?_ (Ctl.calm_updPair n _ s.ctl)
      simp only [Ctl.cmdPi, hto, decide_eq_true hahead, decide_eq_true hroom]
      rfl
    case refused => exact moves_of_ret rfl hok (by simp [Ctl.cmdPi, hto, Nat.not_le.mpr hfull]) (Ctl.calm_updPair n _ s.ctl)
    case rsp =>
      refine moves_of_ret rfl hok (by simp [Ctl.rspCi, hto, hk]) ?_
      exact Ctl.calm_of_eq (by simp) (by simp) (by simp) (by simp) (by simp) (by simp)
    case evt =>
      refine moves_of_ret rfl hok (by simp [Ctl.evtCi, hto, hk]) ?_
      exact Ctl.calm_of_eq (by simp) (by simp) (by simp) (by simp) (by simp) (by simp)
  case expire => exact moves_of_ret rfl (decide_eq_true hn) (by simp [hm, hdue]) (Ctl.calm_updPair n _ s.ctl)

end Sys2Proof.Machine
end

section
/-! SUPPORT. Telemetry reads and the commands of power. -/

namespace Sys2Proof.Machine

theorem telemetryReads : Clause.TelemetryReads := by
  intro s h index hrole
  refine ⟨fun hi => ?tile, fun hi => ?chan, fun hi => ?palette, fun hi => ?fabric, fun hi => ?link⟩
  case tile => exact reads_of_ok rfl (by simp [hrole, hi]; exact ⟨rfl, rfl⟩)
  case chan => exact reads_of_ok rfl (by simp [hrole, hi]; exact ⟨rfl, rfl⟩)
  case palette => exact reads_of_ok rfl (by simp [hrole, hi]; exact ⟨rfl, rfl⟩)
  case fabric => exact reads_of_ok rfl (by simp [hrole, hi]; exact ⟨rfl, rfl⟩)
  case link => exact lands_of_ok rfl (by simp [hrole, hi]; rfl)

theorem powerCommands : Clause.PowerCommands := by
  intro s h vcore cap index
  refine ⟨fun hfloor => ?config, fun hrails hinput htripped hseat => ?rails, fun hoff htraining =>
    ⟨fun hi hfree => ?canvas, fun hi hregions hqueues => ?stack⟩⟩
  case config =>
    have hfloor : (s.ctl.serve.contracts.vals.any fun k => decide (k.a.floorStep < cap)) = false := by simpa using hfloor
    exact lands_of_ok rfl (by simp [hfloor])
  case rails => exact waits_of_wait rfl (by simp [hrails, hinput, htripped, hseat])
  case canvas =>
    have hfree : (s.ctl.jobs.vals.any fun j => j.tiles.any fun t => decide (t / 48 = index - 3)) = false := by simpa using hfree
    exact waits_of_wait rfl (by simp [hoff, htraining, hi, hfree])
  case stack =>
    have hregions : (s.ctl.fabric.regions.vals.any fun r => decide (r.space = 2) && decide (stackOf r.base = index - 7)) = false := by
      simpa using hregions
    exact waits_of_wait rfl (by simp [hoff, htraining, Nat.not_lt.mpr hi, hregions, hqueues])

/-- Settles O48: each command takes the branch of its row that the premises name. -/
theorem telemetryAndPowerCommands : Obligations.TelemetryAndPowerCommands := ⟨telemetryReads, powerCommands⟩

end Sys2Proof.Machine
end

section
/-! SUPPORT. The security commands, and the alarm sources. -/

namespace Sys2Proof.Machine

/-! Folds over a list whose members are known. -/

theorem foldl_keeps_of_mem {α β γ : Type} (g : α → γ) {f : α → β → α} {l : List β} (hf : ∀ a, ∀ b ∈ l, g (f a b) = g a) (a : α) :
    g (l.foldl f a) = g a := by
  induction l generalizing a with
  | nil => rfl
  | cons b t ih =>
    rw [List.foldl_cons, ih fun a c hc => hf a c (List.mem_cons_of_mem b hc), hf a b List.mem_cons_self]

theorem foldl_fixed_of_mem {α β : Type} {f : α → β → α} {l : List β} {a : α} (hf : ∀ b ∈ l, f a b = a) : l.foldl f a = a := by
  induction l with
  | nil => rfl
  | cons b t ih => rw [List.foldl_cons, hf b List.mem_cons_self, ih fun c hc => hf c (List.mem_cons_of_mem b hc)]

/-! The entries that A2 seals (R603, R605). -/

theorem Ctl.entry_sealUp_other {i j : Nat} (h : j ≠ i) (reason : Nat) (c : Ctl) : (c.sealUp i reason).entry j = c.entry j :=
  (Ctl.changed_entry_other h).trans (Ctl.entry_setEntry_other _ _ h _)

/-- The lock's entries are none of the optical ports'. -/
theorem lt_of_mem_lockEntries {i : Nat} (h : i ∈ lockEntries) : i < 20 := by
  revert h i
  decide

/-- Without a change of a port's entry no OPTIC_PORT_STATE is sent (R375). -/
theorem Ctl.notePorts_of_entries_eq {old c : Ctl} (h : ∀ p, c.entry (20 + p) = old.entry (20 + p)) : old.notePorts c = c :=
  foldl_fixed_of_mem fun p _ => if_pos (by rw [Ctl.shown, Ctl.shown, h])

/-- The release of what A2 sealed leaves the ports' entries (R605). -/
theorem Ctl.entry_releaseLocked (c : Ctl) (p : Nat) :
    (lockEntries.foldl (fun c i => if (c.entry i).sealed = 0x15 then c.release i else c) c).entry (20 + p) = c.entry (20 + p) := by
  refine foldl_keeps_of_mem (fun c => c.entry (20 + p)) (fun c i hi => ?_) c
  have hlt := lt_of_mem_lockEntries hi
  split
  · exact Ctl.entry_sealUp_other (by omega) 0 c
  · rfl

theorem Ctl.serve_releaseLocked (c : Ctl) :
    (lockEntries.foldl (fun c i => if (c.entry i).sealed = 0x15 then c.release i else c) c).serve = c.serve :=
  foldl_keeps Ctl.serve (fun c i => by split <;> simp) _ _

/-! The commands (Table 21-7). -/

section
variable {s : State} {i : Instr} {k : Cmd} {h : Hdr} {args : List Arg} {refs : List Ref} {f : Ctx → W → Res} {body : List Byte}

/-- A mailbox command that answers and then has an effect on the module. -/
theorem lands_of_okAfter {eff after : W → W} (he : exec i s = mbxRow k h args refs s f)
    (hf : f (s.ctl.ctxOf h.pair) (s.taken k h) = .okAfter body (eff (s.taken k h)) after) : Lands s k h args refs i eff body after :=
  fun ha => he.trans (mbxRow_okAfter ha hf)

end

theorem securityCommands : Clause.SecurityCommands := by
  intro s h rid kind offset len level limit confirm first count nonce report t
  dsimp only
  refine ⟨?attest, fun hsession hreport => ?report, reads_of_ok rfl rfl, reads_of_ok rfl rfl, reads_of_ok rfl rfl, ?config,
    fun hstanding hlocked hmodel => ?unlock, lands_of_okAfter rfl rfl, reads_of_ok rfl rfl⟩
  case attest => exact lands_of_ok rfl rfl
  case report =>
    have he : exec (.secReportRead h rid offset len) s = mbxRow { op := 0x0801, lock := true } h
        (Arg.num 4 true :: pieceArgs s.ctl h.pair report.length offset len 56) [] s
        fun _ w => .ok (encode [.raw 1 (bytesAt report offset len)]) w := by
      change execSecReportRead h rid offset len s = _
      simp [execSecReportRead, hsession, hreport]
    exact reads_of_ok he rfl
  case config => exact does_of_ok rfl rfl (Ctl.calm_of_eq rfl rfl rfl rfl rfl rfl)
  case unlock =>
    have hstanding : (s.ctl.alarms.standing.any fun x => decide (x.2 = 2) && x.1 != 7 && x.1 != 10) = false := by
      simpa [or_iff_not_imp_left] using hstanding
    have hports (c : Ctl) := Ctl.notePorts_of_entries_eq (Ctl.entry_releaseLocked c)
    refine lands_of_ok rfl ?_
    simp only [State.taken_c, Ctl.consume_alarms, hstanding, Bool.false_eq_true, if_false, W.on, hlocked, if_true, hports,
      Ctl.serve_releaseLocked]
    simp [Ctl.clearAlarm, hmodel]

theorem securityEvents : Clause.SecurityEvents := by
  intro s hs
  refine ⟨acts_of_standbyRow hs rfl rfl, fun hg hq => ?gesso, fun hrail => ?core, ?standby, acts_of_standbyRow hs rfl rfl, ?alarmIn,
    acts_of_standbyRow hs rfl rfl, acts_of_standbyRow hs rfl rfl, acts_of_standbyRow hs rfl rfl⟩
  case gesso => exact acts_of_world_eq rfl rfl (by simp [hs, hg, hq])
  case core => exact acts_of_world_eq rfl rfl (by simp [hs, hrail])
  case standby => exact acts_of_world_eq rfl rfl (by simp [hs])
  case alarmIn => exact acts_of_world_eq rfl rfl (by simp [hs])

/-- Settles O51: each row takes the branch that the premises name; what an unlock releases are entries of the lock, so no port's state is
noted. REPORT_ID rising by 1 (log 11), the codes of SEC_ALARM_STATUS (log 60) and the opaque signatures (log 3) are the model's choices. -/
theorem securityRows : Obligations.SecurityRows := ⟨securityCommands, securityEvents⟩

end Sys2Proof.Machine
end

section
/-! SUPPORT. The firmware commands, and the events of a start. -/

namespace Sys2Proof.Machine

theorem firmwareCommands : Clause.FirmwareCommands := by
  intro s h image bank restartNow window
  dsimp only
  refine ⟨fun htrial => ⟨fun hsigned hroll => ?load, fun hvalid hbank => ?activate⟩, lands_of_okThen rfl rfl, fun hst => ?commit,
    reads_of_ok rfl rfl⟩
  case load =>
    have htrial (k : Cmd) : (s.ctl.consume k h).trialOn = false := htrial
    exact lands_of_ok rfl (by simp [htrial, hsigned, Nat.not_lt.mpr hroll])
  case activate =>
    have htrial (k : Cmd) : (s.ctl.consume k h).trialOn = false := htrial
    have hvalid (k : Cmd) : ((s.ctl.consume k h).bankOf bank).st = 1 := hvalid
    exact lands_of_okThen rfl (by simp [htrial, hvalid, hbank])
  case commit =>
    have hst (k : Cmd) : ((s.ctl.consume k h).bankOf s.ctl.rc.runBank).st = 2 := hst
    exact lands_of_ok rfl (by simp [hst])

theorem startEvents : Clause.StartEvents := by
  intro s due n lid w
  refine ⟨fun hrun => ?watchdog, fun hdue hpast htrial => ?window, fun hoff => ?cold, fun hon => ?lost, fun hrun hg => ?gesso,
    fun hrun hg hboot => ?boots, fun hrun hg hboot => ?fails, fun hrun => ?ready⟩
  case watchdog => exact acts_of_ret rfl rfl (by rcases hrun with hrun | hrun <;> simp [hrun])
  case window => exact acts_of_ret rfl rfl (by simp [hdue, hpast, htrial])
  case cold => exact acts_of_world_eq rfl rfl (by simp [hoff])
  case lost => exact acts_of_world_eq rfl rfl (by simp [hon])
  case gesso => exact acts_of_world_eq rfl rfl (by simp [hrun, hg])
  case boots => exact acts_of_world_eq rfl rfl (by simp [hrun, hg, hboot])
  case fails => exact acts_of_world_eq rfl rfl (by simp [hrun, hg, hboot])
  case ready => exact acts_of_world_eq rfl rfl (by simp [hrun])

/-- Settles O53: each row takes the branch that the premises name. That a load and an activation are refused while a bank is on trial and
that a load sets the bank to boot (log 61), and what outlasts standby power (log 25), are the model's choices. -/
theorem firmwareAndStart : Obligations.FirmwareAndStart := ⟨firmwareCommands, startEvents⟩

end Sys2Proof.Machine
end

section
/-! SUPPORT. The datagrams and timers of the remote mailbox. -/

namespace Sys2Proof.Machine

/-! The datagrams of MGMT_PORT (R537 to R541). -/

/-- What a session's datagram does that is taken. -/
theorem Ctl.remoteIn_of_takes {s : State} {type : Nat} {g : Dgram} {n : Nat} {p : Pair} {r : Remote} (h : s.TakesDgram type g n p r)
    (f : Nat → Ctl → Ctl) : s.ctl.remoteIn type g f = f n (s.ctl.dgramSeen g n) := by
  obtain ⟨⟨_, htype, hon⟩, hsession, ⟨hformed, hmac⟩, hfresh⟩ := h
  simp only [Ctl.remoteIn, hon, htype, hsession, hformed, hfresh, hmac, bne_self_eq_false, Bool.not_true, Bool.or_self, Bool.false_eq_true,
    if_false, Ctl.dgramSeen]

section
variable {s : State} {type : Nat} {g : Dgram} {n : Nat} {p : Pair} {r : Remote} {i : Instr} {f : Nat → Ctl → Ctl} {eff : Ctl → Ctl}

theorem acts_of_takes (h : s.TakesDgram type g n p r) (he : exec i s = ret g.ok (s.act (W.on (Ctl.remoteIn type g f))))
    (hf : f n (s.ctl.dgramSeen g n) = eff s.ctl) : Acts s i (W.on eff) :=
  acts_of_ret he h.whole.1 ((Ctl.remoteIn_of_takes h f).trans hf)

end

theorem remoteDatagrams : Clause.RemoteDatagrams := by
  intro s g n p r c0
  refine ⟨fun hok hon => ⟨fun ht hformed hrate hheld => ?hello, fun ht hformed hsession => ⟨fun hno => ?opens, fun second status hno => ?refused⟩,
    fun ht hsession hmac => ?forged⟩, fun h hlen => ?command, fun h => acts_of_takes h rfl rfl, fun h => acts_of_takes h rfl rfl⟩
  case hello =>
    have hrate : ((decide (c0.tick < (c0.ethPort g.port).helloWindow + 1000000000) && decide (256 ≤ (c0.ethPort g.port).helloInWindow))
        || decide (64 ≤ c0.challengesHeld.length)) = false := by
      simp only [Bool.or_eq_false_iff, Bool.and_eq_false_iff, decide_eq_false_iff_not, not_lt, not_le]
      exact ⟨hrate, hheld⟩
    refine acts_of_ret rfl hok ?_
    simp only [hon, ht, hformed, bne_self_eq_false, Bool.not_true, Bool.or_self, Bool.false_eq_true, if_false]
    exact if_neg (by rw [hrate]; decide)
  case opens => exact acts_of_ret rfl hok (by simp [hon, ht, hformed, hsession, hno])
  case refused => exact acts_of_ret rfl hok (by simp [hon, ht, hformed, hsession, hno])
  case forged =>
    refine acts_of_ret rfl hok ?_
    simp only [Ctl.remoteIn, hon, ht, bne_self_eq_false, Bool.not_true, Bool.or_self, Bool.false_eq_true, if_false]
    rw [show (s.ctl.ethTake g.port).remotePair g.session = some (n, p, r) from hsession]
    exact if_pos (by simp [hmac])
  case command => exact acts_of_takes h rfl (if_neg (Nat.not_lt.mpr hlen))

theorem remoteTimers : Clause.RemoteTimers := by
  intro s n seq due r m hn hr
  have hok : decide (n < 256) = true := decide_eq_true hn
  refine ⟨fun hlate => ?resend, fun hidle => ?idle, ?gap⟩
  case resend => exact acts_of_ret rfl hok (by simp [hr, hlate])
  case idle => exact acts_of_ret rfl hok (by simp [hr, hidle])
  case gap => exact acts_of_ret rfl hok (by simp [hr])

/-- Settles O59: each datagram and timer takes the branch of its row that the premises name. That an OPEN is matched to its challenge by
port, address and UDP port, its refusing status, the HELLO unanswered at 64 challenges and the first DGRAM_SEQ are the model's choices
(log 56). -/
theorem remoteMailbox : Obligations.RemoteMailbox := ⟨remoteDatagrams, remoteTimers⟩

end Sys2Proof.Machine
end

section
/-! SUPPORT. Requests at their home. -/

namespace Sys2Proof.Machine

/-- A request of one entry whose number is new at its flow record is entered as pending. -/
theorem W.enterRecords_fresh {w : W} {p : Pkt} (h : w.c.seen (4 * p.src + 1) p.flowSeq = .fresh) :
    w.enterRecords [p] = (w.on (Ctl.mark (4 * p.src + 1) p.flowSeq .pending), [p]) := by
  simp [W.enterRecords, h]

theorem homeApplies : Clause.HomeApplies := by
  intro s p flips r h
  have hok := h.whole.1
  have hflips : (pktOk p && flipsOk flips) = true := by rw [hok, h.whole.2.1]; rfl
  refine ⟨fun ht => ?read, fun ht hno hplain => ?write, fun ht hno => ?atomic, fun ht => ?syncRead, fun ht hno => ?syncAdd⟩
  case read => exact acts_of_world_eq rfl hflips (strike_atHome_of_admits h ht _)
  case write =>
    subst hno
    exact acts_of_world_eq rfl hok ((if_pos hplain).trans (atHome_of_admits h ht _))
  case atomic =>
    subst hno
    exact acts_of_world_eq rfl hok (atHome_of_admits h ht _)
  case syncRead => exact acts_of_world_eq rfl hflips (strike_atHome_of_admits h ht _)
  case syncAdd =>
    subst hno
    exact acts_of_world_eq rfl hok (atHome_of_admits h ht _)

theorem homeRefuses : Clause.HomeRefuses := by
  intro s p flips code hok ht hflips harr hcrc hway hrec hfresh hcheck
  have hes : reqEntries p = [p] := by simp [reqEntries, ht]
  have hin := List.contains_iff_mem.mp harr
  refine acts_of_world_eq rfl (by rw [hok, hflips]; rfl) ?_
  simp only [W.atHome, hes]
  rw [W.enterRecords_fresh (by simpa using hfresh)]
  simp [ht, hin, hway, hcrc, hrec, hcheck]
  rfl

/-- Settles O30: a request that the home admits is applied to its fresh entries, and a READ that fails a check of Table 14-3 is entered
and answered with the check's code. -/
theorem homeRequests : Obligations.HomeRequests := ⟨homeApplies, homeRefuses⟩

end Sys2Proof.Machine
end

section
/-! SUPPORT. The mailbox commands of regions, replica maps and the fabric. -/

namespace Sys2Proof.Machine

/-! Regions (R410, R412, R423). -/

section
variable {k : Cmd} {h : Hdr} {c : Ctl}

theorem regionFor_of_owns {x : Ctx} {n : Nat} {r : Region} (hr : c.fabric.regions.get? n = some r) (ho : x.owns r.job = true) :
    regionFor c x n = .ok r := by
  simp [regionFor, hr, ho]

/-- A job that passes its check does so whatever the place of its operand, which only a failure names. -/
theorem jobCheck_eq_none {x : Ctx} {job d : Nat} (hjob : jobCheck c x job d = none) (detail : Nat) : jobCheck c x job detail = none := by
  rw [jobCheck] at hjob ⊢
  split at hjob
  · cases hjob
  · split at hjob
    · cases hjob
    · simp_all

@[simp] theorem regionFor_consume (x : Ctx) (n : Nat) : regionFor (c.consume k h) x n = regionFor c x n := rfl

theorem Ctl.regionBusy_dropRegion_consume (n : Nat) (r : Region) :
    ((c.consume k h).dropRegion n).regionBusy r = (c.dropRegion n).regionBusy r := rfl

end

theorem regionCommands : Clause.RegionCommands := by
  intro s h n opn repl a c r body x k args
  refine ⟨fun hjob hrange hapart hmake => ?create, fun hr ho => ?live⟩
  case create =>
    have hnone : s.ctl.fabric.regions.vals.filter (overlaps a.space a.base a.len) = [] :=
      List.filter_eq_nil_iff.mpr fun g hg => by simp [hapart g hg]
    have hfine : ∀ d, jobCheck s.ctl (s.ctl.ctxOf h.pair) a.job d = none := jobCheck_eq_none hjob
    refine lands_of_ok rfl ?_
    simp only [State.taken_c, jobCheck_consume, hfine, hrange, Ctl.consume_fabric, hnone,
      show (s.ctl.consume _ h).makeRegion a = _ from hmake]
    rfl
  have hfor : regionFor s.ctl (s.ctl.ctxOf h.pair) n = .ok r := regionFor_of_owns hr ho
  refine ⟨fun hlive hidle => ?destroy, fun hlive => ?flags, ?status⟩
  case destroy =>
    refine lands_of_ok rfl ?_
    simp only [State.taken_c, regionFor_consume, hfor, hlive, W.on_c, Ctl.regionBusy_dropRegion_consume, hidle]
    rfl
  case flags =>
    refine lands_of_ok rfl ?_
    simp only [State.taken_c, regionFor_consume, hfor, hlive]
    rfl
  case status =>
    refine reads_of_ok rfl ?_
    simp only [State.taken_c, regionFor_consume, hfor]

/-! Replica maps, the job's timeout, the status and a staged write (R421, R424, R431, R648). -/

theorem fabricCommands : Clause.FabricCommands := by
  intro s h job timeout region key offset tag block ranges data r c x
  refine ⟨fun hjob hlen hok hapart => ?mapSet, fun hlive ho => ?mapClear, fun hjob => ?timeout, ?status,
    fun hsome hshort hr hfree hreq => ?stage⟩
  case mapSet =>
    refine lands_of_ok rfl ?_
    simp [show jobCheck s.ctl (s.ctl.ctxOf h.pair) job 16 = none from hjob, Nat.not_lt.mpr hlen, hok, hapart]
  case mapClear =>
    refine lands_of_ok rfl ?_
    simp [hlive, show (s.ctl.ctxOf h.pair).owns job = true from ho]
  case timeout =>
    refine does_of_ok rfl ?_ (Ctl.calm_of_eq (by simp) (by simp) (by simp) (by simp) (by simp) (by simp))
    simp [show jobCheck s.ctl (s.ctl.ctxOf h.pair) job 16 = none from hjob]
  case status => exact reads_of_ok rfl rfl
  case stage =>
    have hnone : (s.ctl.free32 (.rc 0)).isNone = false := Option.isNone_eq_false_iff.mpr hfree
    have hlong : ¬ 256 < data.length := Nat.not_lt.mpr hshort
    have hempty : data.length ≠ 0 := Nat.one_le_iff_ne_zero.mp hsome
    intro haccepts
    change execSysStageWrite h region key offset data s = _
    simp only [execSysStageWrite, hnone, if_neg hlong, if_neg hempty, inlineBlocks_nil, List.cons_append, List.nil_append]
    refine mbxRow_wait haccepts ?_
    simp only [State.taken_c, Ctl.consume_fabric, hr, Ctl.consume_selfModule, Bool.or_eq_true, Bool.and_eq_true, decide_eq_true_eq]
    rw [hreq]

/-- Settles O32: each command passes its checks and takes the branch that its premises name. That REPLICA_MAP_SET answers its map where it
fits in a message is the model's choice (log 7), and so is the 2-byte count before the data of SYS_STAGE_WRITE (log 10). -/
theorem fabricAndRegionCommands : Obligations.FabricAndRegionCommands := ⟨regionCommands, fabricCommands⟩

end Sys2Proof.Machine
end

section
/-! SUPPORT. The mailbox commands of collectives. -/

namespace Sys2Proof.Machine

section
variable {k : Cmd} {h : Hdr} {c : Ctl} {x : Ctx} {id : Nat}

theorem collFor_of_owns {y : Coll} (hy : c.colls.colls.get? id = some y) (ho : x.owns y.a.job = true) (args : List Arg) :
    collFor c x id args = .ok y := by
  simp [collFor, hy, ho]

@[simp] theorem collFor_consume (args : List Arg) : collFor (c.consume k h) x id args = collFor c x id args := by simp [collFor]

@[simp] theorem Ctl.consume_inJobRegion (job a n : Nat) : (c.consume k h).inJobRegion job a n = c.inJobRegion job a n := rfl

end

/-! A collective is made (R432 to R440). -/

theorem collCreates {s : State} {h : Hdr} {a : CollArgs} {t : RouteTable} {r n : Nat} {c : Ctl} {kc : Cmd}
    (hkc : kc = { op := 0x0500, roles := [0, 1] })
    (hjob : jobCheck s.ctl (s.ctl.ctxOf h.pair) a.job (offOf (collCreateArgs a) 1) = none) (huse : s.ctl.usable 17 = true)
    (hnew : s.ctl.colls.colls.has a.id = false) (hcmds : a.cmds.length ≤ 8) (hcommit : onCommitOk a = true)
    (htable : s.ctl.router.tables.get? a.job = some t) (hdims : ∀ d < 3, bit a.dimMask d = true → d < t.lens.length)
    (hagrees : collAgrees a (collDims t a.dimMask) = true)
    (hneeds : ∀ b ∈ collNeeds a (collDims t a.dimMask), s.ctl.inJobRegion a.job b.1 b.2 = true)
    (htile : a.tile < 192 → s.ctl.jobOfTile a.tile = some a.job)
    (hadd : (s.ctl.consume kc h).addRegion { space := 1, base := 0xA000000 + 64 * a.id, len := 64, job := a.job, perm := 2, opn := 0, repl := 0
                                             key := 0, use := .collStart a.id } = some (r, n, c)) :
    Lands s kc h (collCreateArgs a) (collCreateRefs h a) (.collCreate h a)
      (fun w => { w with
        c := (c.onColls fun z => { z with colls := Tab.set a.id (newColl a (s.ctl.ctxOf h.pair).sid r) z.colls }).readShape a.id })
      (encode [.n 2 r, .n 4 n]) id := by
  subst hkc
  have hdims' : ((List.range 3).all fun d => !bit a.dimMask d || decide (d < t.lens.length)) = true := by
    rw [List.all_eq_true]
    intro d hd
    cases hbit : bit a.dimMask d with
    | false => rfl
    | true => exact decide_eq_true (hdims d (List.mem_range.mp hd) hbit)
  have hneeds' : ((collNeeds a (collDims t a.dimMask)).any fun b => !s.ctl.inJobRegion a.job b.1 b.2) = false :=
    List.any_eq_false.mpr fun b hb => by simp [hneeds b hb]
  have htile' : (decide (a.tile < 192) && s.ctl.jobOfTile a.tile != some a.job) = false := by
    by_cases ht : a.tile < 192
    · simp [htile ht]
    · simp [ht]
  refine lands_of_ok rfl ?_
  simp only [State.taken_c, jobCheck_consume, hjob, Ctl.consume_usable, huse, Ctl.consume_colls, hnew, Nat.not_lt.mpr hcmds, hcommit,
    Ctl.consume_router, htable, hdims', hagrees, Ctl.consume_inJobRegion, hneeds', Ctl.consume_jobOfTile, htile', hadd]
  rfl

theorem collCommands : Clause.CollCommands := by
  intro s h a t r n cid gen policy timeout share c k x kc
  refine ⟨collCreates rfl, fun hk ho => ?live⟩
  have hfor : ∀ args, collFor s.ctl (s.ctl.ctxOf h.pair) cid args = .ok k := collFor_of_owns hk ho
  refine ⟨?destroy, fun hstop huse hidle hgen => ?start, ?status, fun hst hdirect hcarry => ?policy⟩
  case destroy => exact lands_of_ok rfl (by simp [hfor])
  case start =>
    have hgoes : (s.ctl.colls.colls.get? cid).any s.ctl.collStopped = false := by rw [hk]; exact hstop
    intro haccepts
    change execCollStart h cid gen s = _
    simp only [execCollStart, hgoes]
    refine mbxRow_ok haccepts ?_
    simp [hfor, huse, hidle, hgen]
  case status => exact reads_of_ok rfl (by simp [hfor])
  case policy =>
    have hst' : (k.st != .idle && k.st != .aborted) = false := by rcases hst with hst | hst <;> simp [hst]
    have hgood : ((decide (policy = 0) || k.a.direct) && (policy != 1 || !k.a.reduces || (k.a.carry0.isSome && k.a.carry1.isSome))) = true := by
      simpa [or_assoc] using ⟨hdirect, hcarry⟩
    refine lands_of_ok rfl ?_
    simp only [State.taken_c, collFor_consume, hfor, hst', hgood]
    rfl

/-! Resume, abort, expel and the budget (R451, R456, R462). -/

theorem collControl : Clause.CollControl := by
  intro s h cid job m budget refill k j x args k4 k6
  refine ⟨fun hid hk ho => ?one, fun hid hlive ho => ⟨fun huse => ?resumeAll, fun hbusy => ?abortAllWaits, fun hfree => ?abortAll⟩,
    fun hj => ⟨fun havail => ?expel, ?budget⟩⟩
  case one =>
    have hfor : ∀ args, collFor s.ctl (s.ctl.ctxOf h.pair) cid args = .ok k := collFor_of_owns hk ho
    refine ⟨fun huse hst => ?resume, fun hbusy => ?abortWaits, fun hfree => ?abort⟩
    case resume => exact lands_of_ok rfl (by simp [hid, hfor, huse, hst])
    case abortWaits =>
      refine waits_of_wait rfl ?_
      simp only [if_neg hid, State.taken_c, collFor_consume, hfor]
      exact if_pos hbusy
    case abort =>
      refine lands_of_ok rfl ?_
      simp only [if_neg hid, State.taken_c, collFor_consume, hfor]
      exact if_neg (Bool.eq_false_iff.mp hfree)
  case resumeAll =>
    have howns : (s.ctl.ctxOf h.pair).owns job = true := ho
    exact lands_of_ok rfl (by simp [hid, hlive, howns, huse])
  case abortAllWaits =>
    have howns : (s.ctl.ctxOf h.pair).owns job = true := ho
    refine waits_of_wait rfl ?_
    simp only [if_pos hid, State.taken_c, Ctl.consume_jobLive, hlive, howns]
    exact if_pos hbusy
  case abortAll =>
    have howns : (s.ctl.ctxOf h.pair).owns job = true := ho
    refine lands_of_ok rfl ?_
    simp only [if_pos hid, State.taken_c, Ctl.consume_jobLive, hlive, howns]
    exact if_neg (Bool.eq_false_iff.mp hfree)
  case expel => exact lands_of_ok rfl (by simp [hj, havail])
  case budget => exact lands_of_ok rfl (by simp [hj])

/-- Settles O41: each command passes its checks and takes the branch that its premises name. That a collective's start line lies at
0xA000000 + 64n of hub SRAM is the model's choice (log 20). -/
theorem collectiveCommands : Obligations.CollectiveCommands := ⟨collCommands, collControl⟩

end Sys2Proof.Machine
end

section
/-! SUPPORT. The mailbox commands of pipeline channels and spares. -/

namespace Sys2Proof.Machine

section
variable {k : Cmd} {h : Hdr} {c : Ctl} {x : Ctx} {id : Nat}

theorem pipeFor_of_owns {y : Pipe} (hy : c.colls.pipes.get? id = some y) (ho : x.owns y.a.job = true) (args : List Arg) :
    pipeFor c x id args = .ok y := by
  simp [pipeFor, hy, ho]

@[simp] theorem pipeFor_consume (args : List Arg) : pipeFor (c.consume k h) x id args = pipeFor c x id args := by simp [pipeFor]

@[simp] theorem recvSlots_consume : recvSlots (c.consume k h) = recvSlots c := by simp [recvSlots]

@[simp] theorem Ctl.consume_regionAt (space a : Nat) : (c.consume k h).regionAt space a = c.regionAt space a := rfl

end

/-- The region of a line of channel `a` behind the lines of the collectives. -/
def pipeLine (a : PipeArgs) (off : Nat) (use : RegUse) : Region :=
  { space := 1, base := 0xA001000 + 128 * a.id + off, len := 64, job := a.job, perm := 2, opn := 0, repl := 0, key := 0, use := use }

/-- A channel is made (R457, R458). -/
theorem pipeCreates {s : State} {h : Hdr} {a : PipeArgs} {r1 k1 r2 k2 : Nat} {c1 c2 : Ctl} {anchor : Coll} {kc : Cmd}
    (hkc : kc = { op := 0x0510, roles := [0, 1] })
    (hjob : jobCheck s.ctl (s.ctl.ctxOf h.pair) a.job (offOf (pipeCreateArgs a) 1) = none) (huse : s.ctl.usable 17 = true)
    (hnew : s.ctl.colls.pipes.has a.id = false) (hanchor : s.ctl.colls.colls.get? a.anchor = some anchor) (hsame : anchor.a.job = a.job)
    (hbuffer : s.ctl.inJobRegion a.job a.buffer (a.slots * a.slotBytes) = true)
    (htile : a.tile < 192 → s.ctl.jobOfTile a.tile = some a.job) (hslots : a.dir = 1 → recvSlots s.ctl + a.slots * a.samples ≤ 256)
    (hstart : (s.ctl.consume kc h).addRegion (pipeLine a 0 (.pipeStart a.id)) = some (r1, k1, c1))
    (hrelease : c1.addRegion (pipeLine a 64 (.pipeRelease a.id)) = some (r2, k2, c2)) :
    Lands s kc h (pipeCreateArgs a) [] (.pipeCreate h a)
      (fun w => { w with
        c := c2.onColls fun z => { z with
          pipes := Tab.set a.id { a, session := (s.ctl.ctxOf h.pair).sid, start := r1, release := r2, gen := anchor.gen
                                  attempt := anchor.attempt } z.pipes } })
      (encode [.n 2 r1, .n 4 k1, .n 2 r2, .n 4 k2]) id := by
  subst hkc
  have htile' : (decide (a.tile < 192) && s.ctl.jobOfTile a.tile != some a.job) = false := by
    by_cases ht : a.tile < 192
    · simp [htile ht]
    · simp [ht]
  have hslots' : (decide (a.dir = 1) && decide (256 < recvSlots s.ctl + a.slots * a.samples)) = false := by
    by_cases hd : a.dir = 1
    · simpa [hd] using hslots hd
    · simp [hd]
  simp only [pipeLine, Nat.add_zero] at hstart hrelease
  refine lands_of_ok rfl ?_
  simp only [State.taken_c, jobCheck_consume, hjob, Ctl.consume_usable, huse, Ctl.consume_colls, hnew, hanchor, hsame,
    Ctl.consume_inJobRegion, hbuffer, Ctl.consume_jobOfTile, htile', recvSlots_consume, hslots', hstart, hrelease]
  simp

/-- Settles O42: each command passes its checks and takes the branch that its premises name. That a channel's lines lie at
0xA001000 + 128n of hub SRAM is the model's choice (log 20), and so are the outcome codes of a fill and the promotion of a spare
(log 49). -/
theorem pipeCommands : Obligations.PipeCommands := by
  intro s h a cid r1 k1 r2 k2 job source block pairs c1 c2 anchor p x kc line
  refine ⟨pipeCreates rfl, fun hp ho => ⟨?destroy, ?status⟩, fun hjob hsome hfew hpairs huse hidle hdst => ?fill,
    fun hlive => ⟨fun y hy hready hstill => ?promote, ?spare⟩⟩
  case destroy =>
    have hfor : ∀ args, pipeFor s.ctl (s.ctl.ctxOf h.pair) cid args = .ok p := pipeFor_of_owns hp ho
    exact lands_of_ok rfl (by simp [hfor])
  case status =>
    have hfor : ∀ args, pipeFor s.ctl (s.ctl.ctxOf h.pair) cid args = .ok p := pipeFor_of_owns hp ho
    refine reads_of_ok rfl ?_
    simp only [State.taken_c, pipeFor_consume, hfor]
  case fill =>
    have hidle' : (s.ctl.colls.spares.get? job).any (·.running) = false := by
      cases hspare : s.ctl.colls.spares.get? job with
      | none => rfl
      | some y => exact hidle y hspare
    have hdst' : (pairs.any fun q => !(s.ctl.inJobRegion job q.dst q.len
        && ((s.ctl.regionAt 2 (bits q.dst 43 0)).any fun r => r.2.key = q.dstKey))) = false := by
      refine List.any_eq_false.mpr fun q hq => ?_
      obtain ⟨hin, g, hg, hkey⟩ := hdst q hq
      simp [hin, hg, hkey]
    have hfine : ∀ d, jobCheck s.ctl (s.ctl.ctxOf h.pair) job d = none := jobCheck_eq_none hjob
    refine waits_of_wait rfl ?_
    simp only [State.taken_c, jobCheck_consume, hfine, Nat.not_lt.mpr hfew, hpairs, Ctl.consume_usable, huse, Ctl.consume_colls, hidle',
      Ctl.consume_inJobRegion, Ctl.consume_regionAt, hdst', Nat.one_le_iff_ne_zero.mp hsome]
    rfl
  case promote => exact lands_of_ok rfl (by simp [hlive, hy, hready, hstill])
  case spare => exact reads_of_ok rfl (by simp [hlive])

end Sys2Proof.Machine
end

section
/-! SUPPORT. Requests of the mailbox and of TSP, and the timers of the serving engine. -/

namespace Sys2Proof.Machine

/-! Requests and cancels from the mailbox, and the status (R481, R485, R502). -/

section
variable (k : Cmd) (h : Hdr) (c : Ctl)

@[simp] theorem Ctl.consume_seq? (cid n : Nat) : (c.consume k h).seq? cid n = c.seq? cid n := rfl
@[simp] theorem contractFor_consume (x : Ctx) (cid : Nat) (args : List Arg) :
    contractFor (c.consume k h) x cid args = contractFor c x cid args := rfl
@[simp] theorem Ctl.consume_repeatAnswer (q : Sequence) : (c.consume k h).repeatAnswer q = c.repeatAnswer q := rfl

end

theorem serveRequests : Clause.ServeRequests := by
  intro s h cid stream e payload y c q
  dsimp only
  refine ⟨fun hy ho => ?contract, ?status⟩
  case status => exact reads_of_ok rfl (by simp)
  have hfor : ∀ args, contractFor s.ctl (s.ctl.ctxOf h.pair) cid args = .ok y := contractFor_of_owns hy ho
  refine ⟨fun huse => ⟨fun hq => ?again, fun hno hfirst => ⟨fun w hw hsub hq => ?accepted, fun hsub => ?refused⟩⟩, fun hq => ?cancel⟩
  case again => exact reads_of_ok rfl (by simp [needServe_of_usable, huse, hfor, hq])
  case accepted =>
    have hneed : needServe (s.ctl.consume { op := 0x0620, roles := [0, 1] } h) = none := needServe_of_usable huse
    refine lands_of_ok rfl ?_
    simp only [State.taken_c, hneed, contractFor_consume, hfor, Ctl.consume_seq?, hno, hfirst, bne_self_eq_false, Bool.false_eq_true, if_false,
      hsub, ← hw, hq]
  case refused =>
    have hneed : needServe (s.ctl.consume { op := 0x0620, roles := [0, 1] } h) = none := needServe_of_usable huse
    refine reads_of_ok rfl ?_
    simp only [State.taken_c, hneed, contractFor_consume, hfor, Ctl.consume_seq?, hno, hfirst, bne_self_eq_false, Bool.false_eq_true, if_false,
      hsub]
  case cancel =>
    have hsome : (s.ctl.seq? cid stream).isNone = false := by simpa using hq
    exact lands_of_ok rfl (by simp [hfor, hsome])

/-! The messages of TSP (R472 to R478, R485). -/

/-- A message that is taken has its effect on the module with what the message counts. -/
theorem acts_of_takesTsp {s : State} {type : Nat} {m : Tsp} {c : Ctl} {i : Instr} {f g : W → W} (h : s.TakesTsp type m c)
    (he : exec i s = tspRow type m s f) (hf : f { s.world with c := c } = g s.world) : Acts s i g := by
  obtain ⟨⟨hok, htype⟩, ⟨hrun, hin⟩, hverified⟩ := h
  refine acts_of_world_eq he hok ?_
  simp only [State.world_c, hrun, hin, htype, hverified, bne_self_eq_false, Bool.not_true, Bool.or_self, Bool.false_eq_true, if_false, if_true, hf]

/-- No part of a request lies among the parts of others. -/
theorem find?_parts_eq_none {l : List Parts} {k n : Nat} (h : ∀ p ∈ l, ¬ (p.contract = k ∧ p.stream = n)) :
    (l.find? fun p => p.contract = k && p.stream = n) = none := by
  simpa [List.find?_eq_none] using h

section
variable {s : State} {m : Tsp} {c : Ctl} {q : Sequence}

/-- A repeated STREAM_ID is answered again (R476). -/
theorem tspRequestAgain (h : s.TakesTsp 1 m c) (hq : c.seq? m.contract m.stream = some q) :
    Acts s (.tspRequest m) fun w =>
      ({ w with c := c } : W).on (Ctl.tspSend m.contract m.stream (c.repeatAnswer q).1 m.client (c.repeatAnswer q).2) := by
  refine acts_of_takesTsp h (by change execTspRequest m s = _; rw [execTspRequest]) ?_
  simp only [hq]

/-- The parts of the request of a message go. -/
def Ctl.dropPartsOf (m : Tsp) (c : Ctl) : Ctl :=
  c.onServe fun y => { y with parts := y.parts.filter fun p => !(p.contract = m.contract && p.stream = m.stream) }

/-- The parts of a request that has only its part 0 so far. -/
def firstPart (m : Tsp) (tick : Nat) : Parts :=
  { contract := m.contract, stream := m.stream, client := m.client, first := tick, got := [(0, m.payload)]
    last := if bit m.flags 0 then none else some 0, textOut := bit m.flags 1 }

theorem firstPart_whole (m : Tsp) (tick : Nat) :
    (firstPart m tick).whole = if bit m.flags 0 then none else some (m.payload, m.payload.drop 48) := by
  cases hmore : bit m.flags 0 <;> simp [firstPart, Parts.whole, hmore, Tab.has, Tab.getD, Tab.get?, List.range_succ]

/-- A first part 0 takes the place of the request's parts, or is the whole of it (R475). -/
theorem acts_of_firstPart {g : W → W} (h : s.TakesTsp 1 m c) (hq : c.seq? m.contract m.stream = none) (hlen : 48 ≤ m.payload.length)
    (hfirst : fieldAt m.payload 44 4 = 0) (hnone : ∀ p ∈ c.serve.parts, ¬ (p.contract = m.contract ∧ p.stream = m.stream))
    (hg : (match (firstPart m c.tick).whole with
      | some (p0, input) => (({ s.world with c := c } : W).on (Ctl.dropPartsOf m)).takeRequest m.contract m.stream m.client p0
        input (bit m.flags 1)
      | none => (({ s.world with c := c } : W).on (Ctl.dropPartsOf m)).on (Ctl.onServe fun y => { y with
        parts := y.parts ++ [firstPart m c.tick] })) = g s.world) : Acts s (.tspRequest m) g := by
  refine acts_of_takesTsp h (by change execTspRequest m s = _; rw [execTspRequest]) ?_
  simp only [hq, Nat.not_lt.mpr hlen, hfirst, find?_parts_eq_none hnone]
  exact hg

/-- CANCEL ends its sequence (R485). -/
theorem tspCancels (h : s.TakesTsp 2 m c) :
    Acts s (.tspCancel m) fun w => (({ w with c := c } : W).on (Ctl.cancelSeq m.contract m.stream)).serveKick :=
  acts_of_takesTsp h (by change execTspCancel m s = _; rw [execTspCancel]) rfl

/-- An ACK drops the tokens below it (R477). -/
theorem streamAcks (h : s.TakesTsp 3 m c) (hq : c.seq? m.contract m.stream = some q) (hpaused : q.paused = false) :
    Acts s (.streamAck m) fun w => ({ w with c := c } : W).on (Ctl.updSeq m.contract m.stream fun z => { z with
      acked := max q.acked (min (fieldAt m.payload 0 4) q.sent)
      paused := z.paused
      skipLat := z.skipLat }) := by
  refine acts_of_takesTsp h (by change execStreamAck m s = _; rw [execStreamAck]) ?_
  simp [hq, hpaused]

/-- RESEND sends the kept tokens again, one to a message, where the stream carries no text (R477, R478). -/
theorem tspResends (h : s.TakesTsp 4 m c) (hq : c.seq? m.contract m.stream = some q) (htext : q.r.textOut = false) :
    Acts s (.tspResend m) fun w => ({ w with c := c } : W).on fun c =>
      (List.range (q.sent - max q.acked (fieldAt m.payload 0 4))).foldl (fun (st : Ctl) i =>
        st.tspSend q.contract q.stream 0x82 q.client
          (Ctl.tokensBytes (max q.acked (fieldAt m.payload 0 4) + i) [q.out.getD (max q.acked (fieldAt m.payload 0 4) + i) 0] [])) c := by
  refine acts_of_takesTsp h (by change execTspResend m s = _; rw [execTspResend]) ?_
  simp only [hq, htext, Bool.false_eq_true, if_false]
  exact congrArg (fun x => ({ s.world with c := x } : W)) (List.foldl_hom Prod.fst fun _ _ => rfl).symm

end

theorem tspMessages : Clause.TspMessages := by
  intro s m c q
  dsimp only
  refine ⟨fun h => ⟨tspRequestAgain h, fun hq hlen hfirst hlast hnone => ?whole, fun hq hlen hfirst hmore hnone => ?part⟩,
    tspCancels, streamAcks, tspResends⟩
  case whole => exact acts_of_firstPart h hq hlen hfirst hnone (by rw [firstPart_whole, hlast]; rfl)
  case part =>
    refine acts_of_firstPart h hq hlen hfirst hnone ?_
    rw [firstPart_whole, hmore, firstPart, hmore]
    rfl

/-! The timers (R471, R475, R476, R492, R494, R495, R499, R500, R621). -/

/-- What fails of the value there is does not hold of all. -/
theorem all_eq_false_of_eq_some {α : Type} {o : Option α} {a : α} {f : α → Bool} (h : o = some a) (hf : f a = false) : o.all f = false := by
  rw [h]
  exact hf

section
variable {s : State} {n seq d : Nat} {e : Queued} (hn : n < 2 ^ 32) (hseq : seq < 2 ^ 32) (hrun : s.ctl.rc.run = 3)
  (he : (s.ctl.serve.queue.find? fun q => q.contract = n && q.seq = seq) = some e) (hsent : e.sentAt = some d)
  (hdue : d + 20000000 ≤ s.ctl.tick)
include hn hseq hrun he hsent hdue

/-- 20 ms after a record was sent, its check goes by whether the Tally holds it (R500, R621). -/
theorem acts_of_resendDue {g : W → W}
    (hg : (if s.tally.powered && seq < nextSeqOf s.tally n then
        ((s.world.on (Ctl.onServe fun y => { y with queue := y.queue.filter (· != e) })).on fun c =>
          c.serve.contracts.keys.foldl (fun (c : Ctl) id => c.retryClose id) c).serveKick
      else s.world.on (Ctl.onServe fun y => { y with
        queue := y.queue.map fun x => if x = e then { e with sentAt := if s.ctl.stateOf 15 = 2 then some s.ctl.tick else none } else x }))
      = g s.world) : Acts s (.recordResendCheck n seq) g := by
  have hlate : (e.sentAt.all fun t => decide (s.world.c.tick < t + 20000000)) = false :=
    all_eq_false_of_eq_some hsent (decide_eq_false (Nat.not_lt.mpr hdue))
  refine acts_of_world_eq rfl (Bool.and_eq_true_iff.mpr ⟨decide_eq_true hn, decide_eq_true hseq⟩) ?_
  simp only [show (s.world.c.serve.queue.find? fun q => q.contract = n && q.seq = seq) = some e from he,
    show s.world.c.rc.run = 3 from hrun, bne_self_eq_false, Bool.false_or, hlate, Bool.false_eq_true, if_false]
  exact hg
theorem recordReleased (hpow : s.tally.powered = true) (hgot : seq < nextSeqOf s.tally n) :
    Acts s (.recordResendCheck n seq) fun w =>
          ((w.on (Ctl.onServe fun y => { y with queue := y.queue.filter (· != e) })).on fun c =>
            c.serve.contracts.keys.foldl (fun (c : Ctl) id => c.retryClose id) c).serveKick :=
  acts_of_resendDue hn hseq hrun he hsent hdue (by rw [hpow, decide_eq_true hgot]; rfl)

theorem recordResent (hmiss : nextSeqOf s.tally n ≤ seq) (hstate : s.ctl.stateOf 15 = 2) :
        Acts s (.recordResendCheck n seq) (W.on (Ctl.onServe fun y => { y with
          queue := y.queue.map fun x => if x = e then { e with sentAt := some s.ctl.tick } else x })) :=
  acts_of_resendDue hn hseq hrun he hsent hdue (by rw [decide_eq_false (Nat.not_lt.mpr hmiss), Bool.and_false, if_pos hstate]; rfl)
end

theorem serveTimers : Clause.ServeTimers := by
  intro s n stream slot d seq p q y st e pk r m hn hstream hslot hseq hrun
  have hkey : (decide (n < 2 ^ 32) && decide (stream < 2 ^ 64)) = true := by rw [decide_eq_true hn, decide_eq_true hstream]; rfl
  refine ⟨fun hp hdue => ?parts, fun hq hdone hdue => ?retention, fun hq hdl hdue => ?deadline,
    fun hy => ⟨fun hst hdue => ?stretch, fun key hold hdue => ?grace, fun hdue => ?window⟩,
    fun he hsent hdue => ⟨fun hpow hgot => ?released, fun hmiss hstate => ?resent⟩,
    fun h ht hspace hd hline hheld => ?iteration⟩
  case parts => exact acts_of_ret rfl hkey (by simp [hp, hrun, hdue])
  case retention => exact moves_of_ret rfl hkey (by simp [hrun, hq, hdone, hdue]) (by simp [Ctl.calm])
  case deadline => exact acts_of_ret rfl (decide_eq_true hslot) (by simp [hq, hdl, hrun, Nat.not_lt.mpr hdue])
  case stretch => exact acts_of_ret rfl (decide_eq_true hn) (by simp [hy, hst, hrun, hdue])
  case grace => exact acts_of_ret rfl (decide_eq_true hn) (by simp [hrun])
  case window =>
    intro c c' k hk
    refine acts_of_ret rfl (decide_eq_true hn) ?_
    simp only [c', c] at hk ⊢
    simp only [hy, hrun, Nat.not_lt.mpr hdue, hk]
    rfl
  case released => exact recordReleased hn hseq hrun he hsent hdue hpow hgot
  case resent => exact recordResent hn hseq hrun he hsent hdue hmiss hstate
  case iteration =>
    intro w hmodel hwait hdone
    refine acts_of_world_eq rfl h.whole.1 ?_
    simp only [State.world_c, hd, hspace, hline, hheld, bne_self_eq_false, Bool.or_self, Bool.false_eq_true, if_false]
    rw [atHome_of_admits h ht]
    simp only [show (W.applyWrite pk r.1).c.serve.model = some m from hmodel]
    exact if_pos (Bool.and_eq_true_iff.mpr ⟨hwait, decide_eq_true hdone⟩)

/-- Settles O47: a request, a message and a timer each take the branch of their row that the premises name. That an iteration ends while
the stacks that it needs can be reached is the model's reading (log 78). -/
theorem serveRuns : Obligations.ServeRuns := ⟨serveRequests, tspMessages, serveTimers⟩

end Sys2Proof.Machine
end
